-- ==== Sys2Proof/Word.lean ====
section
/-! DEFINITION. The word types, bit fields of a 64-bit register, signed readings, and the sparse table
that holds registers and memory in one canonical form. -/

namespace Sys2Proof

/-- A 64-bit register value or bus word. -/
abbrev Word := BitVec 64

/-- One byte (memory cell, stamp byte, frame byte). -/
abbrev Byte := BitVec 8

/-- `getF v lo n`: the n-bit field of `v` whose least significant bit is bit `lo` (R3: bit 0 is the least). -/
def getF (v : Word) (lo n : Nat) : Nat := v.toNat / 2 ^ lo % 2 ^ n

/-- `putF v lo n x`: `v` with the n-bit field at `lo` replaced by the low n bits of `x`. -/
def putF (v : Word) (lo n x : Nat) : Word :=
  BitVec.ofNat 64 (v.toNat / 2 ^ (lo + n) * 2 ^ (lo + n) + (x % 2 ^ n) * 2 ^ lo + v.toNat % 2 ^ lo)

/-- The n low bits of `x` read as a two's-complement number. -/
def signed (n x : Nat) : Int :=
  if x % 2 ^ n < 2 ^ (n - 1) then (x % 2 ^ n : Int) else (x % 2 ^ n : Int) - (2 ^ n : Nat)

/-- An integer wrapped into n bits, as a natural number. -/
def wrap (n : Nat) (x : Int) : Nat := (x % (2 ^ n : Nat)).toNat

/-- Add one, stopping at the largest n-bit value (the saturating counters of the register tables). -/
def satInc (n x : Nat) : Nat := if x + 1 < 2 ^ n then x + 1 else 2 ^ n - 1

/-- A sparse table: keys with values, sorted by key, no key twice, no value equal to its key's default. -/
abbrev Tab (α : Type) := List (Nat × α)

namespace Tab
variable {α : Type}

/-- The value at key `k`; an unlisted key holds its default `d k`. -/
def look (d : Nat → α) : Tab α → Nat → α
  | [], k => d k
  | (j, v) :: r, k => if j = k then v else look d r k

/-- The table without key `k`. -/
def drop : Tab α → Nat → Tab α
  | [], _ => []
  | (j, v) :: r, k => if j = k then drop r k else (j, v) :: drop r k

/-- Insert an entry before the first larger key. -/
def ins : Tab α → Nat → α → Tab α
  | [], k, v => [(k, v)]
  | (j, x) :: r, k, v => if k < j then (k, v) :: (j, x) :: r else (j, x) :: ins r k v

/-- The table with key `k` holding `v`; writing the default removes the entry. -/
def put [DecidableEq α] (d : Nat → α) (t : Tab α) (k : Nat) (v : α) : Tab α :=
  if v = d k then drop t k else ins (drop t k) k v

/-- Every key of the table is above `k`. -/
def above (k : Nat) : Tab α → Bool
  | [] => true
  | (j, _) :: r => k < j && above k r

/-- The canonical form: keys strictly rising and no value equal to its key's default. -/
def wf [DecidableEq α] (d : Nat → α) : Tab α → Bool
  | [] => true
  | (j, v) :: r => above j r && !(decide (v = d j)) && wf d r

end Tab
end Sys2Proof
end

