-- ==== Sys2Proof/Syntax.lean ====
section
/-! DEFINITION. The commands of the module (spec/opcode_table.json) with their operands. -/

namespace Sys2Proof

/-- The way a folio stamp reached its edge die (R26, R28, R530). -/
inductive StampPath where
  | eth (sub : Fin 4)
  | pcie (port : Fin 2)
  | window (src : Fin 64)
  | vf (port : Fin 2) (vf : Fin 64)
deriving DecidableEq, Repr

/-- The authority a write carries (R19): a ribbon window, Unhal, or a volume's program or host. -/
inductive Src where
  | ribbon
  | unhal
  | volume (v : Fin 64)
deriving DecidableEq, Repr

/-- The four entry voltages in 10 mV, NW, NE, SE, SW (MOD_PWR_VIN, R68). -/
structure Inputs4 where
  nw : BitVec 16
  ne : BitVec 16
  se : BitVec 16
  sw : BitVec 16
deriving DecidableEq, Repr

/-- Ribbon port A (edge die 0) or B (edge die 8) (R7). -/
inductive RibPort where
  | a
  | b
deriving DecidableEq, Repr

/-- A WRITE request of the other port to the same register in the same slot (R121). -/
structure PeerWrite where
  tag : BitVec 4
  data : BitVec 32
deriving DecidableEq, Repr

/-- One failing wire of a sewing test: the sending node, its link direction (4: outward), and the wire:
0–2,175 data wires, 2,176 + g the guard of group g (R135–R138). -/
structure WireFail where
  node : Nat
  dir : Nat
  wire : Nat
deriving DecidableEq, Repr

/-- What the tests of a rejoin find at one site (R160): the self-test codes of its two dies (0 a pass), the stage
check, the failing wires of its links, and the time in µs after which the rejoin ends. -/
structure SewIn where
  code : BitVec 16
  stageOk : Bool
  wires : List WireFail
  endsUs : Nat
deriving DecidableEq, Repr

/-- What a full collation meets in the silicon (R130–R145, R152–R156): root self-tests and the crosslink, self-test
failures (position 0–143 or 144 + edge die, code), failing power stages, wrong straps (die, position read), failing
wires, measured latencies (node, direction, units), dies whose IDENT does not arrive, HBM stacks that fail training. -/
structure CollIn where
  root0 : Bool
  root8 : Bool
  crosslink : Bool
  fusesEqual : Bool
  selftest : List (Nat × BitVec 16)
  stages : List Nat
  straps : List (Nat × Nat)
  wires : List WireFail
  latency : List (Nat × Nat × Nat)
  silent : List Nat
  hbmFail : List (Fin 16)
deriving DecidableEq, Repr

/-- An IDENT message (R141): kind (true: an edge die), position or edge number read from the straps, self-test codes,
stepping, and per link its state, guards in each direction and latency. -/
structure DieReport where
  isEdge : Bool
  position : Nat
  codes : BitVec 16
  stepping : BitVec 8
  links : List (BitVec 8 × BitVec 8 × BitVec 8)
deriving DecidableEq, Repr

/-- A die-edge port: die value (0–127 sites, 128 + e edge dies, R5) and direction (N 0, E 1, S 2, W 3; for an edge
die the position of the facing site in Table MOD-1). -/
structure LinkEnd where
  die : Fin 144
  dir : Fin 4
deriving DecidableEq, Repr

/-- A traffic class (R173). -/
inductive TClass where
  | mem
  | coh
  | irq
  | dbg
deriving DecidableEq, Repr

/-- A die-edge link, named by one of its ports, or a spine link by its global number (R194). -/
inductive AnyLink where
  | die (port : LinkEnd)
  | spine (link : Fin 32)
deriving DecidableEq, Repr

/-- What the far end of a spine link reports in training (R195). -/
structure SpinePeer where
  wafer : BitVec 4
  link : BitVec 5
  serial : BitVec 64
deriving DecidableEq, Repr

/-- A requester: die value and unit (R216). -/
structure Requester where
  die : Fin 144
  unit : BitVec 8
deriving DecidableEq, Repr

/-- A MEM request (R216): who asks, with which tag and authority, the wafer physical address, the size in bytes, and
the ACQUIRE and RELEASE marks of R220. -/
structure MemReq where
  who : Requester
  tag : BitVec 12
  src : Src
  addr : BitVec 64
  size : Nat
  acquire : Bool
  release : Bool
deriving DecidableEq, Repr

/-- A doorbell path of Table QUE-11: a virtual function's doorbell, a register of one ring, the site's register, or a
ribbon window. -/
inductive DbPath where
  | vf (vol : Fin 64)
  | ring (src : Src)
  | site (src : Src)
deriving DecidableEq, Repr

/-- Who acts on a mailbox channel (R277). -/
inductive MbxActor where
  | ribbon (port : RibPort)
  | unhal
  | volume (v : Fin 64)
deriving DecidableEq, Repr

/-- What the ECC check of a row or word finds (R416, R544). -/
inductive RowCheck where
  | clean
  | corrected
  | uncorrectable
deriving DecidableEq, Repr

/-- A request for leave (R482): the site and the resource asking, class, volume, LU asked, duration in µs. -/
structure LeaveReq where
  site : Fin 128
  res : Nat
  cls : Fin 4
  vol : Fin 64
  lu : Nat
  durationUs : Nat
deriving DecidableEq, Repr

/-- A request of a host or a device over PCIe: a read of n bytes, a write, or an AtomicOp. -/
inductive HostOp where
  | read (bytes : Nat)
  | write (data : List Byte)
  | atomic
deriving DecidableEq, Repr

/-- The mailbox channel an Unhal call came through (R279); the caller is the volume the channel is bound to. -/
structure Via where
  edge : Fin 16
  ch : Fin 64
deriving DecidableEq, Repr

/-- The commands of the block: one constructor per row of the spec's table of operations and events. A command is a
whole, indivisible step; its operands are what the step needs from outside (frame contents, measured levels, which
of the choices the spec leaves open is taken). -/
inductive Instr where
  /-- TICK_EDGE (R23): A qualified edge or transition on a folio tick input counts the bound counters up or down according to their tick mode. -/
  | tickEdge (edge : Fin 16) (lv0 : Bool) (held0 : Nat) (lv1 : Bool) (held1 : Nat)
  /-- FOLIO_STAMP (R26): A 16-byte folio stamp from an ingress header, the stamp window or a VF stamp port is checked and applied to its counter, or discarded. -/
  | folioStamp (edge : Fin 16) (path : StampPath) (stamp : List Byte)
  /-- DERIVED_ADVANCE (R29): At every FOL_REFCOUNT multiple of 100, each running DERIVED counter adds FOL_CNT_DERIVED_INC. -/
  | derivedAdvance (edge : Fin 16)
  /-- BEACON_SAMPLE (R31): Each edge die samples its 16 counters every 1 µs, updates the rate estimators and held rates, and broadcasts a beacon. -/
  | beaconSample (edge : Fin 16)
  /-- BEACON_APPLY (R32): A site applies all 16 entries of an arriving beacon in one step, clears STALE and evaluates the alarms and waiting admissions on those counters. -/
  | beaconApply (site : Fin 128) (edge : Fin 16) (sample : BitVec 64)
  /-- STALE (R34): A site sets STALE on an edge die's 16 image entries when no beacon newer than 200 reference counts has arrived. -/
  | stale (site : Fin 128) (edge : Fin 16)
  /-- STALE_FAULT (R61): STALE held for 10 ms raises a folio fault to Unhal, which tests the link path to that edge die. -/
  | staleFault (site : Fin 128) (edge : Fin 16)
  /-- STALL (R37): STALL_US without an advance declares a stall: STALLED is set, STALL latched and the rate reads 0. -/
  | stall (ctr : Fin 256)
  /-- FOL_CNT_CFG_WRITE (R20): A write of FOL_CNT_CFG sets a counter's source and estimator settings, or is refused with a protection fault. -/
  | folCntCfgWrite (src : Src) (ctr : Fin 256) (value : BitVec 64)
  /-- FOL_CNT_LOAD (R24): A write of FOL_CNT_LOAD sets the counter's position and declares a jump. -/
  | folCntLoad (src : Src) (ctr : Fin 256) (value : BitVec 64)
  /-- FOL_CNT_NOMRATE_WRITE (R40): A write of FOL_CNT_NOMRATE sets the nominal rate and copies it into the held rate. -/
  | folCntNomrateWrite (src : Src) (ctr : Fin 256) (value : BitVec 64)
  /-- CLR_DISCARDS (R21): Writing 1 to CLR_DISCARDS sets a counter's stamp discard count to 0. -/
  | clrDiscards (src : Src) (ctr : Fin 256)
  /-- FOL_ALM_WRITE (R45): A register write to a folio alarm lands wholly before or after any evaluation, or is refused if the alarm belongs to another volume. -/
  | folAlmWrite (src : Src) (site : Fin 128) (alarm : Fin 256) (reg : Fin 5) (value : BitVec 64)
  /-- DEADLINE_ABORT (R55): A running FOLIO command without RUN_LATE whose slack reaches 0 is aborted, its outputs discarded, and it completes LATE. -/
  | deadlineAbort (site : Fin 128) (rec : Fin 1024)
  /-- SUPERVISOR_START (R66): The module supervisor starts with reset register values when any power entry rises above 20 V. -/
  | supervisorStart (vin : Inputs4)
  /-- SUPERVISOR_STOP (R66): When every entry falls below 20 V the supervisor stops, which clears an overvoltage latch or a trip. -/
  | supervisorStop (vin : Inputs4)
  /-- POWER_ON (R73): With all entries at or above 43 V the bulk ramps and the rail planes come up in order, raising MOD_PGOOD and setting CAP_KW. -/
  | powerOn (vin : Inputs4)
  /-- INTERNAL_RESET_RELEASE (R73): The internal reset is released once power is good, MOD_RESET_N is high and a reference has been valid for 1 ms, and collation begins. -/
  | internalResetRelease (resetPinHigh : Bool)
  /-- RAIL_FAULT (R74): A shared plane not in tolerance 2 ms after its step stops the sequence, switches all planes off and latches RAIL_FAULT and RAIL_GROUP. -/
  | railFault (group : Fin 4)
  /-- RAIL_RESTART (R74): One second after a rail fault the power-on sequence restarts once, and the module stays off if it fails again. -/
  | railRestart
  /-- POWER_FAIL (R75): Bulk below 42 V or the loss of two or more entries latches POWER_FAIL and starts the orderly shutdown. -/
  | powerFail (bulk : BitVec 16) (lost : Fin 5)
  /-- POWER_FAIL_RESTART (R76): After a power-fail shutdown the module restarts power-on once all entries have been at or above 43 V for 100 ms. -/
  | powerFailRestart (vin : Inputs4) (heldUs : Nat)
  /-- OVERVOLT (R76): An entry above 59 V for 10 µs latches OVERVOLT and OV_LATCH and shuts the module down until every entry falls below 20 V. -/
  | overvolt (entry : Fin 4) (volts : BitVec 16) (heldUs : Nat)
  /-- ENTRY_LOST (R77): An entry below 40 V or with reversed current is disconnected, clears ENTRY_OK, and CAP_KW is capped at 15. -/
  | entryLost (entry : Fin 4) (volts : BitVec 16) (reversed : Bool)
  /-- ENTRY_REJOIN (R77): A lost entry that has stayed within 44–58 V for 1 s rejoins, and the cap it imposed is lifted. -/
  | entryRejoin (entry : Fin 4) (volts : BitVec 16) (heldUs : Nat)
  /-- INPUT_LOW (R71): An entry below 44 V for 100 µs latches INPUT_LOW. -/
  | inputLow (entry : Fin 4) (volts : BitVec 16) (heldUs : Nat)
  /-- REF_SWITCH (R80): The selected reference becoming invalid while the other is valid switches the selection within 1 µs and latches REF_SWITCH and REF_DEGRADED. -/
  | refSwitch
  /-- REF_VALID (R79): A reference within 100 MHz ± 100 ppm for 1 ms becomes valid. -/
  | refValid (refB : Bool) (offPpm : Nat) (heldUs : Nat)
  /-- REF_RETURN (R81): Under AUTO_A or AUTO_B, the named reference is reselected after it has been valid for 1 s. -/
  | refReturn
  /-- REF_LOST (R82): With neither reference valid for 10 µs the supervisor asserts internal reset and latches REF_LOST. -/
  | refLost (heldUs : Nat)
  /-- COOLANT_SAMPLE (R84): Every 10 ms the supervisor samples inlet, outlet, flow and the leak sensor. -/
  | coolantSample (inlet : BitVec 16) (outlet : BitVec 16) (flow : BitVec 16) (leak : Bool)
  /-- CAP_RAISE (R84): After a cap condition has been clear with margin for 10 s, CAP_KW is raised. -/
  | capRaise
  /-- TRIP (R85): A trip condition records MOD_TRIP_CAUSE, drives MOD_THERMTRIP_N low and runs the orderly shutdown. -/
  | trip (conditions : BitVec 7) (die : BitVec 8)
  /-- TRIP_CLEAR (R86): MOD_RESET_N held low for 10 ms with all trip conditions clear for 10 s clears the trip and restarts power-on. -/
  | tripClear (lowUs : Nat) (clearUs : Nat)
  /-- RESET_PIN (R92): MOD_RESET_N low for 1 µs asserts internal reset within 2 µs and latches RESET_PIN. -/
  | resetPin (lowNs : Nat)
  /-- INTERNAL_RESET (R78): Internal reset loses all on-wafer state and ends the period of R11 for every open command. -/
  | internalReset
  /-- RIB_NOP (R97): A NOP request returns RIB_WAFER_STAT and changes nothing. -/
  | ribNop (port : RibPort) (tag : BitVec 4)
  /-- RIB_READ (R106): A READ request returns the register value after every write of its slot. -/
  | ribRead (port : RibPort) (tag : BitVec 4) (addr : BitVec 8)
  /-- RIB_WRITE (R106): A WRITE request to a register without its own row applies in its slot after lease, address and collision checks. -/
  | ribWrite (port : RibPort) (tag : BitVec 4) (addr : BitVec 8) (data : BitVec 32) (peer : Option PeerWrite)
  /-- RIB_ECHO (R97): An ECHO request returns its own DATA unchanged. -/
  | ribEcho (port : RibPort) (tag : BitVec 4) (addr : BitVec 8) (data : BitVec 32)
  /-- RIB_FRAME_ABORT (R102): RIB_SEL_N rising before rising edge 56 discards the request and increments ABORTS. -/
  | ribFrameAbort (port : RibPort) (edges : Nat)
  /-- RIB_SEL_TIMEOUT (R102): RIB_SEL_N held low beyond 10 ms makes the port abandon the frame and increment ABORTS. -/
  | ribSelTimeout (port : RibPort) (lowUs : Nat)
  /-- LO_READ_LATCH (R111): A read of a LO half of a wafer-status pair latches the matching HI half. -/
  | loReadLatch (port : RibPort) (tag : BitVec 4) (pair : Fin 4)
  /-- PEER_ALIVE (R116): PEER_ALIVE changes when the other port has or has not completed a frame within 1 s, setting the PEER alert. -/
  | peerAlive (port : RibPort)
  /-- ACQUIRE (R118): RIB_LEASE ACQUIRE grants the lease to the writing port with its key, or acts as RENEW for the holder. -/
  | acquire (port : RibPort) (tag : BitVec 4) (key : BitVec 16) (peer : Option PeerWrite)
  /-- RENEW (R118): RIB_LEASE RENEW with the holder's key restarts the 2 s lease expiry. -/
  | renew (port : RibPort) (tag : BitVec 4) (key : BitVec 16)
  /-- RELEASE (R118): RIB_LEASE RELEASE with the holder's key ends the lease. -/
  | release (port : RibPort) (tag : BitVec 4) (key : BitVec 16)
  /-- EXPIRED (R119): A lease not renewed for 2 s expires at the start of a slot and sets EXPIRED on both ports. -/
  | expired
  /-- RIB_PORT_ERR_CLEAR (R110): Writing CLEAR to RIB_PORT_ERR sets the port's error counters to 0. -/
  | ribPortErrClear (port : RibPort) (tag : BitVec 4)
  /-- RIB_RESET_WAFER (R112): RIB_RESET WAFER with the confirm value asserts internal reset with power held 10 µs after the slot. -/
  | ribResetWafer (port : RibPort) (tag : BitVec 4) (confirm : BitVec 16)
  /-- RIB_RESET_UNHAL (R112): RIB_RESET UNHAL restarts Unhal from RIB_BOOT_SLOT. -/
  | ribResetUnhal (port : RibPort) (tag : BitVec 4) (confirm : BitVec 16)
  /-- RIB_RESET_SITE (R160): RIB_RESET SITE resets one logical site, which rejoins by collation. -/
  | ribResetSite (port : RibPort) (tag : BitVec 4) (confirm : BitVec 16) (site : Fin 128) (rejoin : Option SewIn)
  /-- FENCE_REQ (R159): RIB_FENCE_REQ fences a site, edge die or link, at the next collation or as a run-time fence. -/
  | fenceReq (port : RibPort) (tag : BitVec 4) (kind : BitVec 2) (rowEdge : BitVec 4) (col : BitVec 4) (dir : BitVec 2)
  /-- UNFENCE (R159): RIB_FENCE_REQ with UNFENCE removes a ribbon fence entry, with the die or link returning at the next full collation. -/
  | unfence (port : RibPort) (tag : BitVec 4) (kind : BitVec 2) (rowEdge : BitVec 4) (col : BitVec 4) (dir : BitVec 2)
  /-- VOL_CREATE (R288): RIB_VOL_CMD CREATE checks the request, takes and zeroes the volume's resources, binds channels and VF, and sets LIVE. -/
  | volCreate (port : RibPort) (tag : BitVec 4) (vol : BitVec 6) (profile : BitVec 8) (vf : BitVec 6) (vfValid : Bool)
  /-- VOL_RESET (R304): RIB_VOL_CMD RESET runs the reset sequence: cut, engine purge, record purge, WITHDRAWN records, poison, channel rebind and ring emptying. -/
  | volReset (port : RibPort) (tag : BitVec 4) (vol : BitVec 6)
  /-- VOL_DESTROY (R290): RIB_VOL_CMD DESTROY resets the volume, returns every resource and clears its LIVE bit. -/
  | volDestroy (port : RibPort) (tag : BitVec 4) (vol : BitVec 6)
  /-- BIND (R114): RIB_FOL_CMD BIND writes the staged configuration to the selected counter and loads position 0. -/
  | bind (port : RibPort) (tag : BitVec 4)
  /-- CONFIG (R114): RIB_FOL_CMD CONFIG writes the staged configuration to the selected counter without a load. -/
  | config (port : RibPort) (tag : BitVec 4)
  /-- FOL_FETCH (R112): RIB_FOL_CMD FETCH copies the selected counter's values into the staging registers. -/
  | folFetch (port : RibPort) (tag : BitVec 4)
  /-- WIN_ADDR_COMMIT (R123): A write of RIB_WINn_ADDR_HI commits the window address and starts a prefetch read when PREFETCH is set. -/
  | winAddrCommit (port : RibPort) (tag : BitVec 4) (win : Fin 2) (hi : BitVec 32)
  /-- WIN_WRITE (R125): A write of RIB_WINn_DATA_HI sends one 64-bit write at the window address and advances it when AUTO_INC is set. -/
  | winWrite (port : RibPort) (tag : BitVec 4) (win : Fin 2) (hi : BitVec 32)
  /-- WIN_DATA_HI_READ (R125): A read of RIB_WINn_DATA_HI returns the buffer's upper half and, with AUTO_INC, advances the address and prefetches. -/
  | winDataHiRead (port : RibPort) (tag : BitVec 4) (win : Fin 2)
  /-- WIN_READ (R123): Writing READ to RIB_WINn_CTRL starts a read at the current window address. -/
  | winRead (port : RibPort) (tag : BitVec 4) (win : Fin 2) (autoInc : Bool) (prefetch : Bool)
  /-- WIN_ABORT (R127): Writing ABORT to RIB_WINn_CTRL clears PENDING at once. -/
  | winAbort (port : RibPort) (tag : BitVec 4) (win : Fin 2) (autoInc : Bool) (prefetch : Bool) (lands : Bool)
  /-- WIN_ACCESS_DONE (R127): A window access completes, filling the buffer or recording FAULT and FAULT_KIND. -/
  | winAccessDone (win : Fin 2)
  /-- WIN_TIMEOUT (R127): A window access not complete after 50 µs sets TIMEOUT and is treated as faulted. -/
  | winTimeout (win : Fin 2) (landed : Bool)
  /-- COLLATION (R130): After each internal-reset release the wafer runs self-test, root choice, sewing, discovery, numbering and boot at fixed times. -/
  | collation (inp : CollIn)
  /-- ROOT_CLAIM (R139): A root candidate's claim arrives over the ribbon crosslink and is acknowledged. -/
  | rootClaim (to8 : Bool) (qualifies : Bool) (acked : Bool)
  /-- CROSSLINK_DOWN (R139): A DOWN message over the crosslink makes its receiver judge the crosslink down. -/
  | crosslinkDown (to8 : Bool)
  /-- DISCOVER (R141): A die's first DISCOVER sets its parent, loads its FOL_REFCOUNT, is forwarded and answered with IDENT. -/
  | discover (node : Fin 160) (dir : Fin 5) (stamp : Nat)
  /-- IDENT (R141): An IDENT message carries a die's kind, position, self-test results and link states to the root. -/
  | ident (node : Fin 160) (report : DieReport)
  /-- UNHAL_READY (R164): Unhal creates volume 0, starts beacons and declares READY, READY_DEGRADED or HALTED. -/
  | unhalReady
  /-- UNHAL_START_TIMEOUT (R154): Unhal not ready within 500 ms of starting resets the service cores once and tries the other slot, or halts. -/
  | unhalStartTimeout
  /-- MEAS_APPEND (R156): An append to the measurement log extends COL_MEAS_ACC, or is refused beyond 64 entries. -/
  | measAppend (src : Src) (digest : BitVec 384)
  /-- ROUTE_SWITCH (R148): At the named switch instant every router changes routing-table bank at a flit boundary. -/
  | routeSwitch
  /-- REJOIN_FAIL (R160): A rejoin not ended within 8 ms of the reset fences the site with REJOIN_FAIL. -/
  | rejoinFail (site : Fin 128)
  /-- FLIT_RECEIVE (R182): A sequenced flit passing its CRC is accepted, discarded as a gap with NAK, or discarded as a duplicate. -/
  | flitReceive (port : LinkEnd) (flit : BitVec 544)
  /-- LINK_FLIT_RECEIVE (R184): A LINK flit's ACK frees held flits, its credits are added and its NAK or RETRAIN_REQ is acted on. -/
  | linkFlitReceive (port : LinkEnd) (flit : BitVec 544)
  /-- LINK_FLIT_SEND (R183): A receiver sends a LINK flit at least once every 64 beats while it has accepted or freed something. -/
  | linkFlitSend (port : LinkEnd)
  /-- ROUTER_FORWARD (R179): A router forwards a message by its stamped bank, or discards it and answers requests with a fenced-target response. -/
  | routerForward (port : LinkEnd) (cls : TClass) (esc : Bool)
  /-- ESCAPE_MOVE (R176): A head message waiting 256 site cycles without credits moves to its class's escape channel. -/
  | escapeMove (port : LinkEnd) (cls : TClass) (waited : Nat)
  /-- ACK_TIMEOUT (R186): The oldest held flit unacknowledged for ACK_TIMEOUT is replayed. -/
  | ackTimeout (link : AnyLink)
  /-- NO_PROGRESS (R186): ACK not advancing for NOPROGRESS while flits are held forces a retrain. -/
  | noProgress (link : AnyLink)
  /-- FIFO_SLIP (R167): An elastic-buffer separation outside 2–6 records FIFO_SLIP and retrains the link. -/
  | fifoSlip (port : LinkEnd) (separation : Nat)
  /-- RETRAIN (R187): A retrain re-centres the elastic buffers and replays from the far ACK, keeping taps, guards, held flits and credits. -/
  | retrain (link : AnyLink) (lanes : BitVec 16)
  /-- RETRAIN_FAIL (R186): A retrain not complete within RETRAIN_LIMIT retires the link under the frayed-link procedure. -/
  | retrainFail (link : AnyLink)
  /-- FRAY_WINDOW (R189): At each 1 ms window end each port copies its counts into LNK_WIN and tests the fray ratio. -/
  | frayWindow (link : AnyLink)
  /-- LINK_RETIRE (R190): After the switch and drain, the link is powered down, retired and listed, and a site left without links is fenced. -/
  | linkRetire (port : LinkEnd)
  /-- LNK_CLEAR (R188): Writing CLEAR to LNK_CTL sets every counter of the port to 0. -/
  | lnkClear (src : Src) (port : LinkEnd)
  /-- LNK_RETRAIN (R188): Writing RETRAIN to LNK_CTL starts a retrain of the link. -/
  | lnkRetrain (src : Src) (port : LinkEnd)
  /-- SPINE_TRAINING (R195): Spine link training ends with peer identities exchanged, lanes qualified and the width set, and Unhal admits wafers to the shelf. -/
  | spineTraining (link : Fin 32) (signal : Bool) (lanes : BitVec 16) (peer : SpinePeer)
  /-- SPINE_RETRY (R195): Unhal retries training of a DOWN spine link once every second. -/
  | spineRetry (link : Fin 32)
  /-- SPINE_PACKET_RECEIVE (R201): A spine packet is checked, accepted or NAKed, its ACK and credits applied and its messages injected. -/
  | spinePacketReceive (link : Fin 32) (bytes : List Byte) (corrected : Nat) (uncorrectable : Bool)
  /-- SPINE_PACKET_SEND (R199): A DATA packet is sent when it fills to 16 blocks or after 50 ns waiting for more messages. -/
  | spinePacketSend (link : Fin 32) (cls : TClass) (waitedNs : Nat)
  /-- LANE_LOST (R203): A spine receive lane losing lock starts a retrain. -/
  | laneLost (link : Fin 32) (lane : Fin 16)
  /-- SPINE_CLEAR (R202): LNK_SP_CTL CLEAR sets the spine link counters to 0. -/
  | spineClear (src : Src) (link : Fin 32)
  /-- SPINE_RETRAIN (R202): LNK_SP_CTL retrain starts a retrain of the spine link. -/
  | spineRetrain (src : Src) (link : Fin 32)
  /-- MEM_READ (R216): A READ request is decoded, checked and performed at its target, which returns READ_RSP. -/
  | memRead (rq : MemReq)
  /-- MEM_WRITE (R219): A WRITE request, including a broadcast, is performed at its target after invalidating copies, which returns WRITE_RSP. -/
  | memWrite (rq : MemReq) (data : List Byte)
  /-- MEM_ATOMIC (R215): An ATOMIC request is performed at its target in arrival order and returns the old value. -/
  | memAtomic (rq : MemReq) (op : Fin 10) (a : BitVec 64) (b : BitVec 64)
  /-- READ_RSP (R217): A read response delivers data or a fault status to the requester. -/
  | readRsp (who : Requester) (tag : BitVec 12)
  /-- WRITE_RSP (R217): A write response completes a write at the requester with its status. -/
  | writeRsp (who : Requester) (tag : BitVec 12)
  /-- ATOMIC_RSP (R217): An atomic response returns the old value or a fault status. -/
  | atomicRsp (who : Requester) (tag : BitVec 12)
  /-- GET_S (R226): The home serves a read-copy request, downgrading an exclusive owner and granting DATA_S. -/
  | getS (cache : Fin 128) (home : Fin 128) (line : BitVec 21)
  /-- GET_E (R226): The home serves an exclusive request, invalidating or recalling other copies and granting DATA_E. -/
  | getE (cache : Fin 128) (home : Fin 128) (line : BitVec 21)
  /-- PUT_S (R226): The home removes an evicted shared copy from its directory entry. -/
  | putS (cache : Fin 128) (home : Fin 128) (line : BitVec 21)
  /-- PUT_E (R226): The home records an evicted exclusive copy, writes dirty data and answers PUT_ACK. -/
  | putE (cache : Fin 128) (home : Fin 128) (line : BitVec 21)
  /-- FWD_ACK (R225): A cache's answer to INV, DOWNGRADE or RECALL reaches the home with any dirty data. -/
  | fwdAck (cache : Fin 128) (home : Fin 128) (line : BitVec 21)
  /-- COMPLETE (R225): The requester's COMPLETE lets the home close the line's transaction. -/
  | complete (cache : Fin 128) (home : Fin 128) (line : BitVec 21)
  /-- DATA_S (R224): A shared grant installs the line in S at the requesting cache, which answers COMPLETE. -/
  | dataS (cache : Fin 128) (home : Fin 128) (line : BitVec 21)
  /-- DATA_E (R224): An exclusive grant installs the line in E at the requesting cache, which answers COMPLETE. -/
  | dataE (cache : Fin 128) (home : Fin 128) (line : BitVec 21)
  /-- INV (R227): A cache drops its copy and answers FWD_ACK at once. -/
  | inv (cache : Fin 128) (home : Fin 128) (line : BitVec 21)
  /-- DOWNGRADE (R227): A cache moves its line from E to S and answers FWD_ACK with any dirty data. -/
  | downgrade (cache : Fin 128) (home : Fin 128) (line : BitVec 21)
  /-- RECALL (R227): A cache drops its copy and answers FWD_ACK with any dirty data. -/
  | recall (cache : Fin 128) (home : Fin 128) (line : BitVec 21)
  /-- PUT_ACK (R227): An eviction acknowledgement releases the line's writeback buffer at the cache. -/
  | putAck (cache : Fin 128) (home : Fin 128) (line : BitVec 21)
  /-- FLUSH (R230): MEM_CTL FLUSH stops allocation and sends PUT_E or PUT_S for every cached line. -/
  | flush (src : Src) (site : Fin 128)
  /-- FLUSH_DONE (R230): A flush ends when every PUT_ACK has arrived, clearing FLUSH_BUSY. -/
  | flushDone (site : Fin 128)
  /-- RLC_DISABLE (R229): Writing RLC_EN 0 starts a flush and makes cacheable accesses uncached. -/
  | rlcDisable (src : Src) (site : Fin 128)
  /-- MEM_CLEAR (R229): MEM_CTL CLEAR sets the memory counters to 0. -/
  | memClear (src : Src) (site : Fin 128)
  /-- PRODUCER_DOORBELL (R255): A producer doorbell moves a WORK ring's PI, or is ignored as stale or rejected. -/
  | producerDoorbell (path : DbPath) (site : Fin 128) (ring : Fin 2048) (index : BitVec 32)
  /-- CONSUMER_DOORBELL (R255): A consumer doorbell moves a COMPLETION or DATA ring's CI and applies ARM, or is ignored. -/
  | consumerDoorbell (path : DbPath) (site : Fin 128) (ring : Fin 2048) (index : BitVec 32) (arm : Bool)
  /-- RING_CTRL_WRITE (R243): A write of QUE_RING_CTRL enables or disables a ring, enabling setting ARMED and disabling stopping fetch and doorbells. -/
  | ringCtrlWrite (src : Src) (site : Fin 128) (ring : Fin 2048) (value : BitVec 64)
  /-- FETCH_BURST (R259): The queue manager starts a burst read of descriptors from an eligible WORK ring. -/
  | fetchBurst (site : Fin 128)
  /-- FETCH_BURST_RETURN (R260): When a burst returns, completion slots are reserved, CI advances and the descriptors are accepted and passed to admission. -/
  | fetchBurstReturn (site : Fin 128) (ring : Fin 2048)
  /-- RESTORE (R303): When the preempting command releases the engine, the saved command regains leave, reloads its image and continues. -/
  | restore (site : Fin 128) (engine : Fin 8)
  /-- COMMAND_START (R294): A command starts once every resource it needs is available, binding its home engine and taking its slots and claims. -/
  | commandStart (site : Fin 128) (rec : Fin 1024)
  /-- RING_STALL (R261): A ring unable to move for STALL_MS is declared stalled. -/
  | ringStall (site : Fin 128) (ring : Fin 2048)
  /-- SYNC_ADD (R265): An add to a sync object updates the value, saturates with OVERFLOW, or fails on poison, and re-evaluates waits. -/
  | syncAdd (who : Requester) (tag : BitVec 12) (src : Src) (site : Fin 128) (obj : Fin 2048) (addend : BitVec 64)
  /-- SYNC_WAIT (R266): A wait on a sync object is registered and evaluated, waking when satisfied or poisoned. -/
  | syncWait (who : Requester) (tag : BitVec 12) (src : Src) (site : Fin 128) (obj : Fin 2048) (threshold : BitVec 64) (waitUs : BitVec 32)
  /-- SYNC_WAIT_TIMEOUT (R266): A wait not satisfied within WAIT_US wakes with TIMEOUT. -/
  | syncWaitTimeout (who : Requester) (tag : BitVec 12)
  /-- SYNC_VALUE_WRITE (R265): An 8-byte write sets a sync object's value, or is refused for poison. -/
  | syncValueWrite (src : Src) (site : Fin 128) (obj : Fin 2048) (value : BitVec 64)
  /-- QPUSH_OPERATION (R263): A QPUSH writes an entry and advances PI in one step, or returns FULL or WRONG_KIND. -/
  | qpushOperation (who : Requester) (tag : BitVec 12) (src : Src) (site : Fin 128) (ring : Fin 2048) (entry : List Byte)
  /-- QPOP_OPERATION (R263): A QPOP reads an entry and advances CI in one step, or returns EMPTY or WRONG_KIND. -/
  | qpopOperation (who : Requester) (tag : BitVec 12) (src : Src) (site : Fin 128) (ring : Fin 2048) (sizeLog2 : Nat)
  /-- QUEUE_RSP (R262): A queue response delivers the result of a queue operation to its requester. -/
  | queueRsp (who : Requester) (tag : BitVec 12)
  /-- SYNC_WAKE (R266): A wake message ends a SYNC_WAIT at its requester with its result, or is discarded after an abort. -/
  | syncWake (who : Requester) (tag : BitVec 12)
  /-- COMPLETION_RECORD (R250): A completion record is written to its ring, last word last, with the shadow, notify and MSI-X following. -/
  | completionRecord (site : Fin 128) (ring : Fin 2048)
  /-- POST (R272): A short-form WORD write posts one word in an EMPTY mailbox direction and notifies the receiver. -/
  | post (actor : MbxActor) (edge : Fin 16) (ch : Fin 64) (reply : Bool) (word : BitVec 32)
  /-- GO (R272): A long-form GO write posts the message with WORDS and COMMAND and notifies the receiver. -/
  | go (actor : MbxActor) (edge : Fin 16) (ch : Fin 64) (reply : Bool) (words : BitVec 5) (command : BitVec 16)
  /-- TAKE (R271): The receiver takes a posted message, emptying the direction or moving it to TAKEN. -/
  | take (actor : MbxActor) (edge : Fin 16) (ch : Fin 64) (reply : Bool)
  /-- ACK (R274): Under RETURN the receiver acknowledges with a return code, emptying the direction. -/
  | ack (actor : MbxActor) (edge : Fin 16) (ch : Fin 64) (reply : Bool) (code : BitVec 16)
  /-- WITHDRAW (R275): The sender withdraws a posted message that has not been taken. -/
  | withdraw (actor : MbxActor) (edge : Fin 16) (ch : Fin 64) (reply : Bool)
  /-- STAGE_LIST_READ (R314): The home fetch engine reads and validates a FUSED command's header and stage words. -/
  | stageListRead (site : Fin 128) (rec : Fin 1024)
  /-- UNIT_START (R318): A unit starts when its input slot is full and its stage holds an output credit. -/
  | unitStart (site : Fin 128) (rec : Fin 1024) (stage : Fin 8)
  /-- UNIT_END (R318): A unit ends, filling its output slot and freeing its input slot. -/
  | unitEnd (site : Fin 128) (rec : Fin 1024) (stage : Fin 8)
  /-- STAGE_WATCHDOG (R325): A unit running STAGE_WD_US faults its command. -/
  | stageWatchdog (site : Fin 128) (rec : Fin 1024) (stage : Fin 8)
  /-- COMMAND_TIMEOUT (R325): A command open CMD_TIMEOUT_MS after its start is aborted with COMMAND_TIMEOUT. -/
  | commandTimeout (site : Fin 128) (rec : Fin 1024)
  /-- ABORT_COMPLETE (R500): An abort completes when every unit has stopped and the record reaches ABORTED. -/
  | abortComplete (site : Fin 128) (rec : Fin 1024)
  /-- ABORT_SLOW (R500): An abort not complete within ABORT_US resets the site. -/
  | abortSlow (site : Fin 128) (rec : Fin 1024) (rejoin : Option SewIn)
  /-- GATHER_OPERAND (R330): A gather operand arrives at a combine node, is combined in fixed order, and passes up or delivers to the root. -/
  | gatherOperand (vol : Fin 64) (gid : BitVec 16) (shelf : Bool) (node : Nat) (level : Nat)
  /-- TURN_REQUEST (R333): A member whose bound command needs another page asks m_0 for a turn. -/
  | turnRequest (site : Fin 128) (slot : Fin 16)
  /-- TURN_CALL (R333): m_0 calls a turn and delivers it to every member, which starts no new pass. -/
  | turnCall (site : Fin 128) (slot : Fin 16)
  /-- PAGE_SEND (R333): After its begun passes end, a member sends its current half to its receiver and signals arrival. -/
  | pageSend (site : Fin 128) (slot : Fin 16)
  /-- HALF_SWAP (R333): A member whose send is done and arrival signalled swaps halves and advances PAGE and TURNS. -/
  | halfSwap (site : Fin 128) (slot : Fin 16)
  /-- PARTIAL_COMBINE (R332): After the last pass the partials are combined in ascending page order and delivered to the first POST stage. -/
  | partialCombine (site : Fin 128) (rec : Fin 1024)
  /-- HALT (R367): MAT_DBG_CTL HALT stops the engine at a step boundary without a save. -/
  | halt (src : Src) (site : Fin 128) (engine : Fin 8)
  /-- RESUME (R367): MAT_DBG_CTL RESUME continues a halted engine from its boundary. -/
  | resume (src : Src) (site : Fin 128) (engine : Fin 8)
  /-- ACC_PARITY (R369): An accumulator parity error aborts the command for replay. -/
  | accParity (site : Fin 128) (engine : Fin 8)
  /-- ASC_ROW_WRITE (R398): A write of whole rows or of a row's metadata is performed in one bank slot, ORing thumb bits, or refused. -/
  | ascRowWrite (src : Src) (site : Fin 128) (bank : Fin 64) (offset : Nat) (data : List Byte)
  /-- PAIR_COMMIT (R411): Writing COMMIT requests a paired commit of the staged rows. -/
  | pairCommit (src : Src) (site : Fin 128) (bank : Fin 64)
  /-- PAIR_APPLY (R411): In one bank slot the staged rows are written to their targets, or the commit is refused. -/
  | pairApply (site : Fin 128) (bank : Fin 64)
  /-- MOVE_START (R413): Writing START to ASC_MOVE begins a block move, or ends it at once with an error result. -/
  | moveStart (src : Src) (site : Fin 128) (bank : Fin 64) (first : BitVec 12) (last : BitVec 12) (dir : Bool) (width : BitVec 2)
  /-- MOVE_STEP (R412): One move step shifts one entry into the hole in one slot. -/
  | moveStep (site : Fin 128) (bank : Fin 64)
  /-- SCRUB_STEP (R416): A scrub step checks one row and periodically recomputes one thumb vector. -/
  | scrubStep (site : Fin 128) (bank : Fin 64) (finds : RowCheck)
  /-- POISON_REWRITE (R416): Unhal rewrites a poisoned rotation or ensemble bank row from the image within 100 µs. -/
  | poisonRewrite (site : Fin 128) (bank : Fin 64)
  /-- CORE_UNIT_START (R433): A core loads code, receives input, zeroes data and output, and enters U-mode with the unit start state. -/
  | coreUnitStart (site : Fin 128) (core : Fin 96) (rec : Fin 1024) (stage : Fin 8)
  /-- ECALL (R435): ECALL ends the unit normally with a0 = 0, or fails the command with CORE_ABORT. -/
  | ecall (site : Fin 128) (core : Fin 96)
  /-- CORE_TRAP (R429): A trap in a unit ends it and faults its command with CORE_TRAP. -/
  | coreTrap (site : Fin 128) (core : Fin 96) (cause : BitVec 8) (tval : BitVec 64)
  /-- AMO (R424): An AMO instruction is performed at its target with ACQUIRE and RELEASE from its aq and rl bits. -/
  | amo (site : Fin 128) (core : Fin 96)
  /-- LR (R424): LR takes a reservation on an 8-byte word of own local or cluster memory. -/
  | lr (site : Fin 128) (core : Fin 96)
  /-- SC (R424): SC stores only if no other requester has written the reserved word. -/
  | sc (site : Fin 128) (core : Fin 96)
  /-- BIN (R440): BIN maps a value to a key and returns the count of table edges at or below it. -/
  | bin (site : Fin 128) (core : Fin 96)
  /-- NSTEP (R441): NSTEP evaluates one tree node and returns the chosen child. -/
  | nstep (site : Fin 128) (core : Fin 96)
  /-- FOLRD_ENTRY (R446): FOLRD ENTRY returns the site image entry of a counter. -/
  | folrdEntry (site : Fin 128) (core : Fin 96)
  /-- FOLRD_HELD (R446): FOLRD HELD returns the site's copy of a counter's held rate. -/
  | folrdHeld (site : Fin 128) (core : Fin 96)
  /-- FOLRD_REFCOUNT (R446): FOLRD REFCOUNT returns the site's FOL_REFCOUNT. -/
  | folrdRefcount (site : Fin 128) (core : Fin 96)
  /-- QPUSH (R442): The QPUSH instruction sends a QPUSH to the referenced ring and stalls for its result. -/
  | qpush (site : Fin 128) (core : Fin 96)
  /-- QPOP (R442): The QPOP instruction sends a QPOP to the referenced ring and stalls for its result. -/
  | qpop (site : Fin 128) (core : Fin 96)
  /-- SYNCADD (R443): The SYNCADD instruction sends a release add to a sync object and returns the new value. -/
  | syncadd (site : Fin 128) (core : Fin 96)
  /-- SYNCWAIT (R439): The SYNCWAIT instruction sends an acquire wait with the effective WAIT_US and stalls until woken. -/
  | syncwait (site : Fin 128) (core : Fin 96)
  /-- LEAVEREQ_QUERY (R445): LEAVEREQ QUERY returns grantable and held leave and the rate and clock steps. -/
  | leavereqQuery (site : Fin 128) (core : Fin 96)
  /-- LEAVEREQ_REQUEST (R445): LEAVEREQ REQUEST in M-mode asks the steward for leave. -/
  | leavereqRequest (site : Fin 128) (core : Fin 96)
  /-- LEAVEREQ_RENEW (R445): LEAVEREQ RENEW in M-mode renews a grant by handle. -/
  | leavereqRenew (site : Fin 128) (core : Fin 96)
  /-- LEAVEREQ_RETURN (R445): LEAVEREQ RETURN in M-mode returns a grant by handle. -/
  | leavereqReturn (site : Fin 128) (core : Fin 96)
  /-- LEAVE_REQUEST (R483): The wafer steward decides a leave request, granting it, holding it for the ramp, or denying it with a reason and AVAIL_US. -/
  | leaveRequest (rq : LeaveReq)
  /-- LEAVE_RECALL (R486): A recalled grant enters its tail and its resource returns the leave when its running unit ends. -/
  | leaveRecall (site : Fin 128) (handle : BitVec 16)
  /-- LEAVE_REDECIDE (R483): In every steward cycle, waiting requests are decided again in their order. -/
  | leaveRedecide
  /-- LEAVE_RENEW (R485): The steward decides a renewal as a request for the grant's own LU and sets a new expiry. -/
  | leaveRenew (site : Fin 128) (handle : BitVec 16) (durationUs : Nat)
  /-- RENEW_DUE (R485): An engine sends a renewal when a quarter of its grant's duration remains. -/
  | renewDue (site : Fin 128) (handle : BitVec 16)
  /-- LEAVE_RETURN (R487): A return frees a grant's LU, or answers BAD_REQUEST for a dead handle. -/
  | leaveReturn (site : Fin 128) (handle : BitVec 16)
  /-- LEAVE_GRANT (R482): A grant with handle and expiry reaches the site steward and its waiting stage may start. -/
  | leaveGrant (site : Fin 128) (res : Nat)
  /-- LEAVE_DENIAL (R496): A denial with AVAIL_US reaches the site and feeds admission's predicted start. -/
  | leaveDenial (site : Fin 128) (res : Nat)
  /-- LEAVE_EXPIRY (R485): A grant not renewed ends at expiry and enters its tail. -/
  | leaveExpiry (site : Fin 128) (handle : BitVec 16)
  /-- ENVELOPE_CHANGE (R490): A change of E recomputes the pool, latches POOL_CHANGE and recalls grants while G exceeds P. -/
  | envelopeChange
  /-- EMERGENCY (R490): G still above P 100 µs after an envelope change forces every compute die to clock step 4. -/
  | emergency
  /-- PACING_WINDOW (R481): At each 10 µs window end resources paced below their full-rate figure receive a fresh allowance. -/
  | pacingWindow (site : Fin 128)
  /-- THERMAL_SAMPLE (R493): Every 10 µs the site steward reads its sensors, and a hotter sample raises the thermal step at once. -/
  | thermalSample (site : Fin 128) (base : List (BitVec 16)) (compute : List (BitVec 16))
  /-- STEP_DOWN (R493): The thermal step falls by one after 1 ms of samples at or below the band's lower bound less 2 °C. -/
  | stepDown (site : Fin 128)
  /-- SITE_TRIP (R494): A base-die sample at 105 °C stops the site, removes its leave and fences it with THERMAL_TRIP. -/
  | siteTrip (site : Fin 128)
  /-- TRANSFER_TIMEOUT (R499): A request without response for TRANSFER_US is retired and faults its command. -/
  | transferTimeout (who : Requester) (tag : BitVec 12)
  /-- HEARTBEAT_CHECK (R501): Every 100 µs Unhal checks site heartbeats and resets a site silent for SITE_MS. -/
  | heartbeatCheck (beats : List (Fin 128)) (rejoin : Option SewIn)
  /-- SITE_LOST (R518): The SITE_LOST broadcast ends every outstanding request to a reset site. -/
  | siteLost (site : Fin 128)
  /-- MIRROR_WRITE (R506): A record state change is written to the buddy's mirror and acknowledged. -/
  | mirrorWrite (site : Fin 128) (rec : Fin 1024)
  /-- REMIRROR_DONE (R506): The copy of every own record to a new buddy ends and command starts resume. -/
  | remirrorDone (site : Fin 128)
  /-- TWIN_SET (R515): Setting a twin range copies its contents to the twin store before VALID reads 1. -/
  | twinSet (src : Src) (site : Fin 128) (index : Fin 64) (value : BitVec 64)
  /-- VOLUME_HUNG (R521): A volume with pending work and no progress for VOL_HB_MS is reset. -/
  | volumeHung (vol : Fin 64)
  /-- SVC_KICK (R522): A write of FLT_W_KICK kicks the service watchdog. -/
  | svcKick (src : Src)
  /-- SVC_WATCHDOG (R522): A missed kick restarts Unhal from NEXT_SLOT, then the other slot, then resets the wafer. -/
  | svcWatchdog (slotOk : Bool)
  /-- COMPLETION_RETRY (R535): A completion record whose write failed with HOST_ERROR is written again every 1 ms. -/
  | completionRetry (site : Fin 128) (ring : Fin 2048)
  /-- PCIE_RESTART (R527): RESTART applies the PCIe port settings and retrains, ending its outstanding requests with HOST_ERROR. -/
  | pcieRestart (src : Src) (edge : Fin 16) (port : Fin 2) (value : BitVec 64)
  /-- VF_DOORBELL (R530): An 8-byte write to a VF doorbell is checked for volume and delivered to the ring, or dropped. -/
  | vfDoorbell (edge : Fin 16) (port : Fin 2) (vf : Fin 64) (data : List Byte)
  /-- VF_HBM_ACCESS (R531): A BAR2 access reaches the volume's HBM window, or is answered Unsupported Request. -/
  | vfHbmAccess (edge : Fin 16) (port : Fin 2) (vf : Fin 64) (offset : Nat) (op : HostOp)
  /-- HOST_COMPLETION (R532): Completions for a device read in region 0x4 end the read, with HOST_ERROR on errors, or are discarded if late. -/
  | hostCompletion (edge : Fin 16) (port : Fin 2) (who : Requester) (tag : BitVec 12) (error : Bool) (data : List Byte)
  /-- RP_INBOUND (R533): A downstream memory request in root-port role is performed through an inbound window, or answered Unsupported Request. -/
  | rpInbound (edge : Fin 16) (port : Fin 2) (busAddr : Nat) (op : HostOp)
  /-- MSIX_UNMASK (R534): Unmasking a vector with its pending bit set sends its message. -/
  | msixUnmask (vf : Fin 64) (vector : Fin 2048)
  /-- FLR (R535): A function-level reset of a bound VF starts the reset of its volume. -/
  | flr (vf : Fin 64)
  /-- PCIE_LINK_DOWN (R535): A PCIe link leaving L0 ends its outstanding requests with HOST_ERROR. -/
  | pcieLinkDown (edge : Fin 16) (port : Fin 2) (sub : Fin 4)
  /-- ETH_FRAME (R538): A received frame is checked, matched against parse rules and written to its DATA ring, held, dropped or passed to Unhal. -/
  | ethFrame (edge : Fin 16) (sub : Fin 4) (frame : List Byte) (fcsGood : Bool)
  /-- ETH_PAUSE_FRAME (R536): A received PAUSE frame is honoured for its port or sub-port. -/
  | ethPauseFrame (edge : Fin 16) (sub : Fin 4) (quanta : BitVec 16)
  /-- HELD_FRAME_WRITE (R541): A frame held under PAUSE is written when its ring has room, and a zero-quanta PAUSE is sent. -/
  | heldFrameWrite (edge : Fin 16) (sub : Fin 4)
  /-- PAUSE_REFRESH (R541): Each half pause time in the paused state, the port sends another PAUSE frame. -/
  | pauseRefresh (edge : Fin 16) (sub : Fin 4)
  /-- ETH_RESTART (R537): RESTART applies the Ethernet MODE and drops buffered frames. -/
  | ethRestart (src : Src) (edge : Fin 16) (value : BitVec 64)
  /-- HBM_REFRESH (R543): The controller issues per-bank refresh at the interval set by stack temperature. -/
  | hbmRefresh (edge : Fin 16)
  /-- HBM_TEMP_SAMPLE (R543): Every 1 ms the stack temperature is read and the refresh interval chosen. -/
  | hbmTempSample (edge : Fin 16) (temp : BitVec 8)
  /-- PATROL_SCRUB (R544): The patrol scrub reads stack words, rewrites corrected ones and records failing rows. -/
  | patrolScrub (edge : Fin 16) (word : Nat) (finds : RowCheck)
  /-- UNHAL_FOL_BIND (R24): Unhal binds a counter to a source, writing FOL_CNT_CFG and FOL_CNT_NOMRATE and loading position 0. -/
  | unhalFolBind (via : Via) (ctr : BitVec 64) (source : BitVec 64) (input : BitVec 64) (windowLog2 : Option (BitVec 64)) (stallUs : Option (BitVec 64)) (nominal : Option (BitVec 64))
  /-- UNHAL_FOL_ALARM_ARM (R41): Unhal arms a free alarm on the target's site for the calling volume. -/
  | unhalFolAlarmArm (via : Via) (ctr : BitVec 64) (position : BitVec 64) (action : BitVec 64) (target : BitVec 64) (value : BitVec 64) (direction : Option (BitVec 64)) (period : Option (BitVec 64)) (istep : Option (BitVec 64)) (pick : Nat)
  /-- UNHAL_FOL_ALARM_DISARM (R41): Unhal clears ENABLE of an alarm. -/
  | unhalFolAlarmDisarm (via : Via) (site : Fin 128) (alarm : Fin 256)
  /-- UNHAL_MOD_STATUS (R68): Unhal copies the supervisor registers into a buffer. -/
  | unhalModStatus (via : Via) (buffer : BitVec 64) (length : BitVec 64)
  /-- UNHAL_BOOT_UPDATE (R153): Unhal verifies a new Unhal image and writes it into a slot of both boot flashes. -/
  | unhalBootUpdate (via : Via) (slot : BitVec 64) (image : BitVec 64) (length : BitVec 64)
  /-- UNHAL_BOOT_COMMIT_VERSION (R155): Unhal raises the fused minimum security version, never lowering it. -/
  | unhalBootCommitVersion (via : Via) (version : BitVec 64)
  /-- UNHAL_MEM_ALLOC (R207): Unhal allocates SRAM or HBM inside the calling volume's windows. -/
  | unhalMemAlloc (via : Via) (kind : BitVec 64) (bytes : BitVec 64) (site : BitVec 64) (place : BitVec 64)
  /-- UNHAL_MEM_FREE (R207): Unhal returns allocated memory. -/
  | unhalMemFree (via : Via) (address : BitVec 64)
  /-- UNHAL_MEM_FLUSH (R230): Unhal empties a site's remote-line cache. -/
  | unhalMemFlush (via : Via) (site : BitVec 64)
  /-- UNHAL_MEM_COPY (R231): Unhal copies between wafers and adds a value to a sync object when done. -/
  | unhalMemCopy (via : Via) (dest : BitVec 64) (source : BitVec 64) (bytes : BitVec 64) (sync : BitVec 64) (value : BitVec 64)
  /-- UNHAL_RING_CREATE (R239): Unhal checks quota, zeroes ring memory, writes the context and enables the ring. -/
  | unhalRingCreate (via : Via) (kind : BitVec 64) (site : BitVec 64) (sizeLog2 : BitVec 64) (esizeLog2 : BitVec 64) (memory : BitVec 64) (completionRing : BitVec 64) (pick : Nat)
  /-- UNHAL_RING_DESTROY (R239): Unhal destroys an empty ring, or answers BUSY. -/
  | unhalRingDestroy (via : Via) (ring : BitVec 64)
  /-- UNHAL_SYNC_ALLOC (R264): Unhal allocates a sync object with an initial value. -/
  | unhalSyncAlloc (via : Via) (site : BitVec 64) (initial : BitVec 64) (pick : Nat)
  /-- UNHAL_SYNC_FREE (R264): Unhal frees a sync object. -/
  | unhalSyncFree (via : Via) (id : BitVec 64)
  /-- UNHAL_VOL_CREATE (R288): An authorised volume creates a volume through Unhal. -/
  | unhalVolCreate (via : Via) (vol : BitVec 64) (profile : BitVec 64) (vf : BitVec 64)
  /-- UNHAL_VOL_RESET (R304): An authorised volume resets a volume through Unhal. -/
  | unhalVolReset (via : Via) (vol : BitVec 64)
  /-- UNHAL_VOL_DESTROY (R290): An authorised volume destroys a volume through Unhal. -/
  | unhalVolDestroy (via : Via) (vol : BitVec 64)
  /-- UNHAL_VOL_HOSTWIN (R286): Unhal writes a host window of a volume. -/
  | unhalVolHostwin (via : Via) (vol : BitVec 64) (index : BitVec 64) (port : BitVec 64) (base : BitVec 64) (length : BitVec 64) (write : BitVec 64)
  /-- UNHAL_VOL_QUERY (R307): Unhal returns a volume's allotment and LOST count. -/
  | unhalVolQuery (via : Via) (vol : BitVec 64) (buffer : BitVec 64) (length : BitVec 64)
  /-- UNHAL_ROT_CREATE (R331): Unhal reserves a rotation slot, banks and page areas, loads the pages and starts the group. -/
  | unhalRotCreate (via : Via) (slot : BitVec 64) (firstSite : BitVec 64) (members : BitVec 64) (image : BitVec 64) (sramBytes : BitVec 64) (stride : BitVec 64) (banks : BitVec 64)
  /-- UNHAL_ROT_DESTROY (R331): Unhal removes a rotation group, or answers BUSY while a command is bound. -/
  | unhalRotDestroy (via : Via) (slot : BitVec 64)
  /-- UNHAL_MAT_DUMP (R366): Unhal halts an engine, copies its accumulator view into a buffer and resumes it. -/
  | unhalMatDump (via : Via) (site : BitVec 64) (engine : BitVec 64) (buffer : BitVec 64) (length : BitVec 64)
  /-- UNHAL_ASC_LOAD (R394): Unhal writes entries into a bank with holes at the given spacing. -/
  | unhalAscLoad (via : Via) (site : Fin 128) (bank : BitVec 64) (image : BitVec 64) (length : BitVec 64) (count : BitVec 64) (width : BitVec 64) (spacing : BitVec 64)
  /-- UNHAL_ASC_GROUP (R403): Unhal writes a fingerprint search block. -/
  | unhalAscGroup (via : Via) (buffer : BitVec 64) (length : BitVec 64) (firstBank : BitVec 64) (banks : BitVec 64) (ranks : List (BitVec 4))
  /-- UNHAL_ASC_INSERT (R412): Unhal places an entry ahead of another by a block move and a paired commit. -/
  | unhalAscInsert (via : Via) (site : Fin 128) (bank : BitVec 64) (beforeRow : BitVec 64) (entry : List Byte)
  /-- UNHAL_ASC_DELETE (R395): Unhal invalidates an entry and leaves a hole. -/
  | unhalAscDelete (via : Via) (site : Fin 128) (bank : BitVec 64) (row : BitVec 64)
  /-- UNHAL_ASC_REPLACE (R411): Unhal swaps an entry of the same width in one step. -/
  | unhalAscReplace (via : Via) (site : Fin 128) (bank : BitVec 64) (row : BitVec 64) (entry : List Byte)
  /-- UNHAL_CORE_QUERY (R448): Unhal copies a site's core registers into a buffer. -/
  | unhalCoreQuery (via : Via) (site : BitVec 64) (buffer : BitVec 64) (length : BitVec 64)
  /-- UNHAL_ENS_LOAD (R451): Unhal checks an ensemble image and loads it on the sites, as replicas or a rotation group. -/
  | unhalEnsLoad (via : Via) (slot : BitVec 64) (image : BitVec 64) (firstSite : BitVec 64) (sites : BitVec 64) (replicas : BitVec 64)
  /-- UNHAL_ENS_UNLOAD (R458): Unhal unloads an ensemble slot, or answers BUSY while a command depends on it. -/
  | unhalEnsUnload (via : Via) (slot : BitVec 64)
  /-- UNHAL_LVE_STATUS (R495): Unhal copies the leave stewards' registers into a buffer. -/
  | unhalLveStatus (via : Via) (site : BitVec 64) (buffer : BitVec 64) (length : BitVec 64)
  /-- UNHAL_FLT_TWIN (R515): Unhal sets a twin range of a site for the calling volume. -/
  | unhalFltTwin (via : Via) (site : BitVec 64) (index : BitVec 64) (offset : BitVec 64) (bytes : BitVec 64)
  /-- UNHAL_PRT_PCIE_ROLE (R527): Unhal switches a PCIe port's role and split and retrains it. -/
  | unhalPrtPcieRole (via : Via) (port : BitVec 64) (role : BitVec 64) (split : BitVec 64)
  /-- UNHAL_NVME_READ (R533): Unhal reads NVMe blocks into the volume's memory and signals a sync object. -/
  | unhalNvmeRead (via : Via) (port : BitVec 64) (nspace : BitVec 64) (lba : BitVec 64) (blocks : BitVec 64) (dest : BitVec 64) (sync : BitVec 64) (value : BitVec 64) (data : List Byte)
  /-- UNHAL_ETH_RULE (R539): Unhal writes an Ethernet parse rule for a DATA ring. -/
  | unhalEthRule (via : Via) (port : BitVec 64) (rule : BitVec 64) (word0 : BitVec 64) (ring : BitVec 64) (stampOffset : BitVec 64) (policy : BitVec 64)
  /-- UNHAL_ETH_FLOW (R536): Unhal creates a UDP send flow. -/
  | unhalEthFlow (via : Via) (port : BitVec 64) (subport : BitVec 64) (dstMac : BitVec 64) (dstIp : List Byte) (srcPort : BitVec 64) (dstPort : BitVec 64)
  /-- UNHAL_ETH_SEND (R536): Unhal sends one UDP datagram on a flow and signals a sync object. -/
  | unhalEthSend (via : Via) (flow : BitVec 64) (buffer : BitVec 64) (length : BitVec 64) (sync : BitVec 64) (value : BitVec 64)
  /-- REF_INVALID (R79): A reference that misses four consecutive edges becomes invalid, clearing its REFA_OK or REFB_OK and latching REF_DEGRADED. -/
  | refInvalid (refB : Bool) (missed : Nat)
  /-- REF_MODE_WRITE (R81): A write of MOD_CLK_CFG sets REF_MODE, which may change the selected reference, or is refused with a protection fault for value 3. -/
  | refModeWrite (src : Src) (via8 : Bool) (value : BitVec 64)
  /-- FORCE_STEP_WRITE (R493): A write of LVE_SITE_CFG with FORCE_EN sets a lowest thermal step in force, changing the compute-die clock and bank rate, or is refused above 4. -/
  | forceStepWrite (src : Src) (site : Fin 128) (value : BitVec 64)
  /-- RIB_BAD_FRAME (R99): A ribbon request frame that fails its CRC or carries a reserved opcode executes nothing, is answered CRC_ERR or BAD_OPCODE and counts in RIB_PORT_ERR. -/
  | ribBadFrame (port : RibPort) (frame : BitVec 56)
  /-- CORE_INSTRUCTION (R423): A core executes one RV64 instruction other than AMO, LR, SC, ECALL and the VNX instructions: integer, FP, load, store, FENCE or CSR access. -/
  | coreInstruction (site : Fin 128) (core : Fin 96)
  /-- PCIE_LINK_UP (R535): A PCIe link that trains into L0 sets LINK_UP or its UP bit, after which requests and retried completion records can pass again. -/
  | pcieLinkUp (edge : Fin 16) (port : Fin 2) (sub : Fin 4) (rate : Fin 6) (width : BitVec 5) (flit : Bool)
  /-- ETH_LINK_DOWN (R537): An Ethernet sub-port loses link and its UP bit clears. -/
  | ethLinkDown (edge : Fin 16) (sub : Fin 4)
  /-- ETH_LINK_UP (R537): An Ethernet sub-port gains link and its UP bit sets. -/
  | ethLinkUp (edge : Fin 16) (sub : Fin 4)
deriving DecidableEq, Repr

end Sys2Proof
end

