-- ==== Sys2Proof/Decode.lean ====
section
/-! DEFINITION. Words that spell a command: the spec's table gives no row any bits. -/

namespace Sys2Proof

/-- The command that a word of `nbits` bits spells by the table's bits: none, as no row of the table has bits. -/
def decodeTableWord (_nbits _w : Nat) : Option Instr := none

end Sys2Proof
end

