-- ==== Sys2Proof/Machine/NumFmt.lean ====
section
/-! DEFINITION. The sixteen number formats, rounding, sticky flags, ordinal keys, conversions, and the arithmetic that
engines and cores share (spec file 11: R370–R393). A floating-point value is taken apart into an exact dyadic number,
every operation is exact on those, and one rounding ends it. -/

namespace Sys2Proof.Machine

/-- Sticky flags of a completion (Table NUM-3): IV, OF, UF, NX, SAT, NAN_SEEN from bit 0. -/
abbrev Flags := BitVec 6

abbrev fNone : Flags := 0
abbrev fIV : Flags := 1
abbrev fOF : Flags := 2
abbrev fUF : Flags := 4
abbrev fNX : Flags := 8
abbrev fSAT : Flags := 16
abbrev fNaN : Flags := 32

/-- A result with the flags it raises. -/
abbrev Res := Nat × Flags

/-- Kinds of format codes (Table NUM-1). -/
def fmtInt (c : Nat) : Bool := c ≤ 7
def fmtSigned (c : Nat) : Bool := fmtInt c && c % 2 == 0
def fmtFloat (c : Nat) : Bool := 8 ≤ c && c ≤ 0x0D
def fmtKey (c : Nat) : Bool := c == 0x0E || c == 0x0F

/-- Width in bits. -/
def fmtWidth (c : Nat) : Nat :=
  match c with
  | 0 | 1 => 4
  | 2 | 3 | 8 | 9 => 8
  | 4 | 5 | 0x0A | 0x0B | 0x0E => 16
  | 6 | 7 | 0x0C | 0x0F => 32
  | _ => 64

/-- Exponent bits, fraction bits, bias (Table NUM-2). -/
def fmtExp (c : Nat) : Nat := match c with | 8 => 4 | 9 | 0x0A => 5 | 0x0B | 0x0C => 8 | _ => 11
def fmtFrac (c : Nat) : Nat := match c with | 8 => 3 | 9 => 2 | 0x0A => 10 | 0x0B => 7 | 0x0C => 23 | _ => 52
def fmtBias (c : Nat) : Nat := 2 ^ (fmtExp c - 1) - 1

/-- The canonical NaN (Table NUM-2). -/
def canonNaN (c : Nat) : Nat :=
  if c = 8 then 0x7F else (2 ^ fmtExp c - 1) * 2 ^ fmtFrac c + 2 ^ (fmtFrac c - 1)

/-- Positive infinity; FP8-E4M3 has none and gives 448. -/
def infBits (c : Nat) : Nat := if c = 8 then 0x7E else (2 ^ fmtExp c - 1) * 2 ^ fmtFrac c

/-- The largest finite encoding. -/
def maxFinite (c : Nat) : Nat := if c = 8 then 0x7E else infBits c - 1

/-- The sign bit of an encoding. -/
def withSign (c : Nat) (neg : Bool) (x : Nat) : Nat := if neg then x + 2 ^ (fmtWidth c - 1) else x

/-- An exact number: ±m × 2^e, an infinity, or a NaN (signalling or not). -/
inductive Num where
  | nan (sig : Bool)
  | inf (neg : Bool)
  | fin (neg : Bool) (m : Nat) (e : Int)
deriving DecidableEq, Repr

/-- Read an encoding (R371, R372); under FTZ a subnormal reads as a zero of its sign (R376). -/
def decodeNum (c : Nat) (ftz : Bool) (x : Nat) : Num :=
  let w := fmtWidth c
  if fmtInt c then
    let v : Int := if fmtSigned c then signed w x else (x % 2 ^ w : Nat)
    .fin (decide (v < 0)) v.natAbs 0
  else
    let f := fmtFrac c
    let neg := decide (x / 2 ^ (w - 1) % 2 = 1)
    let ex := x / 2 ^ f % 2 ^ fmtExp c
    let fr := x % 2 ^ f
    let top := ex == 2 ^ fmtExp c - 1
    if c = 8 && top && fr == 7 then .nan false
    else if c ≠ 8 && top then (if fr = 0 then .inf neg else .nan (fr / 2 ^ (f - 1) == 0))
    else if ex = 0 then (if ftz then .fin neg 0 0 else .fin neg fr (1 - (fmtBias c : Int) - f))
    else .fin neg (fr + 2 ^ f) ((ex : Int) - fmtBias c - f)

/-- An encoding is a NaN. -/
def isNaN (c x : Nat) : Bool :=
  match decodeNum c false x with
  | .nan _ => fmtFloat c
  | _ => false

/-- Rounding of a magnitude at bit d: 0 nearest even, 1 toward zero, 2 down, 3 up, 4 nearest, ties away. -/
def roundBits (rm : Nat) (neg : Bool) (m d : Nat) : Nat :=
  let q := m / 2 ^ d
  let r := m % 2 ^ d
  let half := 2 ^ d / 2
  let up : Bool := match rm with
    | 0 => decide (half < r) || (r == half && r != 0 && q % 2 == 1)
    | 1 => false
    | 2 => neg && r != 0
    | 3 => !neg && r != 0
    | _ => r != 0 && decide (half ≤ r)
  if d = 0 then m else if up then q + 1 else q

/-- Round ±m × 2^e to a floating-point format (R374, R375, R376): encoding and flags. -/
def roundNum (c rm : Nat) (ftz neg : Bool) (m : Nat) (e : Int) : Res :=
  if m = 0 then (withSign c neg 0, fNone)
  else
    let f := fmtFrac c
    let emin : Int := 1 - fmtBias c
    let qmin : Int := emin - f
    let ex : Int := e + Nat.log2 m
    let q : Int := max (ex - f) qmin
    let d := (q - e).toNat
    let r := if e < q then roundBits rm neg m d else m * 2 ^ (e - q).toNat
    let inexact := decide (e < q) && m % 2 ^ d != 0
    let enc := (q - qmin).toNat * 2 ^ f + r
    let big := if c = 8 then decide (464 * 2 ^ 9 ≤ m * 2 ^ (e + 9).toNat / 2 ^ (-(e + 9)).toNat) else decide (infBits c ≤ enc)
    let q' : Int := ex - f
    let d' := (q' - e).toNat
    let r' := if e < q' then roundBits rm neg m d' else 0
    let tiny := decide (ex < emin) && !(decide (ex + 1 = emin) && decide (e < q') && r' == 2 ^ (f + 1))
    if big then
      let toMax := rm == 1 || (rm == 2 && !neg) || (rm == 3 && neg)
      (withSign c neg (if toMax then maxFinite c else infBits c), fOF ||| fNX)
    else if tiny && ftz then (withSign c neg 0, fUF ||| fNX)
    else
      (withSign c neg enc, if inexact then (if tiny then fUF ||| fNX else fNX) else fNone)

/-- The exact sum of two numbers; the sign of an exact zero sum is − only for two −0, or rounding down (R378). -/
def addExact (rm : Nat) (n1 : Bool) (m1 : Nat) (e1 : Int) (n2 : Bool) (m2 : Nat) (e2 : Int) : Bool × Nat × Int :=
  let e := min e1 e2
  let v (n : Bool) (m : Nat) (x : Int) : Int := let y : Int := (m * 2 ^ (x - e).toNat : Nat); if n then -y else y
  let s := v n1 m1 e1 + v n2 m2 e2
  if s = 0 then
    ((if m1 = 0 && m2 = 0 then (if n1 = n2 then n1 else rm == 2) else rm == 2), 0, 0)
  else (decide (s < 0), s.natAbs, e)

/-- a × b as an exact number; none: invalid (0 × ∞). -/
def mulNum : Num → Num → Option Num
  | .nan s, _ => some (.nan s)
  | _, .nan s => some (.nan s)
  | .inf n, .fin k m _ => if m = 0 then none else some (.inf (n != k))
  | .fin k m _, .inf n => if m = 0 then none else some (.inf (n != k))
  | .inf n, .inf k => some (.inf (n != k))
  | .fin n a x, .fin k b y => some (.fin (n != k) (a * b) (x + y))

/-- x + y rounded to format c; ∞ − ∞ is invalid. Which NaN flag is raised is the caller's affair. -/
def addNum (c rm : Nat) (ftz : Bool) : Num → Num → Res
  | .nan _, _ => (canonNaN c, fNone)
  | _, .nan _ => (canonNaN c, fNone)
  | .inf n, .inf k => if n = k then (withSign c n (infBits c), fNone) else (canonNaN c, fIV)
  | .inf n, _ => (withSign c n (infBits c), fNone)
  | _, .inf n => (withSign c n (infBits c), fNone)
  | .fin n a x, .fin k b y =>
    let s := addExact rm n a x k b y
    roundNum c rm ftz s.1 s.2.1 s.2.2

def numIsNaN : Num → Bool
  | .nan _ => true
  | _ => false

/-- The FP32 step acc + a × b with one rounding (R350), and NAN_SEEN for a NaN operand (R377). -/
def macF (ftz : Bool) (acc : Nat) (ca a cb b : Nat) : Res :=
  let x := decodeNum ca ftz a
  let y := decodeNum cb ftz b
  let z := decodeNum 0x0C ftz acc
  if numIsNaN x || numIsNaN y then (canonNaN 0x0C, fNaN)
  else
    match mulNum x y with
    | none => (canonNaN 0x0C, fIV)
    | some p => if numIsNaN z then (canonNaN 0x0C, fNone) else addNum 0x0C 0 ftz z p

/-- FP32 addition of the engines (R350, R359, R377). -/
def addF (ftz : Bool) (a b : Nat) : Res :=
  let x := decodeNum 0x0C ftz a
  let y := decodeNum 0x0C ftz b
  if numIsNaN x || numIsNaN y then (canonNaN 0x0C, fNaN) else addNum 0x0C 0 ftz x y

/-- FP32 multiplication by SCALE (R360). -/
def mulF (ftz : Bool) (a b : Nat) : Res :=
  let x := decodeNum 0x0C ftz a
  let y := decodeNum 0x0C ftz b
  if numIsNaN x || numIsNaN y then (canonNaN 0x0C, fNaN)
  else
    match mulNum x y with
    | none => (canonNaN 0x0C, fIV)
    | some (.inf n) => (withSign 0x0C n (infBits 0x0C), fNone)
    | some (.fin n m e) => roundNum 0x0C 0 ftz n m e
    | some (.nan _) => (canonNaN 0x0C, fNone)

/-- An integer clamped into format c, with SAT (Table NUM-6). -/
def clampInt (c : Nat) (v : Int) : Res :=
  let w := fmtWidth c
  let lo : Int := if fmtSigned c then -(2 ^ (w - 1) : Nat) else 0
  let hi : Int := if fmtSigned c then (2 ^ (w - 1) : Nat) - 1 else (2 ^ w : Nat) - 1
  if v < lo then (wrap w lo, fSAT) else if hi < v then (wrap w hi, fSAT) else (wrap w v, fNone)

/-- INT32 saturating addition (R350). -/
def addI (a : Nat) (d : Int) : Res := clampInt 6 (signed 32 a + d)

/-- An arithmetic right shift with rounding to nearest even, NX if bits are lost (R360, R385). -/
def shiftRound (v : Int) (d : Nat) : Int × Flags :=
  let r : Int := (roundBits 0 false v.natAbs d : Nat)
  (if v < 0 then -r else r, if v.natAbs % 2 ^ d = 0 then fNone else fNX)

/-- An integer in a floating-point value, rounded as `rm` says: none for a NaN or an infinity. -/
def roundInt (rm : Nat) : Num → Option (Int × Bool)
  | .fin n m e =>
    if 0 ≤ e then some ((if n then -((m * 2 ^ e.toNat : Nat) : Int) else (m * 2 ^ e.toNat : Nat)), false)
    else
      let d := (-e).toNat
      let r : Int := (roundBits rm n m d : Nat)
      some (if n then -r else r, m % 2 ^ d != 0)
  | _ => none

/-- The ordinal mapping of R381: the key and NAN_SEEN. FP8 is widened to FP16, 8-bit integers to 16 bits. -/
def toKey (c : Nat) (ftz : Bool) (x : Nat) : Res :=
  let flt (w bits : Nat) : Nat :=
    let b := if bits = 2 ^ (w - 1) then 0 else bits
    if b < 2 ^ (w - 1) then b + 2 ^ (w - 1) else 2 ^ w - 1 - b
  if fmtInt c then
    let w := if fmtWidth c = 32 then 32 else 16
    let v : Int := if fmtSigned c then signed (fmtWidth c) x + (2 ^ (w - 1) : Nat) else (x % 2 ^ fmtWidth c : Nat) + 1
    (wrap w v, fNone)
  else if fmtKey c then (x % 2 ^ fmtWidth c, fNone)
  else
    match decodeNum c ftz x with
    | .nan _ => (0, fNaN)
    | .inf n => let d := if c = 9 then 0x0A else c; (flt (fmtWidth d) (withSign d n (infBits d)), fNone)
    | .fin n m e =>
      let d := if c = 8 || c = 9 then 0x0A else c
      (flt (fmtWidth d) (roundNum d 0 false n m e).1, fNone)

/-- The inverse mapping of R383. -/
def ofKey (k c x : Nat) : Res :=
  let w := fmtWidth k
  if fmtInt c then
    (if fmtSigned c then (x + 2 ^ (w - 1)) % 2 ^ w else (x + 2 ^ w - 1) % 2 ^ w, fNone)
  else if x = 0 then (canonNaN c, fNone)
  else
    let b := if 2 ^ (w - 1) ≤ x then x - 2 ^ (w - 1) else 2 ^ w - 1 - x
    if isNaN c b then (canonNaN c, fIV) else (b, fNone)

/-- Every conversion (Table NUM-6) in rounding mode `rm` (engines: 0). -/
def convert (rm : Nat) (src dst : Nat) (ftz : Bool) (x : Nat) : Res :=
  if fmtKey dst then toKey src ftz x
  else if fmtKey src then ofKey src dst x
  else if fmtInt src then
    match decodeNum src false x with
    | .fin n m _ => if fmtInt dst then clampInt dst (if n then -(m : Int) else m) else roundNum dst rm ftz n m 0
    | _ => (0, fNone)
  else
    let v := decodeNum src ftz x
    if fmtInt dst then
      match v with
      | .nan _ => (0, fIV ||| fNaN)
      | .inf n => clampInt dst (if n then -(2 ^ 70 : Nat) else (2 ^ 70 : Nat))
      | .fin _ _ _ =>
        match roundInt rm v with
        | some (i, nx) => let r := clampInt dst i; (r.1, if r.2 = fNone && nx then fNX else r.2)
        | none => (0, fNone)
    else
      match v with
      | .nan _ => (canonNaN dst, fNaN)
      | .inf n => (withSign dst n (infBits dst), if dst = 8 then fOF ||| fNX else fNone)
      | .fin n m e => roundNum dst rm ftz n m e

/-- Order of two numbers that are not NaN: −0 equals +0 (R389). -/
def numLt : Num → Num → Bool
  | .inf n, .inf k => n && !k
  | .inf n, .fin _ _ _ => n
  | .fin _ _ _, .inf k => !k
  | .fin n a x, .fin k b y =>
    let e := min x y
    let v (s : Bool) (m : Nat) (p : Int) : Int := let z : Int := (m * 2 ^ (p - e).toNat : Nat); if s then -z else z
    decide (v n a x < v k b y)
  | _, _ => false

/-- a < b in an integer, key or floating-point format, both not NaN. -/
def fmtLt (c : Nat) (ftz : Bool) (a b : Nat) : Bool :=
  if fmtKey c then decide (a < b) else numLt (decodeNum c ftz a) (decodeNum c ftz b)

/-- MIN and MAX (R384, R389): the left operand wins a tie, a NaN or MISSING never wins. -/
def minMax (c : Nat) (ftz isMax : Bool) (a b : Nat) : Res :=
  if fmtKey c then
    (if b = 0 then (a, fNone) else if a = 0 then (b, fNone)
     else if (if isMax then a < b else b < a) then (b, fNone) else (a, fNone))
  else
    let na := isNaN c a
    let nb := isNaN c b
    if na && nb then (canonNaN c, fNaN)
    else if na then (b, fNaN)
    else if nb then (a, fNaN)
    else if (if isMax then fmtLt c ftz a b else fmtLt c ftz b a) then (b, fNone) else (a, fNone)

/-- ADD, MIN or MAX of two values (Table NUM-4): ACC_OP and gathering operators. Under FTZ a subnormal operand of MIN or
MAX reads as a zero of its sign. -/
def accOp (op c : Nat) (ftz : Bool) (a b : Nat) : Res :=
  match op with
  | 1 => if c = 0x0C then addF ftz a b else addI a (signed 32 b)
  | _ =>
    let z (x : Nat) : Nat :=
      if ftz && fmtFloat c then (match decodeNum c true x with | .fin n 0 _ => withSign c n 0 | _ => x) else x
    minMax c ftz (op == 3) (z a) (z b)

/-- The formats an ACC_OP takes (R380, Table NUM-4). -/
def accFits (op c : Nat) : Bool :=
  match op with
  | 1 => c == 6 || c == 0x0C
  | 2 | 3 => c == 6 || c == 7 || c == 0x0C || c == 0x0E || c == 0x0F
  | _ => false

/-- Number of one bits of a word. -/
def popcount (w x : Nat) : Nat := ((List.range w).filter (fun i => Nat.testBit x i)).length

end Sys2Proof.Machine
end

