-- ==== Sys2Proof/Config.lean ====
section
/-! DEFINITION. What an implementation fixes and the spec does not state: fused identities and keys, and the free
values. Each is a constant without a body, so that no proof can rest on a number of it. -/

namespace Sys2Proof.Config

/-- The source of every free value: `freeValue k` is the k-th value the spec leaves open in a run (State.free counts
them). DESIGN CHOICE: which count a value takes; nothing constrains the values. -/
opaque freeValue : Nat → Word

/-- A free value that depends on data: the numeric corner named by `tag`, on operands `a` and `b`. -/
opaque freeOf (tag : Nat) (a b : Word) : Word

/-- RIB_ID_REV steppings: base, compute, edge (R110, fused). -/
opaque stepping : Nat → BitVec 8

/-- The module serial number (RIB_ID_SERIAL, R110, fused). -/
opaque serial : Word

/-- ROOT_KEY_HASH, 48 bytes (R155, fused). -/
opaque rootKeyHash : Nat → Byte

/-- The minimum security version as the module left the factory (R155, fused). -/
opaque fusedSecVersion : Nat

/-- The fused digest of the boot ROM, 48 bytes (R156). -/
opaque bootRomDigest : Nat → Byte

/-- The digest of the fuse copy, 48 bytes (R156). -/
opaque fuseDigest : Nat → Byte

/-- The wafer address of Unhal's status log (RIB_LOG, R111), which the spec does not place. -/
opaque logAddress : Word

/-- The 48 MiB of a boot flash slot as the module left the factory, by edge die 0 or 8 and slot (key 2 × die + slot): a header
and body as R152 lays them out, whose contents the spec does not give. -/
opaque factoryImage : Nat → List Byte

end Sys2Proof.Config
end

