-- ==== Sys2Proof/Machine/Fields.lean ====
section
/-! DEFINITION. The register fields of the spec's register tables (R18, R20, R21, R30, R41, R68, R110, R111, R112,
R115, R123, R161, R188, R202, R229, R237, R238, R264, R278, R285, R286, R300, R325, R331, R368, R414, R448, R455, R495,
R502, R527, R533, R537, R545), each as the register's offset in its block and the field's lowest bit and width; and for
each block its place in die space with the bits software may write, the bits that clear when 1 is written, and the
reset value (R9, R10). -/

namespace Sys2Proof.Machine

/-- A register field: byte offset of its register in the block, lowest bit, width in bits. -/
structure Fld where
  off : Nat
  lo : Nat
  w : Nat
deriving DecidableEq, Repr

namespace F
/-! Folio -/
def FOL_CNT_CFG.VAL : Fld := ⟨0x0, 0, 64⟩
def FOL_CNT_CFG.SOURCE : Fld := ⟨0x0, 0, 3⟩
def FOL_CNT_CFG.TICK_INPUT : Fld := ⟨0x0, 3, 1⟩
def FOL_CNT_CFG.DIR_INVERT : Fld := ⟨0x0, 4, 1⟩
def FOL_CNT_CFG.DERIVED_RUN : Fld := ⟨0x0, 5, 1⟩
def FOL_CNT_CFG.GLITCH : Fld := ⟨0x0, 8, 8⟩
def FOL_CNT_CFG.WINDOW_LOG2 : Fld := ⟨0x0, 16, 5⟩
def FOL_CNT_CFG.STALL_US : Fld := ⟨0x0, 32, 32⟩
def FOL_CNT_POS.VAL : Fld := ⟨0x8, 0, 64⟩
def FOL_CNT_POS.POSITION : Fld := ⟨0x8, 0, 48⟩
def FOL_CNT_POS.STALLED : Fld := ⟨0x8, 48, 1⟩
def FOL_CNT_POS.REVERSED : Fld := ⟨0x8, 49, 1⟩
def FOL_CNT_POS.EPOCH : Fld := ⟨0x8, 56, 8⟩
def FOL_CNT_LOAD.VAL : Fld := ⟨0x10, 0, 64⟩
def FOL_CNT_RATE.VAL : Fld := ⟨0x18, 0, 64⟩
def FOL_CNT_HELD.VAL : Fld := ⟨0x20, 0, 64⟩
def FOL_CNT_NOMRATE.VAL : Fld := ⟨0x28, 0, 64⟩
def FOL_CNT_DERIVED_INC.VAL : Fld := ⟨0x30, 0, 64⟩
def FOL_CNT_JUMP_LIMIT.VAL : Fld := ⟨0x38, 0, 64⟩
def FOL_CNT_GUARD.VAL : Fld := ⟨0x40, 0, 64⟩
def FOL_CNT_STAT.VAL : Fld := ⟨0x48, 0, 64⟩
def FOL_CNT_STAT.STALL : Fld := ⟨0x48, 0, 1⟩
def FOL_CNT_STAT.REVERSAL : Fld := ⟨0x48, 1, 1⟩
def FOL_CNT_STAT.JUMP : Fld := ⟨0x48, 2, 1⟩
def FOL_CNT_STAT.SEQ_GAP : Fld := ⟨0x48, 3, 1⟩
def FOL_CNT_STAT.CRC_ERR : Fld := ⟨0x48, 4, 1⟩
def FOL_CNT_STAT.QUAD_ERR : Fld := ⟨0x48, 5, 1⟩
def FOL_CNT_STAT.STAMP_IGNORED : Fld := ⟨0x48, 6, 1⟩
def FOL_CNT_STAT.CLR_DISCARDS : Fld := ⟨0x48, 15, 1⟩
def FOL_CNT_STAT.DISCARDS : Fld := ⟨0x48, 16, 16⟩
def FOL_CNT_ALERT_EN.VAL : Fld := ⟨0x50, 0, 64⟩
def FOL_IMG.POSITION : Fld := ⟨0x0, 0, 48⟩
def FOL_IMG.STALE : Fld := ⟨0x0, 48, 1⟩
def FOL_IMG.STALLED : Fld := ⟨0x0, 49, 1⟩
def FOL_IMG.REVERSED : Fld := ⟨0x0, 50, 1⟩
def FOL_IMG.SOURCE_OFF : Fld := ⟨0x0, 51, 1⟩
def FOL_IMG.EPOCH : Fld := ⟨0x0, 56, 8⟩
def FOL_IMG.VAL : Fld := ⟨0x0, 0, 64⟩
def FOL_ALM_CFG.ENABLE : Fld := ⟨0x0, 0, 1⟩
def FOL_ALM_CFG.DIR : Fld := ⟨0x0, 1, 2⟩
def FOL_ALM_CFG.PERIODIC : Fld := ⟨0x0, 3, 1⟩
def FOL_ALM_CFG.ACTION : Fld := ⟨0x0, 4, 2⟩
def FOL_ALM_CFG.COUNTER : Fld := ⟨0x0, 8, 8⟩
def FOL_ALM_CFG.VOLUME : Fld := ⟨0x0, 16, 6⟩
def FOL_ALM_CFG.VAL : Fld := ⟨0x0, 0, 64⟩
def FOL_ALM_POS.POSITION : Fld := ⟨0x8, 0, 48⟩
def FOL_ALM_POS.VAL : Fld := ⟨0x8, 0, 64⟩
def FOL_ALM_PERIOD.PERIOD : Fld := ⟨0x10, 0, 48⟩
def FOL_ALM_PERIOD.VAL : Fld := ⟨0x10, 0, 64⟩
def FOL_ALM_TARGET.TARGET_ID : Fld := ⟨0x18, 0, 18⟩
def FOL_ALM_TARGET.INDEX_STEP : Fld := ⟨0x18, 18, 8⟩
def FOL_ALM_TARGET.VALUE : Fld := ⟨0x18, 32, 32⟩
def FOL_ALM_TARGET.VAL : Fld := ⟨0x18, 0, 64⟩
def FOL_ALM_STAT.ARMED : Fld := ⟨0x20, 0, 1⟩
def FOL_ALM_STAT.FIRED : Fld := ⟨0x20, 1, 1⟩
def FOL_ALM_STAT.PASSED_BY_JUMP : Fld := ⟨0x20, 2, 1⟩
def FOL_ALM_STAT.HELD : Fld := ⟨0x20, 3, 1⟩
def FOL_ALM_STAT.TARGET_FAULT : Fld := ⟨0x20, 4, 1⟩
def FOL_ALM_STAT.MISSED : Fld := ⟨0x20, 8, 8⟩
def FOL_ALM_STAT.LAST_FIRE_POS : Fld := ⟨0x20, 16, 48⟩
def FOL_ALM_STAT.VAL : Fld := ⟨0x20, 0, 64⟩
/-! Supervisor -/
def MOD_PWR_STAT.ENTRY_OK : Fld := ⟨0x0, 0, 4⟩
def MOD_PWR_STAT.PGOOD : Fld := ⟨0x0, 4, 1⟩
def MOD_PWR_STAT.OV_LATCH : Fld := ⟨0x0, 5, 1⟩
def MOD_PWR_STAT.CAP_KW : Fld := ⟨0x0, 8, 8⟩
def MOD_PWR_STAT.REF_SEL : Fld := ⟨0x0, 16, 1⟩
def MOD_PWR_STAT.REFA_OK : Fld := ⟨0x0, 17, 1⟩
def MOD_PWR_STAT.REFB_OK : Fld := ⟨0x0, 18, 1⟩
def MOD_PWR_STAT.RAIL_GROUP : Fld := ⟨0x0, 20, 3⟩
def MOD_PWR_STAT.VAL : Fld := ⟨0x0, 0, 64⟩
def MOD_PWR_VIN.VIN : Fld := ⟨0x8, 0, 64⟩
def MOD_PWR_VIN.VAL : Fld := ⟨0x8, 0, 64⟩
def MOD_PWR_IIN.IIN : Fld := ⟨0x10, 0, 64⟩
def MOD_PWR_IIN.VAL : Fld := ⟨0x10, 0, 64⟩
def MOD_COOL.INLET : Fld := ⟨0x18, 0, 16⟩
def MOD_COOL.OUTLET : Fld := ⟨0x18, 16, 16⟩
def MOD_COOL.FLOW : Fld := ⟨0x18, 32, 16⟩
def MOD_COOL.LEAK : Fld := ⟨0x18, 48, 1⟩
def MOD_COOL.VAL : Fld := ⟨0x18, 0, 64⟩
def MOD_EVENT.ENTRY_LOST : Fld := ⟨0x20, 0, 1⟩
def MOD_EVENT.INPUT_LOW : Fld := ⟨0x20, 1, 1⟩
def MOD_EVENT.INLET_WARN : Fld := ⟨0x20, 2, 1⟩
def MOD_EVENT.FLOW_WARN : Fld := ⟨0x20, 3, 1⟩
def MOD_EVENT.REF_SWITCH : Fld := ⟨0x20, 4, 1⟩
def MOD_EVENT.REF_DEGRADED : Fld := ⟨0x20, 5, 1⟩
def MOD_EVENT.CAP_CHANGE : Fld := ⟨0x20, 6, 1⟩
def MOD_EVENT.RESET_PIN : Fld := ⟨0x20, 7, 1⟩
def MOD_EVENT.POWER_FAIL : Fld := ⟨0x20, 8, 1⟩
def MOD_EVENT.OVERVOLT : Fld := ⟨0x20, 9, 1⟩
def MOD_EVENT.TRIP : Fld := ⟨0x20, 10, 1⟩
def MOD_EVENT.REF_LOST : Fld := ⟨0x20, 11, 1⟩
def MOD_EVENT.RAIL_FAULT : Fld := ⟨0x20, 12, 1⟩
def MOD_EVENT.VAL : Fld := ⟨0x20, 0, 64⟩
def MOD_ALERT_EN.EN : Fld := ⟨0x28, 0, 13⟩
def MOD_ALERT_EN.VAL : Fld := ⟨0x28, 0, 64⟩
def MOD_CLK_CFG.REF_MODE : Fld := ⟨0x30, 0, 2⟩
def MOD_CLK_CFG.VAL : Fld := ⟨0x30, 0, 64⟩
def MOD_TRIP_CAUSE.CAUSE : Fld := ⟨0x38, 0, 7⟩
def MOD_TRIP_CAUSE.DIE : Fld := ⟨0x38, 8, 8⟩
def MOD_TRIP_CAUSE.VAL : Fld := ⟨0x38, 0, 64⟩
/-! Ribbon -/
def RIB_ID_PART.VENDOR : Fld := ⟨0x0, 0, 16⟩
def RIB_ID_PART.PART : Fld := ⟨0x0, 16, 16⟩
def RIB_ID_PART.VAL : Fld := ⟨0x0, 0, 64⟩
def RIB_ID_REV.BASE_STEP : Fld := ⟨0x1, 0, 8⟩
def RIB_ID_REV.COMPUTE_STEP : Fld := ⟨0x1, 8, 8⟩
def RIB_ID_REV.EDGE_STEP : Fld := ⟨0x1, 16, 8⟩
def RIB_ID_REV.MAP_VERSION : Fld := ⟨0x1, 24, 8⟩
def RIB_ID_REV.VAL : Fld := ⟨0x1, 0, 64⟩
def RIB_ID_SERIAL_LO.SERIAL : Fld := ⟨0x2, 0, 32⟩
def RIB_ID_SERIAL_LO.VAL : Fld := ⟨0x2, 0, 64⟩
def RIB_ID_PORT.PORT : Fld := ⟨0x4, 0, 1⟩
def RIB_ID_PORT.VAL : Fld := ⟨0x4, 0, 64⟩
def RIB_ID_BOOT.SLOT : Fld := ⟨0x5, 0, 1⟩
def RIB_ID_BOOT.VERIFIED : Fld := ⟨0x5, 1, 1⟩
def RIB_ID_BOOT.UNHAL_RUN : Fld := ⟨0x5, 2, 1⟩
def RIB_ID_BOOT.VAL : Fld := ⟨0x5, 0, 64⟩
def RIB_ID_UNHAL.VERSION : Fld := ⟨0x6, 0, 32⟩
def RIB_ID_UNHAL.VAL : Fld := ⟨0x6, 0, 64⟩
def RIB_SCRATCH.SCRATCH : Fld := ⟨0x7, 0, 32⟩
def RIB_SCRATCH.VAL : Fld := ⟨0x7, 0, 64⟩
def RIB_LEASE.OP : Fld := ⟨0x8, 0, 2⟩
def RIB_LEASE.HOLDER : Fld := ⟨0x8, 2, 2⟩
def RIB_LEASE.KEY : Fld := ⟨0x8, 16, 16⟩
def RIB_LEASE.VAL : Fld := ⟨0x8, 0, 64⟩
def RIB_LEASE_LEFT.MS_LEFT : Fld := ⟨0x9, 0, 12⟩
def RIB_LEASE_LEFT.VAL : Fld := ⟨0x9, 0, 64⟩
def RIB_LEASE_EVT.GRANTED : Fld := ⟨0xa, 0, 1⟩
def RIB_LEASE_EVT.EXPIRED : Fld := ⟨0xa, 1, 1⟩
def RIB_LEASE_EVT.RELEASED : Fld := ⟨0xa, 2, 1⟩
def RIB_LEASE_EVT.VAL : Fld := ⟨0xa, 0, 64⟩
def RIB_COLLIDE.VALID : Fld := ⟨0xb, 0, 1⟩
def RIB_COLLIDE.ADDR : Fld := ⟨0xb, 1, 7⟩
def RIB_COLLIDE.PORT_A : Fld := ⟨0xb, 8, 1⟩
def RIB_COLLIDE.PORT_B : Fld := ⟨0xb, 9, 1⟩
def RIB_COLLIDE.COUNT : Fld := ⟨0xb, 16, 8⟩
def RIB_COLLIDE.VAL : Fld := ⟨0xb, 0, 64⟩
def RIB_LASTRSP.STATUS : Fld := ⟨0xc, 0, 8⟩
def RIB_LASTRSP.ADDR : Fld := ⟨0xc, 8, 7⟩
def RIB_LASTRSP.OPCODE : Fld := ⟨0xc, 16, 4⟩
def RIB_LASTRSP.VAL : Fld := ⟨0xc, 0, 64⟩
def RIB_PORT_ERR.CRC_ERRS : Fld := ⟨0xd, 0, 8⟩
def RIB_PORT_ERR.ABORTS : Fld := ⟨0xd, 8, 8⟩
def RIB_PORT_ERR.BAD_FRAMES : Fld := ⟨0xd, 16, 8⟩
def RIB_PORT_ERR.CLEAR : Fld := ⟨0xd, 31, 1⟩
def RIB_PORT_ERR.VAL : Fld := ⟨0xd, 0, 64⟩
def RIB_PEER.PEER_ALIVE : Fld := ⟨0xe, 0, 1⟩
def RIB_PEER.PEER_HOLDS : Fld := ⟨0xe, 1, 1⟩
def RIB_PEER.VAL : Fld := ⟨0xe, 0, 64⟩
def RIB_WAFER_STAT.PHASE : Fld := ⟨0x10, 0, 4⟩
def RIB_WAFER_STAT.ROOT : Fld := ⟨0x10, 4, 1⟩
def RIB_WAFER_STAT.PGOOD : Fld := ⟨0x10, 5, 1⟩
def RIB_WAFER_STAT.TRIP : Fld := ⟨0x10, 6, 1⟩
def RIB_WAFER_STAT.CAP_KW : Fld := ⟨0x10, 8, 8⟩
def RIB_WAFER_STAT.SITES_ACTIVE : Fld := ⟨0x10, 16, 8⟩
def RIB_WAFER_STAT.EDGE_ACTIVE : Fld := ⟨0x10, 24, 5⟩
def RIB_WAFER_STAT.VAL : Fld := ⟨0x10, 0, 64⟩
def RIB_WAFER_FENCED.SITES_FENCED : Fld := ⟨0x11, 0, 8⟩
def RIB_WAFER_FENCED.LINKS_RETIRED : Fld := ⟨0x11, 8, 8⟩
def RIB_WAFER_FENCED.EDGE_FENCED : Fld := ⟨0x11, 16, 5⟩
def RIB_WAFER_FENCED.SPINE_DEGRADED : Fld := ⟨0x11, 21, 6⟩
def RIB_WAFER_FENCED.VAL : Fld := ⟨0x11, 0, 64⟩
def RIB_POWER.INPUT : Fld := ⟨0x12, 0, 16⟩
def RIB_POWER.LEAVE : Fld := ⟨0x12, 16, 16⟩
def RIB_POWER.VAL : Fld := ⟨0x12, 0, 64⟩
def RIB_THERMAL.BASE_MAX : Fld := ⟨0x13, 0, 8⟩
def RIB_THERMAL.COMPUTE_MAX : Fld := ⟨0x13, 8, 8⟩
def RIB_THERMAL.EDGE_MAX : Fld := ⟨0x13, 16, 8⟩
def RIB_THERMAL.HBM_MAX : Fld := ⟨0x13, 24, 8⟩
def RIB_THERMAL.VAL : Fld := ⟨0x13, 0, 64⟩
def RIB_REFCOUNT_LO.REFCOUNT : Fld := ⟨0x14, 0, 32⟩
def RIB_REFCOUNT_LO.VAL : Fld := ⟨0x14, 0, 64⟩
def RIB_VOL_LIVE_LO.LIVE : Fld := ⟨0x16, 0, 32⟩
def RIB_VOL_LIVE_LO.VAL : Fld := ⟨0x16, 0, 64⟩
def RIB_REPORT_LO.ADDR : Fld := ⟨0x18, 0, 32⟩
def RIB_REPORT_LO.VAL : Fld := ⟨0x18, 0, 64⟩
def RIB_LOG_LO.ADDR : Fld := ⟨0x1a, 0, 32⟩
def RIB_LOG_LO.VAL : Fld := ⟨0x1a, 0, 64⟩
def RIB_SUPV_EVENT.EVENT : Fld := ⟨0x1c, 0, 13⟩
def RIB_SUPV_EVENT.VAL : Fld := ⟨0x1c, 0, 64⟩
def RIB_RESET.WAFER : Fld := ⟨0x30, 0, 1⟩
def RIB_RESET.UNHAL : Fld := ⟨0x30, 1, 1⟩
def RIB_RESET.SITE : Fld := ⟨0x30, 2, 1⟩
def RIB_RESET.SITE_NUM : Fld := ⟨0x30, 8, 7⟩
def RIB_RESET.CONFIRM : Fld := ⟨0x30, 16, 16⟩
def RIB_RESET.VAL : Fld := ⟨0x30, 0, 64⟩
def RIB_RESET_STAT.BUSY : Fld := ⟨0x31, 0, 1⟩
def RIB_RESET_STAT.LAST : Fld := ⟨0x31, 1, 2⟩
def RIB_RESET_STAT.DONE : Fld := ⟨0x31, 3, 1⟩
def RIB_RESET_STAT.SITE_NUM : Fld := ⟨0x31, 8, 7⟩
def RIB_RESET_STAT.VAL : Fld := ⟨0x31, 0, 64⟩
def RIB_BOOT_SLOT.NEXT_SLOT : Fld := ⟨0x32, 0, 1⟩
def RIB_BOOT_SLOT.VAL : Fld := ⟨0x32, 0, 64⟩
def RIB_FENCE_REQ.KIND : Fld := ⟨0x33, 0, 2⟩
def RIB_FENCE_REQ.ROW_EDGE : Fld := ⟨0x33, 2, 4⟩
def RIB_FENCE_REQ.COL : Fld := ⟨0x33, 6, 4⟩
def RIB_FENCE_REQ.DIR : Fld := ⟨0x33, 10, 2⟩
def RIB_FENCE_REQ.UNFENCE : Fld := ⟨0x33, 12, 1⟩
def RIB_FENCE_REQ.VAL : Fld := ⟨0x33, 0, 64⟩
def RIB_FENCE_IDX.IDX : Fld := ⟨0x34, 0, 6⟩
def RIB_FENCE_IDX.VAL : Fld := ⟨0x34, 0, 64⟩
def RIB_FENCE_ENTRY.KIND : Fld := ⟨0x35, 0, 2⟩
def RIB_FENCE_ENTRY.WHERE : Fld := ⟨0x35, 2, 10⟩
def RIB_FENCE_ENTRY.BY_RIBBON : Fld := ⟨0x35, 12, 1⟩
def RIB_FENCE_ENTRY.REASON : Fld := ⟨0x35, 16, 8⟩
def RIB_FENCE_ENTRY.VAL : Fld := ⟨0x35, 0, 64⟩
def RIB_FENCE_COUNT.COUNT : Fld := ⟨0x36, 0, 7⟩
def RIB_FENCE_COUNT.VAL : Fld := ⟨0x36, 0, 64⟩
def RIB_VOL_CMD.VOLUME : Fld := ⟨0x40, 0, 6⟩
def RIB_VOL_CMD.OP : Fld := ⟨0x40, 6, 2⟩
def RIB_VOL_CMD.PROFILE : Fld := ⟨0x40, 8, 8⟩
def RIB_VOL_CMD.VF : Fld := ⟨0x40, 16, 6⟩
def RIB_VOL_CMD.VF_VALID : Fld := ⟨0x40, 22, 1⟩
def RIB_VOL_CMD.VAL : Fld := ⟨0x40, 0, 64⟩
def RIB_VOL_STAT.BUSY : Fld := ⟨0x41, 0, 1⟩
def RIB_VOL_STAT.DONE : Fld := ⟨0x41, 1, 1⟩
def RIB_VOL_STAT.VOLUME : Fld := ⟨0x41, 2, 6⟩
def RIB_VOL_STAT.CODE : Fld := ⟨0x41, 8, 12⟩
def RIB_VOL_STAT.VAL : Fld := ⟨0x41, 0, 64⟩
def RIB_VOL_AUTH_LO.AUTH : Fld := ⟨0x42, 0, 32⟩
def RIB_VOL_AUTH_LO.VAL : Fld := ⟨0x42, 0, 64⟩
def RIB_LVE_LIMIT.LIMIT : Fld := ⟨0x48, 0, 16⟩
def RIB_LVE_LIMIT.VAL : Fld := ⟨0x48, 0, 64⟩
def RIB_LVE_SITE.SITE_MAX : Fld := ⟨0x49, 0, 10⟩
def RIB_LVE_SITE.VAL : Fld := ⟨0x49, 0, 64⟩
def RIB_LVE_CLASS.FOLIO : Fld := ⟨0x4a, 0, 8⟩
def RIB_LVE_CLASS.INTERACTIVE : Fld := ⟨0x4a, 8, 8⟩
def RIB_LVE_CLASS.BATCH : Fld := ⟨0x4a, 16, 8⟩
def RIB_LVE_CLASS.BACKGROUND : Fld := ⟨0x4a, 24, 8⟩
def RIB_LVE_CLASS.VAL : Fld := ⟨0x4a, 0, 64⟩
def RIB_LVE_GRANT.GRANT_MAX : Fld := ⟨0x4b, 0, 12⟩
def RIB_LVE_GRANT.VAL : Fld := ⟨0x4b, 0, 64⟩
def RIB_LVE_RAMP.RAMP : Fld := ⟨0x4c, 0, 16⟩
def RIB_LVE_RAMP.VAL : Fld := ⟨0x4c, 0, 64⟩
def RIB_FOL_SEL.COUNTER : Fld := ⟨0x50, 0, 8⟩
def RIB_FOL_SEL.VAL : Fld := ⟨0x50, 0, 64⟩
def RIB_FOL_SRC.CFG : Fld := ⟨0x51, 0, 21⟩
def RIB_FOL_SRC.VAL : Fld := ⟨0x51, 0, 64⟩
def RIB_FOL_STALL.STALL_US : Fld := ⟨0x52, 0, 32⟩
def RIB_FOL_STALL.VAL : Fld := ⟨0x52, 0, 64⟩
def RIB_FOL_NOMRATE_LO.NOMRATE : Fld := ⟨0x53, 0, 32⟩
def RIB_FOL_NOMRATE_LO.VAL : Fld := ⟨0x53, 0, 64⟩
def RIB_FOL_CMD.OP : Fld := ⟨0x55, 0, 2⟩
def RIB_FOL_CMD.VAL : Fld := ⟨0x55, 0, 64⟩
def RIB_FOL_POS_LO.POS : Fld := ⟨0x56, 0, 32⟩
def RIB_FOL_POS_LO.VAL : Fld := ⟨0x56, 0, 64⟩
def RIB_MBX_OUT.WORD : Fld := ⟨0x60, 0, 32⟩
def RIB_MBX_OUT.VAL : Fld := ⟨0x60, 0, 64⟩
def RIB_MBX_IN.WORD : Fld := ⟨0x61, 0, 32⟩
def RIB_MBX_IN.VAL : Fld := ⟨0x61, 0, 64⟩
def RIB_MBX_FLAGS.OUT_FULL : Fld := ⟨0x70, 0, 8⟩
def RIB_MBX_FLAGS.IN_FULL : Fld := ⟨0x70, 8, 8⟩
def RIB_MBX_FLAGS.WITHDRAW : Fld := ⟨0x70, 16, 8⟩
def RIB_MBX_FLAGS.WITHDRAWN : Fld := ⟨0x70, 24, 8⟩
def RIB_MBX_FLAGS.VAL : Fld := ⟨0x70, 0, 64⟩
def RIB_ALERT_SRC.SRC : Fld := ⟨0x74, 0, 15⟩
def RIB_ALERT_SRC.VAL : Fld := ⟨0x74, 0, 64⟩
def RIB_ALERT_EN.EN : Fld := ⟨0x75, 0, 15⟩
def RIB_ALERT_EN.VAL : Fld := ⟨0x75, 0, 64⟩
def RIB_ALERT_FOLCNT.COUNTER : Fld := ⟨0x76, 0, 8⟩
def RIB_ALERT_FOLCNT.VALID : Fld := ⟨0x76, 8, 1⟩
def RIB_ALERT_FOLCNT.VAL : Fld := ⟨0x76, 0, 64⟩
def RIB_ALERT_FORCE.FORCE : Fld := ⟨0x77, 0, 1⟩
def RIB_ALERT_FORCE.VAL : Fld := ⟨0x77, 0, 64⟩
def RIB_WIN_ADDR_LO.ADDR : Fld := ⟨0x0, 3, 29⟩
def RIB_WIN_ADDR_LO.VAL : Fld := ⟨0x0, 0, 64⟩
def RIB_WIN_ADDR_HI.ADDR : Fld := ⟨0x1, 0, 32⟩
def RIB_WIN_ADDR_HI.VAL : Fld := ⟨0x1, 0, 64⟩
def RIB_WIN_DATA_LO.DATA : Fld := ⟨0x2, 0, 32⟩
def RIB_WIN_DATA_LO.VAL : Fld := ⟨0x2, 0, 64⟩
def RIB_WIN_DATA_HI.DATA : Fld := ⟨0x3, 0, 32⟩
def RIB_WIN_DATA_HI.VAL : Fld := ⟨0x3, 0, 64⟩
def RIB_WIN_CTRL.AUTO_INC : Fld := ⟨0x4, 0, 1⟩
def RIB_WIN_CTRL.PREFETCH : Fld := ⟨0x4, 1, 1⟩
def RIB_WIN_CTRL.READ : Fld := ⟨0x4, 2, 1⟩
def RIB_WIN_CTRL.ABORT : Fld := ⟨0x4, 3, 1⟩
def RIB_WIN_CTRL.VAL : Fld := ⟨0x4, 0, 64⟩
def RIB_WIN_STAT.PENDING : Fld := ⟨0x5, 0, 1⟩
def RIB_WIN_STAT.FAULT : Fld := ⟨0x5, 1, 1⟩
def RIB_WIN_STAT.TIMEOUT : Fld := ⟨0x5, 2, 1⟩
def RIB_WIN_STAT.DENIED : Fld := ⟨0x5, 3, 1⟩
def RIB_WIN_STAT.FAULT_KIND : Fld := ⟨0x5, 8, 8⟩
def RIB_WIN_STAT.VAL : Fld := ⟨0x5, 0, 64⟩
def RIB_WIN_COUNT.COUNT : Fld := ⟨0x6, 0, 32⟩
def RIB_WIN_COUNT.VAL : Fld := ⟨0x6, 0, 64⟩
/-! Collation -/
def COL_SHELF.WAFER_NUM : Fld := ⟨0x1000, 0, 4⟩
def COL_SHELF.VAL : Fld := ⟨0x1000, 0, 64⟩
def COL_MEAS_COUNT.COUNT : Fld := ⟨0x1070, 0, 7⟩
def COL_MEAS_COUNT.VAL : Fld := ⟨0x1070, 0, 64⟩
def COL_FUSE_SECVER.MIN : Fld := ⟨0x10b0, 0, 6⟩
def COL_FUSE_SECVER.VAL : Fld := ⟨0x10b0, 0, 64⟩
/-! Links -/
def LNK_STAT.STATE : Fld := ⟨0x0, 0, 3⟩
def LNK_STAT.LATENCY : Fld := ⟨0x0, 3, 8⟩
def LNK_STAT.GUARDS : Fld := ⟨0x0, 11, 7⟩
def LNK_STAT.VAL : Fld := ⟨0x0, 0, 64⟩
def LNK_CFG.ACK_TIMEOUT : Fld := ⟨0x8, 0, 8⟩
def LNK_CFG.MAX_RETRY : Fld := ⟨0x8, 8, 4⟩
def LNK_CFG.NOPROGRESS : Fld := ⟨0x8, 16, 8⟩
def LNK_CFG.RETRAIN_LIMIT : Fld := ⟨0x8, 24, 16⟩
def LNK_CFG.FRAY_N : Fld := ⟨0x8, 40, 16⟩
def LNK_CFG.VAL : Fld := ⟨0x8, 0, 64⟩
def LNK_TX.FLITS : Fld := ⟨0x10, 0, 32⟩
def LNK_TX.REPLAYS : Fld := ⟨0x10, 32, 32⟩
def LNK_TX.VAL : Fld := ⟨0x10, 0, 64⟩
def LNK_RX.CRC_ERRS : Fld := ⟨0x18, 0, 32⟩
def LNK_RX.SEQ_GAPS : Fld := ⟨0x18, 32, 32⟩
def LNK_RX.VAL : Fld := ⟨0x18, 0, 64⟩
def LNK_WIN.WIN_FLITS : Fld := ⟨0x20, 0, 32⟩
def LNK_WIN.WIN_REPLAYS : Fld := ⟨0x20, 32, 16⟩
def LNK_WIN.VAL : Fld := ⟨0x20, 0, 64⟩
def LNK_EVT.ACK_TIMEOUT : Fld := ⟨0x28, 0, 1⟩
def LNK_EVT.RETRY_LIMIT : Fld := ⟨0x28, 1, 1⟩
def LNK_EVT.NO_PROGRESS : Fld := ⟨0x28, 2, 1⟩
def LNK_EVT.FIFO_SLIP : Fld := ⟨0x28, 3, 1⟩
def LNK_EVT.RETRAIN : Fld := ⟨0x28, 4, 1⟩
def LNK_EVT.RETRAIN_FAIL : Fld := ⟨0x28, 5, 1⟩
def LNK_EVT.FRAYED : Fld := ⟨0x28, 6, 1⟩
def LNK_EVT.DRAIN_DISCARD : Fld := ⟨0x28, 7, 1⟩
def LNK_EVT.DISCARDS : Fld := ⟨0x28, 16, 16⟩
def LNK_EVT.VAL : Fld := ⟨0x28, 0, 64⟩
def LNK_CTL.CLEAR : Fld := ⟨0x30, 0, 1⟩
def LNK_CTL.RETRAIN : Fld := ⟨0x30, 1, 1⟩
def LNK_CTL.VAL : Fld := ⟨0x30, 0, 64⟩
def LNK_SP_STAT.STATE : Fld := ⟨0x0, 0, 3⟩
def LNK_SP_STAT.LANES : Fld := ⟨0x0, 3, 16⟩
def LNK_SP_STAT.PEER_WAFER : Fld := ⟨0x0, 19, 4⟩
def LNK_SP_STAT.PEER_LINK : Fld := ⟨0x0, 23, 5⟩
def LNK_SP_STAT.PEER_VALID : Fld := ⟨0x0, 28, 1⟩
def LNK_SP_STAT.VAL : Fld := ⟨0x0, 0, 64⟩
def LNK_SP_CFG.ACK_TIMEOUT : Fld := ⟨0x8, 0, 8⟩
def LNK_SP_CFG.MAX_RETRY : Fld := ⟨0x8, 8, 4⟩
def LNK_SP_CFG.NOPROGRESS : Fld := ⟨0x8, 16, 8⟩
def LNK_SP_CFG.RETRAIN_LIMIT : Fld := ⟨0x8, 24, 16⟩
def LNK_SP_CFG.FRAY_N : Fld := ⟨0x8, 40, 16⟩
def LNK_SP_CFG.VAL : Fld := ⟨0x8, 0, 64⟩
def LNK_SP_TX.PACKETS : Fld := ⟨0x10, 0, 32⟩
def LNK_SP_TX.REPLAYS : Fld := ⟨0x10, 32, 32⟩
def LNK_SP_TX.VAL : Fld := ⟨0x10, 0, 64⟩
def LNK_SP_FEC.CORRECTED : Fld := ⟨0x18, 0, 32⟩
def LNK_SP_FEC.UNCORRECTABLE : Fld := ⟨0x18, 32, 32⟩
def LNK_SP_FEC.VAL : Fld := ⟨0x18, 0, 64⟩
def LNK_SP_RX.CRC_ERRS : Fld := ⟨0x20, 0, 32⟩
def LNK_SP_RX.SEQ_GAPS : Fld := ⟨0x20, 32, 32⟩
def LNK_SP_RX.VAL : Fld := ⟨0x20, 0, 64⟩
def LNK_SP_EVT.EVT : Fld := ⟨0x28, 0, 9⟩
def LNK_SP_EVT.VAL : Fld := ⟨0x28, 0, 64⟩
def LNK_SP_CTL.OP : Fld := ⟨0x30, 0, 2⟩
def LNK_SP_CTL.VAL : Fld := ⟨0x30, 0, 64⟩
/-! Memory -/
def MEM_CFG.RLC_EN : Fld := ⟨0x0, 0, 1⟩
def MEM_CFG.VAL : Fld := ⟨0x0, 0, 64⟩
def MEM_CTL.FLUSH : Fld := ⟨0x8, 0, 1⟩
def MEM_CTL.CLEAR : Fld := ⟨0x8, 1, 1⟩
def MEM_CTL.VAL : Fld := ⟨0x8, 0, 64⟩
def MEM_STAT.FLUSH_BUSY : Fld := ⟨0x10, 0, 1⟩
def MEM_STAT.OUTSTANDING : Fld := ⟨0x10, 9, 9⟩
def MEM_STAT.VAL : Fld := ⟨0x10, 0, 64⟩
def MEM_RLC_HITS.HITS : Fld := ⟨0x18, 0, 64⟩
def MEM_RLC_HITS.VAL : Fld := ⟨0x18, 0, 64⟩
def MEM_RLC_MISSES.MISSES : Fld := ⟨0x20, 0, 64⟩
def MEM_RLC_MISSES.VAL : Fld := ⟨0x20, 0, 64⟩
def MEM_DIR.EVICTIONS : Fld := ⟨0x28, 0, 32⟩
def MEM_DIR.COARSE : Fld := ⟨0x28, 32, 32⟩
def MEM_DIR.VAL : Fld := ⟨0x28, 0, 64⟩
def MEM_ECC.CORRECTED : Fld := ⟨0x30, 0, 32⟩
def MEM_ECC.UNCORRECTED : Fld := ⟨0x30, 32, 32⟩
def MEM_ECC.VAL : Fld := ⟨0x30, 0, 64⟩
def MEM_FAULT.VALID : Fld := ⟨0x38, 0, 1⟩
def MEM_FAULT.STATUS : Fld := ⟨0x38, 1, 4⟩
def MEM_FAULT.UNIT : Fld := ⟨0x38, 5, 8⟩
def MEM_FAULT.VOLUME : Fld := ⟨0x38, 13, 6⟩
def MEM_FAULT.VAL : Fld := ⟨0x38, 0, 64⟩
def MEM_FAULT_ADDR.ADDRESS : Fld := ⟨0x40, 0, 64⟩
def MEM_FAULT_ADDR.VAL : Fld := ⟨0x40, 0, 64⟩
/-! Queue manager and mailboxes -/
def QUE_CFG.STALL_MS : Fld := ⟨0xf0000, 0, 16⟩
def QUE_CFG.VAL : Fld := ⟨0xf0000, 0, 64⟩
def QUE_STAT.WAITS : Fld := ⟨0xf0008, 0, 15⟩
def QUE_STAT.BURSTS : Fld := ⟨0xf0008, 15, 3⟩
def QUE_STAT.ADMIT_Q : Fld := ⟨0xf0008, 18, 10⟩
def QUE_STAT.VAL : Fld := ⟨0xf0008, 0, 64⟩
def QUE_EVT.STALL : Fld := ⟨0xf0010, 0, 1⟩
def QUE_EVT.STALE_DB : Fld := ⟨0xf0010, 1, 1⟩
def QUE_EVT.REJECT_DB : Fld := ⟨0xf0010, 2, 1⟩
def QUE_EVT.PROT : Fld := ⟨0xf0010, 3, 1⟩
def QUE_EVT.BAD_DESC : Fld := ⟨0xf0010, 4, 1⟩
def QUE_EVT.DESC_READ : Fld := ⟨0xf0010, 5, 1⟩
def QUE_EVT.STALL_RING : Fld := ⟨0xf0010, 16, 11⟩
def QUE_EVT.VAL : Fld := ⟨0xf0010, 0, 64⟩
def QUE_DOORBELL.WORD : Fld := ⟨0xf0018, 0, 64⟩
def QUE_DOORBELL.VAL : Fld := ⟨0xf0018, 0, 64⟩
def QUE_RING_BASE.BASE : Fld := ⟨0x0, 0, 64⟩
def QUE_RING_BASE.VAL : Fld := ⟨0x0, 0, 64⟩
def QUE_RING_CTRL.KIND : Fld := ⟨0x8, 0, 2⟩
def QUE_RING_CTRL.SIZE_LOG2 : Fld := ⟨0x8, 2, 5⟩
def QUE_RING_CTRL.ESIZE_LOG2 : Fld := ⟨0x8, 7, 5⟩
def QUE_RING_CTRL.VOLUME : Fld := ⟨0x8, 12, 6⟩
def QUE_RING_CTRL.ENABLE : Fld := ⟨0x8, 18, 1⟩
def QUE_RING_CTRL.FETCH_PRI : Fld := ⟨0x8, 19, 2⟩
def QUE_RING_CTRL.CONS_DOORBELL : Fld := ⟨0x8, 21, 1⟩
def QUE_RING_CTRL.NOTIFY_SYNC_EN : Fld := ⟨0x8, 22, 1⟩
def QUE_RING_CTRL.MSIX_EN : Fld := ⟨0x8, 23, 1⟩
def QUE_RING_CTRL.MSIX_VECTOR : Fld := ⟨0x8, 24, 11⟩
def QUE_RING_CTRL.ARMED : Fld := ⟨0x8, 35, 1⟩
def QUE_RING_CTRL.STALLED : Fld := ⟨0x8, 36, 1⟩
def QUE_RING_CTRL.COMPL_RING : Fld := ⟨0x8, 48, 11⟩
def QUE_RING_CTRL.VAL : Fld := ⟨0x8, 0, 64⟩
def QUE_RING_IDX.PI : Fld := ⟨0x10, 0, 32⟩
def QUE_RING_IDX.CI : Fld := ⟨0x10, 32, 32⟩
def QUE_RING_IDX.VAL : Fld := ⟨0x10, 0, 64⟩
def QUE_RING_SHADOW.ADDR : Fld := ⟨0x18, 0, 64⟩
def QUE_RING_SHADOW.VAL : Fld := ⟨0x18, 0, 64⟩
def QUE_RING_NOTIFY.SYNC : Fld := ⟨0x20, 0, 18⟩
def QUE_RING_NOTIFY.VAL : Fld := ⟨0x20, 0, 64⟩
def QUE_RING_RESV.RESERVED : Fld := ⟨0x28, 0, 32⟩
def QUE_RING_RESV.VAL : Fld := ⟨0x28, 0, 64⟩
def QUE_RING_CNT.STALE_DB : Fld := ⟨0x30, 0, 16⟩
def QUE_RING_CNT.REJECT_DB : Fld := ⟨0x30, 16, 16⟩
def QUE_RING_CNT.BAD_DESC : Fld := ⟨0x30, 32, 16⟩
def QUE_RING_CNT.VAL : Fld := ⟨0x30, 0, 64⟩
def QUE_SYNC_CTL.VOLUME : Fld := ⟨0x0, 0, 6⟩
def QUE_SYNC_CTL.ALLOCATED : Fld := ⟨0x0, 6, 1⟩
def QUE_SYNC_CTL.OVERFLOWED : Fld := ⟨0x0, 7, 1⟩
def QUE_SYNC_CTL.POISONED : Fld := ⟨0x0, 8, 1⟩
def QUE_SYNC_CTL.VAL : Fld := ⟨0x0, 0, 64⟩
def QUE_MBX_CFG.BOUND : Fld := ⟨0x0, 0, 1⟩
def QUE_MBX_CFG.FORM : Fld := ⟨0x0, 1, 1⟩
def QUE_MBX_CFG.ACK_MODE : Fld := ⟨0x0, 2, 1⟩
def QUE_MBX_CFG.VOLUME : Fld := ⟨0x0, 3, 6⟩
def QUE_MBX_CFG.NOTIFY_SYNC_EN : Fld := ⟨0x0, 9, 1⟩
def QUE_MBX_CFG.MSIX_EN : Fld := ⟨0x0, 10, 1⟩
def QUE_MBX_CFG.MSIX_VECTOR : Fld := ⟨0x0, 11, 11⟩
def QUE_MBX_CFG.NOTIFY_SYNC : Fld := ⟨0x0, 32, 18⟩
def QUE_MBX_CFG.VAL : Fld := ⟨0x0, 0, 64⟩
def QUE_MBX_STAT.STATE : Fld := ⟨0x0, 0, 2⟩
def QUE_MBX_STAT.WITHDRAWN : Fld := ⟨0x0, 2, 1⟩
def QUE_MBX_STAT.OVERRUN : Fld := ⟨0x0, 3, 1⟩
def QUE_MBX_STAT.NOTIFY_EMPTY : Fld := ⟨0x0, 4, 1⟩
def QUE_MBX_STAT.RET_CODE : Fld := ⟨0x0, 16, 16⟩
def QUE_MBX_STAT.POSTS : Fld := ⟨0x0, 32, 32⟩
def QUE_MBX_STAT.VAL : Fld := ⟨0x0, 0, 64⟩
def QUE_MBX_CTL.TAKE : Fld := ⟨0x8, 0, 1⟩
def QUE_MBX_CTL.ACK : Fld := ⟨0x8, 1, 1⟩
def QUE_MBX_CTL.WITHDRAW : Fld := ⟨0x8, 2, 1⟩
def QUE_MBX_CTL.CODE : Fld := ⟨0x8, 16, 16⟩
def QUE_MBX_CTL.VAL : Fld := ⟨0x8, 0, 64⟩
def QUE_MBX_GO.WORDS : Fld := ⟨0x10, 0, 5⟩
def QUE_MBX_GO.COMMAND : Fld := ⟨0x10, 16, 16⟩
def QUE_MBX_GO.VAL : Fld := ⟨0x10, 0, 64⟩
def QUE_MBX_WORD.WORD : Fld := ⟨0x18, 0, 32⟩
def QUE_MBX_WORD.VAL : Fld := ⟨0x18, 0, 64⟩
def QUE_MBX_HDR.WORDS : Fld := ⟨0x20, 0, 5⟩
def QUE_MBX_HDR.COMMAND : Fld := ⟨0x20, 16, 16⟩
def QUE_MBX_HDR.VAL : Fld := ⟨0x20, 0, 64⟩
def QUE_MBX_DATA.DATA : Fld := ⟨0x80, 0, 64⟩
def QUE_MBX_DATA.VAL : Fld := ⟨0x80, 0, 64⟩
/-! Volumes -/
def VOL_PROF_SITE.RINGS : Fld := ⟨0x0, 0, 11⟩
def VOL_PROF_SITE.SYNCS : Fld := ⟨0x0, 11, 11⟩
def VOL_PROF_SITE.BANKS : Fld := ⟨0x0, 22, 7⟩
def VOL_PROF_SITE.SRAM_MIB : Fld := ⟨0x0, 29, 8⟩
def VOL_PROF_SITE.ALARMS : Fld := ⟨0x0, 37, 8⟩
def VOL_PROF_SITE.OPEN_CMDS : Fld := ⟨0x0, 45, 10⟩
def VOL_PROF_SITE.VAL : Fld := ⟨0x0, 0, 64⟩
def VOL_PROF_SPAN.FIRST_SITE : Fld := ⟨0x8, 0, 7⟩
def VOL_PROF_SPAN.SITE_COUNT : Fld := ⟨0x8, 8, 8⟩
def VOL_PROF_SPAN.VAL : Fld := ⟨0x8, 0, 64⟩
def VOL_PROF_MEM.HBM_GIB : Fld := ⟨0x10, 0, 10⟩
def VOL_PROF_MEM.CHANNELS : Fld := ⟨0x10, 16, 2⟩
def VOL_PROF_MEM.VAL : Fld := ⟨0x10, 0, 64⟩
def VOL_PROF_POLICY.CLASS_MAX : Fld := ⟨0x18, 0, 2⟩
def VOL_PROF_POLICY.PREEMPTIBLE : Fld := ⟨0x18, 2, 1⟩
def VOL_PROF_POLICY.NOTICE_US : Fld := ⟨0x18, 4, 16⟩
def VOL_PROF_POLICY.LEAVE_SITE_LU : Fld := ⟨0x18, 20, 10⟩
def VOL_PROF_POLICY.LEAVE_WAFER : Fld := ⟨0x18, 32, 11⟩
def VOL_PROF_POLICY.VAL : Fld := ⟨0x18, 0, 64⟩
def VOL_HOSTWIN_BASE.BASE : Fld := ⟨0x0, 12, 36⟩
def VOL_HOSTWIN_BASE.PORT : Fld := ⟨0x0, 48, 5⟩
def VOL_HOSTWIN_BASE.VALID : Fld := ⟨0x0, 63, 1⟩
def VOL_HOSTWIN_BASE.VAL : Fld := ⟨0x0, 0, 64⟩
def VOL_HOSTWIN_LEN.LENGTH : Fld := ⟨0x8, 0, 48⟩
def VOL_HOSTWIN_LEN.WRITE : Fld := ⟨0x8, 48, 1⟩
def VOL_HOSTWIN_LEN.VAL : Fld := ⟨0x8, 0, 64⟩
def VOL_ADM_CNT.SERVED : Fld := ⟨0x0, 0, 32⟩
def VOL_ADM_CNT.DEFERRED : Fld := ⟨0x0, 32, 16⟩
def VOL_ADM_CNT.REFUSED : Fld := ⟨0x0, 48, 16⟩
def VOL_ADM_CNT.VAL : Fld := ⟨0x0, 0, 64⟩
def VOL_ADM_LAST.CODE : Fld := ⟨0x20, 0, 12⟩
def VOL_ADM_LAST.VOLUME : Fld := ⟨0x20, 12, 6⟩
def VOL_ADM_LAST.CLASS : Fld := ⟨0x20, 18, 2⟩
def VOL_ADM_LAST.RING : Fld := ⟨0x20, 20, 11⟩
def VOL_ADM_LAST.VALID : Fld := ⟨0x20, 31, 1⟩
def VOL_ADM_LAST.VAL : Fld := ⟨0x20, 0, 64⟩
def VOL_ADM_PREEMPT.PREEMPTS : Fld := ⟨0x28, 0, 32⟩
def VOL_ADM_PREEMPT.RESTORES : Fld := ⟨0x28, 32, 32⟩
def VOL_ADM_PREEMPT.VAL : Fld := ⟨0x28, 0, 64⟩
def VOL_ADM_OPEN.OPEN : Fld := ⟨0x100, 0, 10⟩
def VOL_ADM_OPEN.VAL : Fld := ⟨0x100, 0, 64⟩
/-! Fused commands -/
def CMD_CFG.STAGE_WD_US : Fld := ⟨0x0, 0, 32⟩
def CMD_CFG.CMD_TIMEOUT_MS : Fld := ⟨0x0, 32, 16⟩
def CMD_CFG.VAL : Fld := ⟨0x0, 0, 64⟩
def CMD_EVT.ABORT : Fld := ⟨0x8, 0, 1⟩
def CMD_EVT.WATCHDOG : Fld := ⟨0x8, 1, 1⟩
def CMD_EVT.COMMIT_FAULT : Fld := ⟨0x8, 2, 1⟩
def CMD_EVT.ROT_REBUILD : Fld := ⟨0x8, 3, 1⟩
def CMD_EVT.ABORTS : Fld := ⟨0x8, 16, 16⟩
def CMD_EVT.VAL : Fld := ⟨0x8, 0, 64⟩
def CMD_SBUF.FREE_KIB : Fld := ⟨0x10, 0, 12⟩
def CMD_SBUF.HOMED : Fld := ⟨0x10, 12, 10⟩
def CMD_SBUF.VAL : Fld := ⟨0x10, 0, 64⟩
def CMD_ROT_CFG.VALID : Fld := ⟨0x0, 0, 1⟩
def CMD_ROT_CFG.VOLUME : Fld := ⟨0x0, 1, 6⟩
def CMD_ROT_CFG.FIRST : Fld := ⟨0x0, 7, 7⟩
def CMD_ROT_CFG.MEMBERS : Fld := ⟨0x0, 14, 8⟩
def CMD_ROT_CFG.PAGE : Fld := ⟨0x0, 22, 8⟩
def CMD_ROT_CFG.HALF : Fld := ⟨0x0, 30, 1⟩
def CMD_ROT_CFG.STATE : Fld := ⟨0x0, 32, 3⟩
def CMD_ROT_CFG.TURN_CLUSTER : Fld := ⟨0x0, 36, 4⟩
def CMD_ROT_CFG.VAL : Fld := ⟨0x0, 0, 64⟩
def CMD_ROT_BANKS.HALF_A : Fld := ⟨0x8, 0, 6⟩
def CMD_ROT_BANKS.HALF_B : Fld := ⟨0x8, 8, 6⟩
def CMD_ROT_BANKS.BANKS : Fld := ⟨0x8, 16, 6⟩
def CMD_ROT_BANKS.VAL : Fld := ⟨0x8, 0, 64⟩
def CMD_ROT_SRAM_A.ADDR : Fld := ⟨0x10, 0, 64⟩
def CMD_ROT_SRAM_A.VAL : Fld := ⟨0x10, 0, 64⟩
def CMD_ROT_SRAM_B.ADDR : Fld := ⟨0x18, 0, 64⟩
def CMD_ROT_SRAM_B.VAL : Fld := ⟨0x18, 0, 64⟩
def CMD_ROT_SIZE.SRAM_BYTES : Fld := ⟨0x20, 0, 32⟩
def CMD_ROT_SIZE.STRIDE : Fld := ⟨0x20, 32, 32⟩
def CMD_ROT_SIZE.VAL : Fld := ⟨0x20, 0, 64⟩
def CMD_ROT_IMAGE.IMAGE : Fld := ⟨0x28, 0, 64⟩
def CMD_ROT_IMAGE.VAL : Fld := ⟨0x28, 0, 64⟩
def CMD_ROT_TURNS.TURNS : Fld := ⟨0x30, 0, 32⟩
def CMD_ROT_TURNS.CALLED : Fld := ⟨0x30, 32, 1⟩
def CMD_ROT_TURNS.VAL : Fld := ⟨0x30, 0, 64⟩
/-! Matrix engines -/
def MAT_STAT.STATE : Fld := ⟨0x0, 0, 3⟩
def MAT_STAT.ARRAYS_BUSY : Fld := ⟨0x0, 3, 8⟩
def MAT_STAT.VOLUME : Fld := ⟨0x0, 11, 6⟩
def MAT_STAT.CLASS : Fld := ⟨0x0, 17, 2⟩
def MAT_STAT.VAL : Fld := ⟨0x0, 0, 64⟩
def MAT_STEPS.STEPS : Fld := ⟨0x8, 0, 64⟩
def MAT_STEPS.VAL : Fld := ⟨0x8, 0, 64⟩
def MAT_TILES.TILES : Fld := ⟨0x10, 0, 64⟩
def MAT_TILES.VAL : Fld := ⟨0x10, 0, 64⟩
def MAT_EVT.SAT_SEEN : Fld := ⟨0x18, 0, 1⟩
def MAT_EVT.FP_SEEN : Fld := ⟨0x18, 1, 1⟩
def MAT_EVT.PROGRAM : Fld := ⟨0x18, 2, 1⟩
def MAT_EVT.PARITY : Fld := ⟨0x18, 3, 1⟩
def MAT_EVT.SAVED : Fld := ⟨0x18, 4, 1⟩
def MAT_EVT.RESTORED : Fld := ⟨0x18, 5, 1⟩
def MAT_EVT.VAL : Fld := ⟨0x18, 0, 64⟩
def MAT_DBG_CTL.HALT : Fld := ⟨0x20, 0, 1⟩
def MAT_DBG_CTL.RESUME : Fld := ⟨0x20, 1, 1⟩
def MAT_DBG_CTL.VAL : Fld := ⟨0x20, 0, 64⟩
/-! Associative arrays -/
def ASC_CFG.MAINT_SHARE : Fld := ⟨0x0, 0, 4⟩
def ASC_CFG.VAL : Fld := ⟨0x0, 0, 64⟩
def ASC_STAT.RATE_STEP : Fld := ⟨0x8, 0, 3⟩
def ASC_STAT.VAL : Fld := ⟨0x8, 0, 64⟩
def ASC_EVT.ECC_FIXED : Fld := ⟨0x10, 0, 1⟩
def ASC_EVT.POISON : Fld := ⟨0x10, 1, 1⟩
def ASC_EVT.MOVE_CONFLICT : Fld := ⟨0x10, 2, 1⟩
def ASC_EVT.PAIR_REFUSED : Fld := ⟨0x10, 3, 1⟩
def ASC_EVT.STEP_CHANGE : Fld := ⟨0x10, 4, 1⟩
def ASC_EVT.VAL : Fld := ⟨0x10, 0, 64⟩
def ASC_SEARCHES.SEARCHES : Fld := ⟨0x18, 0, 64⟩
def ASC_SEARCHES.VAL : Fld := ⟨0x18, 0, 64⟩
def ASC_BANK_STAT.POISONED : Fld := ⟨0x1000, 0, 1⟩
def ASC_BANK_STAT.POISON_ROW : Fld := ⟨0x1000, 1, 12⟩
def ASC_BANK_STAT.MOVE_BUSY : Fld := ⟨0x1000, 13, 1⟩
def ASC_BANK_STAT.PAIR_BUSY : Fld := ⟨0x1000, 14, 1⟩
def ASC_BANK_STAT.VALID_ROWS : Fld := ⟨0x1000, 15, 13⟩
def ASC_BANK_STAT.VAL : Fld := ⟨0x1000, 0, 64⟩
def ASC_MOVE.FIRST : Fld := ⟨0x1008, 0, 12⟩
def ASC_MOVE.LAST : Fld := ⟨0x1008, 12, 12⟩
def ASC_MOVE.DIR : Fld := ⟨0x1008, 24, 1⟩
def ASC_MOVE.WIDTH : Fld := ⟨0x1008, 25, 2⟩
def ASC_MOVE.START : Fld := ⟨0x1008, 27, 1⟩
def ASC_MOVE.VAL : Fld := ⟨0x1008, 0, 64⟩
def ASC_MOVE_STAT.BUSY : Fld := ⟨0x1010, 0, 1⟩
def ASC_MOVE_STAT.NEXT : Fld := ⟨0x1010, 1, 12⟩
def ASC_MOVE_STAT.RESULT : Fld := ⟨0x1010, 13, 3⟩
def ASC_MOVE_STAT.VAL : Fld := ⟨0x1010, 0, 64⟩
def ASC_PAIR_TGT.VAL : Fld := ⟨0x1018, 0, 64⟩
def ASC_PAIR_CTL.COMMIT : Fld := ⟨0x1028, 0, 1⟩
def ASC_PAIR_CTL.VAL : Fld := ⟨0x1028, 0, 64⟩
def ASC_PAIR_STAT.BUSY : Fld := ⟨0x1030, 0, 1⟩
def ASC_PAIR_STAT.RESULT : Fld := ⟨0x1030, 1, 3⟩
def ASC_PAIR_STAT.VAL : Fld := ⟨0x1030, 0, 64⟩
/-! Cores -/
def CSR_VNXSTAT.QRESULT : Fld := ⟨0x800, 0, 3⟩
def CSR_VNXSTAT.NAN_SEEN : Fld := ⟨0x800, 8, 1⟩
def CSR_VNXSTAT.SAT : Fld := ⟨0x800, 9, 1⟩
def CSR_VNXSTAT.VAL : Fld := ⟨0x800, 0, 64⟩
def CSR_VNXWAIT.WAIT_US : Fld := ⟨0x801, 0, 32⟩
def CSR_VNXWAIT.VAL : Fld := ⟨0x801, 0, 64⟩
def CSR_VNXTREE.BASE : Fld := ⟨0x802, 0, 64⟩
def CSR_VNXTREE.VAL : Fld := ⟨0x802, 0, 64⟩
def CSR_VNXTREEN.NODES : Fld := ⟨0x803, 0, 32⟩
def CSR_VNXTREEN.VAL : Fld := ⟨0x803, 0, 64⟩
def CSR_VNXID.SITE : Fld := ⟨0xcc0, 0, 7⟩
def CSR_VNXID.WAFER : Fld := ⟨0xcc0, 7, 4⟩
def CSR_VNXID.CLUSTER : Fld := ⟨0xcc0, 11, 4⟩
def CSR_VNXID.CORE : Fld := ⟨0xcc0, 15, 3⟩
def CSR_VNXID.VOLUME : Fld := ⟨0xcc0, 18, 6⟩
def CSR_VNXID.VAL : Fld := ⟨0xcc0, 0, 64⟩
def COR_EVT.TRAP : Fld := ⟨0x0, 0, 1⟩
def COR_EVT.ECC_FIXED : Fld := ⟨0x0, 1, 1⟩
def COR_EVT.ECC_UNCORR : Fld := ⟨0x0, 2, 1⟩
def COR_EVT.VAL : Fld := ⟨0x0, 0, 64⟩
def COR_LAST_TRAP.VALID : Fld := ⟨0x8, 0, 1⟩
def COR_LAST_TRAP.CAUSE : Fld := ⟨0x8, 1, 8⟩
def COR_LAST_TRAP.CORE : Fld := ⟨0x8, 9, 7⟩
def COR_LAST_TRAP.VOLUME : Fld := ⟨0x8, 16, 6⟩
def COR_LAST_TRAP.VAL : Fld := ⟨0x8, 0, 64⟩
def COR_LAST_TVAL.TVAL : Fld := ⟨0x10, 0, 64⟩
def COR_LAST_TVAL.VAL : Fld := ⟨0x10, 0, 64⟩
def COR_CL.BUSY : Fld := ⟨0x0, 0, 8⟩
def COR_CL.DRAINING : Fld := ⟨0x0, 8, 8⟩
def COR_CL.VAL : Fld := ⟨0x0, 0, 64⟩
def COR_CL_UNITS.UNITS : Fld := ⟨0x8, 0, 64⟩
def COR_CL_UNITS.VAL : Fld := ⟨0x8, 0, 64⟩
def COR_CL_LOADS.LOADS : Fld := ⟨0x10, 0, 32⟩
def COR_CL_LOADS.TRAPS : Fld := ⟨0x10, 32, 32⟩
def COR_CL_LOADS.VAL : Fld := ⟨0x10, 0, 64⟩
/-! Ensembles -/
def ENS_SLOT_CFG.VALID : Fld := ⟨0x0, 0, 1⟩
def ENS_SLOT_CFG.VOLUME : Fld := ⟨0x0, 1, 6⟩
def ENS_SLOT_CFG.ROTATED : Fld := ⟨0x0, 7, 1⟩
def ENS_SLOT_CFG.REPLICAS : Fld := ⟨0x0, 8, 3⟩
def ENS_SLOT_CFG.VAL : Fld := ⟨0x0, 0, 64⟩
def ENS_SLOT_RES.ADDR : Fld := ⟨0x8, 0, 64⟩
def ENS_SLOT_RES.VAL : Fld := ⟨0x8, 0, 64⟩
def ENS_SLOT_RESLEN.BYTES : Fld := ⟨0x10, 0, 32⟩
def ENS_SLOT_RESLEN.PAGE_BYTES : Fld := ⟨0x10, 32, 32⟩
def ENS_SLOT_RESLEN.VAL : Fld := ⟨0x10, 0, 64⟩
def ENS_SLOT_PAGE.ADDR : Fld := ⟨0x18, 0, 64⟩
def ENS_SLOT_PAGE.VAL : Fld := ⟨0x18, 0, 64⟩
/-! Leave -/
def LVE_SITE_STAT.CHARGE : Fld := ⟨0x0, 0, 10⟩
def LVE_SITE_STAT.CEILING : Fld := ⟨0x0, 10, 10⟩
def LVE_SITE_STAT.ASC_STEP : Fld := ⟨0x0, 20, 3⟩
def LVE_SITE_STAT.CLK_STEP : Fld := ⟨0x0, 23, 3⟩
def LVE_SITE_STAT.EMERGENCY : Fld := ⟨0x0, 26, 1⟩
def LVE_SITE_STAT.BASE_MAX : Fld := ⟨0x0, 27, 8⟩
def LVE_SITE_STAT.COMPUTE_MAX : Fld := ⟨0x0, 35, 8⟩
def LVE_SITE_STAT.VAL : Fld := ⟨0x0, 0, 64⟩
def LVE_SITE_CNT.GRANTS : Fld := ⟨0x8, 0, 32⟩
def LVE_SITE_CNT.DENIALS : Fld := ⟨0x8, 32, 16⟩
def LVE_SITE_CNT.RECALLS : Fld := ⟨0x8, 48, 16⟩
def LVE_SITE_CNT.VAL : Fld := ⟨0x8, 0, 64⟩
def LVE_SITE_EVT.STEP_UP : Fld := ⟨0x10, 0, 1⟩
def LVE_SITE_EVT.STEP_DOWN : Fld := ⟨0x10, 1, 1⟩
def LVE_SITE_EVT.DENIED : Fld := ⟨0x10, 2, 1⟩
def LVE_SITE_EVT.RECALLED : Fld := ⟨0x10, 3, 1⟩
def LVE_SITE_EVT.EMERGENCY : Fld := ⟨0x10, 4, 1⟩
def LVE_SITE_EVT.RAMP_HELD : Fld := ⟨0x10, 5, 1⟩
def LVE_SITE_EVT.VAL : Fld := ⟨0x10, 0, 64⟩
def LVE_SITE_CFG.FORCE_EN : Fld := ⟨0x18, 0, 1⟩
def LVE_SITE_CFG.FORCE_STEP : Fld := ⟨0x18, 1, 3⟩
def LVE_SITE_CFG.VAL : Fld := ⟨0x18, 0, 64⟩
def LVE_SITE_SENSOR.BASE : Fld := ⟨0x20, 0, 16⟩
def LVE_SITE_SENSOR.COMPUTE : Fld := ⟨0x20, 16, 16⟩
def LVE_SITE_SENSOR.VAL : Fld := ⟨0x20, 0, 64⟩
def LVE_W_POOL.POOL : Fld := ⟨0x0, 0, 17⟩
def LVE_W_POOL.GRANTED : Fld := ⟨0x0, 17, 17⟩
def LVE_W_POOL.FLOOR : Fld := ⟨0x0, 34, 17⟩
def LVE_W_POOL.EMERGENCY : Fld := ⟨0x0, 51, 1⟩
def LVE_W_POOL.VAL : Fld := ⟨0x0, 0, 64⟩
def LVE_W_HELD.FOLIO : Fld := ⟨0x8, 0, 16⟩
def LVE_W_HELD.INTERACTIVE : Fld := ⟨0x8, 16, 16⟩
def LVE_W_HELD.BATCH : Fld := ⟨0x8, 32, 16⟩
def LVE_W_HELD.BACKGROUND : Fld := ⟨0x8, 48, 16⟩
def LVE_W_HELD.VAL : Fld := ⟨0x8, 0, 64⟩
def LVE_W_WAIT.FOLIO : Fld := ⟨0x10, 0, 16⟩
def LVE_W_WAIT.INTERACTIVE : Fld := ⟨0x10, 16, 16⟩
def LVE_W_WAIT.BATCH : Fld := ⟨0x10, 32, 16⟩
def LVE_W_WAIT.BACKGROUND : Fld := ⟨0x10, 48, 16⟩
def LVE_W_WAIT.VAL : Fld := ⟨0x10, 0, 64⟩
def LVE_W_CNT.GRANTS : Fld := ⟨0x18, 0, 32⟩
def LVE_W_CNT.DENIALS : Fld := ⟨0x18, 32, 16⟩
def LVE_W_CNT.RECALLS : Fld := ⟨0x18, 48, 16⟩
def LVE_W_CNT.VAL : Fld := ⟨0x18, 0, 64⟩
def LVE_W_EVT.EMERGENCY : Fld := ⟨0x20, 0, 1⟩
def LVE_W_EVT.POOL_CHANGE : Fld := ⟨0x20, 1, 1⟩
def LVE_W_EVT.RAMP_HELD : Fld := ⟨0x20, 2, 1⟩
def LVE_W_EVT.VAL : Fld := ⟨0x20, 0, 64⟩
/-! Recovery -/
def FLT_CFG.TRANSFER_US : Fld := ⟨0x0, 0, 16⟩
def FLT_CFG.MAX_REPLAYS : Fld := ⟨0x0, 16, 2⟩
def FLT_CFG.ABORT_US : Fld := ⟨0x0, 32, 16⟩
def FLT_CFG.VAL : Fld := ⟨0x0, 0, 64⟩
def FLT_STAT.OWN : Fld := ⟨0x8, 0, 11⟩
def FLT_STAT.MIRROR : Fld := ⟨0x8, 11, 12⟩
def FLT_STAT.BUDDY : Fld := ⟨0x8, 23, 7⟩
def FLT_STAT.MIRROR_OK : Fld := ⟨0x8, 30, 1⟩
def FLT_STAT.VAL : Fld := ⟨0x8, 0, 64⟩
def FLT_EVT.TRANSFER_TIMEOUT : Fld := ⟨0x10, 0, 1⟩
def FLT_EVT.REPLAY : Fld := ⟨0x10, 1, 1⟩
def FLT_EVT.REPLAY_LIMIT : Fld := ⟨0x10, 2, 1⟩
def FLT_EVT.ABORT_SLOW : Fld := ⟨0x10, 3, 1⟩
def FLT_EVT.BUDDY_RUN : Fld := ⟨0x10, 4, 1⟩
def FLT_EVT.REMIRROR : Fld := ⟨0x10, 5, 1⟩
def FLT_EVT.REPLAYS : Fld := ⟨0x10, 16, 32⟩
def FLT_EVT.VAL : Fld := ⟨0x10, 0, 64⟩
def FLT_TWIN.OFFSET : Fld := ⟨0x20, 0, 32⟩
def FLT_TWIN.BYTES : Fld := ⟨0x20, 32, 31⟩
def FLT_TWIN.VALID : Fld := ⟨0x20, 63, 1⟩
def FLT_TWIN.VAL : Fld := ⟨0x20, 0, 64⟩
def FLT_W_CFG.SITE_MS : Fld := ⟨0x0, 0, 10⟩
def FLT_W_CFG.VOL_HB_MS : Fld := ⟨0x0, 16, 16⟩
def FLT_W_CFG.SVC_MS : Fld := ⟨0x0, 32, 13⟩
def FLT_W_CFG.VAL : Fld := ⟨0x0, 0, 64⟩
def FLT_W_EVT.SITE_RESET : Fld := ⟨0x8, 0, 1⟩
def FLT_W_EVT.VOLUME_HUNG : Fld := ⟨0x8, 1, 1⟩
def FLT_W_EVT.SVC_RESTART : Fld := ⟨0x8, 2, 1⟩
def FLT_W_EVT.VAL : Fld := ⟨0x8, 0, 64⟩
def FLT_W_SITE_LAST.SITE : Fld := ⟨0x10, 0, 7⟩
def FLT_W_SITE_LAST.REASON : Fld := ⟨0x10, 7, 3⟩
def FLT_W_SITE_LAST.VAL : Fld := ⟨0x10, 0, 64⟩
def FLT_W_LAST_RESET.CAUSE : Fld := ⟨0x20, 0, 3⟩
def FLT_W_LAST_RESET.VAL : Fld := ⟨0x20, 0, 64⟩
/-! Ports -/
def PRT_PCIE_CFG.ROLE : Fld := ⟨0x0, 0, 1⟩
def PRT_PCIE_CFG.MAX_RATE : Fld := ⟨0x0, 1, 3⟩
def PRT_PCIE_CFG.SPLIT : Fld := ⟨0x0, 4, 2⟩
def PRT_PCIE_CFG.ECRC_EN : Fld := ⟨0x0, 6, 1⟩
def PRT_PCIE_CFG.RESTART : Fld := ⟨0x0, 7, 1⟩
def PRT_PCIE_CFG.VF_FIRST : Fld := ⟨0x0, 8, 6⟩
def PRT_PCIE_CFG.VF_COUNT : Fld := ⟨0x0, 14, 7⟩
def PRT_PCIE_CFG.VAL : Fld := ⟨0x0, 0, 64⟩
def PRT_PCIE_STAT.RATE : Fld := ⟨0x8, 0, 3⟩
def PRT_PCIE_STAT.WIDTH : Fld := ⟨0x8, 3, 5⟩
def PRT_PCIE_STAT.LINK_UP : Fld := ⟨0x8, 8, 1⟩
def PRT_PCIE_STAT.FLIT : Fld := ⟨0x8, 9, 1⟩
def PRT_PCIE_STAT.UP : Fld := ⟨0x8, 10, 4⟩
def PRT_PCIE_STAT.VAL : Fld := ⟨0x8, 0, 64⟩
def PRT_PCIE_CNT.DB_DROPS : Fld := ⟨0x10, 0, 16⟩
def PRT_PCIE_CNT.HOST_ERRS : Fld := ⟨0x10, 16, 16⟩
def PRT_PCIE_CNT.ECRC_ERRS : Fld := ⟨0x10, 32, 16⟩
def PRT_PCIE_CNT.LATE_CPL : Fld := ⟨0x10, 48, 16⟩
def PRT_PCIE_CNT.VAL : Fld := ⟨0x10, 0, 64⟩
def PRT_PCIE_EVT.LINK_DOWN : Fld := ⟨0x18, 0, 1⟩
def PRT_PCIE_EVT.FLR : Fld := ⟨0x18, 1, 1⟩
def PRT_PCIE_EVT.ECRC : Fld := ⟨0x18, 2, 1⟩
def PRT_PCIE_EVT.UR_SENT : Fld := ⟨0x18, 3, 1⟩
def PRT_PCIE_EVT.VAL : Fld := ⟨0x18, 0, 64⟩
def PRT_RP_INWIN.BASE : Fld := ⟨0x40, 0, 64⟩
def PRT_RP_INWIN.VAL : Fld := ⟨0x40, 0, 64⟩
def PRT_RP_INWIN_LEN.LENGTH : Fld := ⟨0x8, 0, 48⟩
def PRT_RP_INWIN_LEN.VOLUME : Fld := ⟨0x8, 48, 6⟩
def PRT_RP_INWIN_LEN.VAL : Fld := ⟨0x8, 0, 64⟩
def PRT_RP_INWIN_TGT.TARGET : Fld := ⟨0x10, 0, 64⟩
def PRT_RP_INWIN_TGT.VAL : Fld := ⟨0x10, 0, 64⟩
def PRT_ETH_CFG.MODE : Fld := ⟨0x0, 0, 2⟩
def PRT_ETH_CFG.RESTART : Fld := ⟨0x0, 2, 1⟩
def PRT_ETH_CFG.PAUSE_QUANTA : Fld := ⟨0x0, 16, 16⟩
def PRT_ETH_CFG.VAL : Fld := ⟨0x0, 0, 64⟩
def PRT_ETH_STAT.UP : Fld := ⟨0x8, 0, 4⟩
def PRT_ETH_STAT.PAUSING : Fld := ⟨0x8, 4, 4⟩
def PRT_ETH_STAT.BUF_USED : Fld := ⟨0x8, 8, 24⟩
def PRT_ETH_STAT.VAL : Fld := ⟨0x8, 0, 64⟩
def PRT_ETH_RX.FRAMES : Fld := ⟨0x10, 0, 64⟩
def PRT_ETH_RX.VAL : Fld := ⟨0x10, 0, 64⟩
def PRT_ETH_DROP.CHECK : Fld := ⟨0x18, 0, 16⟩
def PRT_ETH_DROP.RING_FULL : Fld := ⟨0x18, 16, 16⟩
def PRT_ETH_DROP.RING_OFF : Fld := ⟨0x18, 32, 16⟩
def PRT_ETH_DROP.OVERSIZE : Fld := ⟨0x18, 48, 16⟩
def PRT_ETH_DROP.VAL : Fld := ⟨0x18, 0, 64⟩
def PRT_ETH_DROP2.BUF_FULL : Fld := ⟨0x20, 0, 16⟩
def PRT_ETH_DROP2.FOREIGN : Fld := ⟨0x20, 16, 16⟩
def PRT_ETH_DROP2.STAMP_SHORT : Fld := ⟨0x20, 32, 16⟩
def PRT_ETH_DROP2.VAL : Fld := ⟨0x20, 0, 64⟩
def PRT_HBM_STAT.TRAINED : Fld := ⟨0x0, 0, 1⟩
def PRT_HBM_STAT.TEMP : Fld := ⟨0x0, 1, 8⟩
def PRT_HBM_STAT.REFRESH : Fld := ⟨0x0, 9, 2⟩
def PRT_HBM_STAT.VAL : Fld := ⟨0x0, 0, 64⟩
def PRT_HBM_ECC.CORRECTED : Fld := ⟨0x8, 0, 32⟩
def PRT_HBM_ECC.UNCORRECTED : Fld := ⟨0x8, 32, 32⟩
def PRT_HBM_ECC.VAL : Fld := ⟨0x8, 0, 64⟩
def PRT_HBM_REPAIR.PENDING : Fld := ⟨0x10, 0, 8⟩
def PRT_HBM_REPAIR.DONE : Fld := ⟨0x10, 8, 8⟩
def PRT_HBM_REPAIR.VAL : Fld := ⟨0x10, 0, 64⟩
/-! Associative arrays -/
def ASC_PAIR_TGT2.VAL : Fld := ⟨0x1020, 0, 64⟩
end F

/-- Which dies hold a block: every site, every edge die, or only the acting root's edge die. -/
inductive DieKind where
  | site
  | edge
  | root
deriving DecidableEq, Repr

/-- A register of `count` blocks: its place, the bits writes change, the bits a written 1 clears, its reset value. -/
structure RegDesc where
  kind : DieKind
  base : Nat
  stride : Nat
  count : Nat
  rw : Nat
  w1c : Nat
  reset : Nat
deriving DecidableEq, Repr

/-- Blocks of spec file 01. -/
def regs01 : List RegDesc :=
  [⟨.edge, 0xf000020000, 0x80, 16, 0xffffffff001fff3f, 0x0, 0x138800100e00⟩,
   ⟨.edge, 0xf000020008, 0x80, 16, 0x0, 0x0, 0x0⟩,
   ⟨.edge, 0xf000020010, 0x80, 16, 0x0, 0x0, 0x0⟩,
   ⟨.edge, 0xf000020018, 0x80, 16, 0x0, 0x0, 0x0⟩,
   ⟨.edge, 0xf000020020, 0x80, 16, 0x0, 0x0, 0x0⟩,
   ⟨.edge, 0xf000020028, 0x80, 16, 0xffffffffffffffff, 0x0, 0x0⟩,
   ⟨.edge, 0xf000020030, 0x80, 16, 0xffffffffffffffff, 0x0, 0x100000000⟩,
   ⟨.edge, 0xf000020038, 0x80, 16, 0xffffffffffff, 0x0, 0x100000⟩,
   ⟨.edge, 0xf000020040, 0x80, 16, 0xffffffff, 0x0, 0x0⟩,
   ⟨.edge, 0xf000020048, 0x80, 16, 0x0, 0x7f, 0x0⟩,
   ⟨.edge, 0xf000020050, 0x80, 16, 0x7f, 0x0, 0x0⟩,
   ⟨.site, 0xf000010000, 0x8, 256, 0x0, 0x0, 0x9000000000000⟩,
   ⟨.site, 0xf000011000, 0x40, 256, 0x3fff3f, 0x0, 0x0⟩,
   ⟨.site, 0xf000011008, 0x40, 256, 0xffffffffffff, 0x0, 0x0⟩,
   ⟨.site, 0xf000011010, 0x40, 256, 0xffffffffffff, 0x0, 0x0⟩,
   ⟨.site, 0xf000011018, 0x40, 256, 0xffffffff03ffffff, 0x0, 0x0⟩,
   ⟨.site, 0xf000011020, 0x40, 256, 0x0, 0xff16, 0x0⟩,
   ⟨.site, 0xf000010800, 0x8, 256, 0x0, 0x0, 0x0⟩]

/-- Blocks of spec file 04. -/
def regs04 : List RegDesc :=
  [⟨.root, 0xf000081000, 0x0, 1, 0xf, 0x0, 0x0⟩,
   ⟨.root, 0xf000081070, 0x0, 1, 0x0, 0x0, 0x0⟩,
   ⟨.root, 0xf0000810b0, 0x0, 1, 0x0, 0x0, 0x0⟩,
   ⟨.root, 0xf000080000, 0x8, 328, 0x0, 0x0, 0x0⟩,
   ⟨.root, 0xf000081040, 0x8, 6, 0x0, 0x0, 0x0⟩,
   ⟨.root, 0xf000081080, 0x8, 6, 0x0, 0x0, 0x0⟩,
   ⟨.root, 0xf000082000, 0x8, 512, 0x0, 0x0, 0x0⟩]

/-- Blocks of spec file 05. -/
def regs05 : List RegDesc :=
  [⟨.site, 0xf000030000, 0x100, 4, 0x0, 0x0, 0x0⟩,
   ⟨.site, 0xf000030008, 0x100, 4, 0xffffffffff0fff, 0x0, 0x271000c8280814⟩,
   ⟨.site, 0xf000030010, 0x100, 4, 0x0, 0x0, 0x0⟩,
   ⟨.site, 0xf000030018, 0x100, 4, 0x0, 0x0, 0x0⟩,
   ⟨.site, 0xf000030020, 0x100, 4, 0x0, 0x0, 0x0⟩,
   ⟨.site, 0xf000030028, 0x100, 4, 0x0, 0xff, 0x0⟩,
   ⟨.site, 0xf000030030, 0x100, 4, 0x0, 0x0, 0x0⟩,
   ⟨.site, 0xf000030040, 0x100, 4, 0x0, 0x0, 0x0⟩,
   ⟨.edge, 0xf000031000, 0x100, 2, 0x0, 0x0, 0x0⟩,
   ⟨.edge, 0xf000031008, 0x100, 2, 0xffffffffff0fff, 0x0, 0x271000c814080a⟩,
   ⟨.edge, 0xf000031010, 0x100, 2, 0x0, 0x0, 0x0⟩,
   ⟨.edge, 0xf000031018, 0x100, 2, 0x0, 0x0, 0x0⟩,
   ⟨.edge, 0xf000031020, 0x100, 2, 0x0, 0x0, 0x0⟩,
   ⟨.edge, 0xf000031028, 0x100, 2, 0x0, 0x1ff, 0x0⟩,
   ⟨.edge, 0xf000031030, 0x100, 2, 0x0, 0x0, 0x0⟩,
   ⟨.edge, 0xf000030000, 0x100, 2, 0x0, 0x0, 0x0⟩,
   ⟨.edge, 0xf000030008, 0x100, 2, 0xffffffffff0fff, 0x0, 0x271000c8280814⟩,
   ⟨.edge, 0xf000030010, 0x100, 2, 0x0, 0x0, 0x0⟩,
   ⟨.edge, 0xf000030018, 0x100, 2, 0x0, 0x0, 0x0⟩,
   ⟨.edge, 0xf000030020, 0x100, 2, 0x0, 0x0, 0x0⟩,
   ⟨.edge, 0xf000030028, 0x100, 2, 0x0, 0xff, 0x0⟩,
   ⟨.edge, 0xf000030030, 0x100, 2, 0x0, 0x0, 0x0⟩,
   ⟨.site, 0xf000030040, 0x100, 4, 0x0, 0x0, 0x0⟩,
   ⟨.site, 0xf000030048, 0x100, 4, 0x0, 0x0, 0x0⟩,
   ⟨.site, 0xf000030050, 0x100, 4, 0x0, 0x0, 0x0⟩,
   ⟨.site, 0xf000030058, 0x100, 4, 0x0, 0x0, 0x0⟩,
   ⟨.site, 0xf000030060, 0x100, 4, 0x0, 0x0, 0x0⟩,
   ⟨.site, 0xf000030068, 0x100, 4, 0x0, 0x0, 0x0⟩,
   ⟨.site, 0xf000030070, 0x100, 4, 0x0, 0x0, 0x0⟩,
   ⟨.site, 0xf000030078, 0x100, 4, 0x0, 0x0, 0x0⟩] ++
  [⟨.site, 0xf000030080, 0x100, 4, 0x0, 0x0, 0x0⟩,
   ⟨.edge, 0xf000030040, 0x100, 2, 0x0, 0x0, 0x0⟩,
   ⟨.edge, 0xf000030048, 0x100, 2, 0x0, 0x0, 0x0⟩,
   ⟨.edge, 0xf000030050, 0x100, 2, 0x0, 0x0, 0x0⟩,
   ⟨.edge, 0xf000030058, 0x100, 2, 0x0, 0x0, 0x0⟩,
   ⟨.edge, 0xf000030060, 0x100, 2, 0x0, 0x0, 0x0⟩,
   ⟨.edge, 0xf000030068, 0x100, 2, 0x0, 0x0, 0x0⟩,
   ⟨.edge, 0xf000030070, 0x100, 2, 0x0, 0x0, 0x0⟩,
   ⟨.edge, 0xf000030078, 0x100, 2, 0x0, 0x0, 0x0⟩,
   ⟨.edge, 0xf000030080, 0x100, 2, 0x0, 0x0, 0x0⟩]

/-- Blocks of spec file 06. -/
def regs06 : List RegDesc :=
  [⟨.site, 0xf000050000, 0x0, 1, 0x1, 0x0, 0x1⟩,
   ⟨.site, 0xf000050008, 0x0, 1, 0x0, 0x0, 0x0⟩,
   ⟨.site, 0xf000050010, 0x0, 1, 0x0, 0x0, 0x0⟩,
   ⟨.site, 0xf000050018, 0x0, 1, 0x0, 0x0, 0x0⟩,
   ⟨.site, 0xf000050020, 0x0, 1, 0x0, 0x0, 0x0⟩,
   ⟨.site, 0xf000050028, 0x0, 1, 0x0, 0x0, 0x0⟩,
   ⟨.site, 0xf000050030, 0x0, 1, 0x0, 0x0, 0x0⟩,
   ⟨.site, 0xf000050038, 0x0, 1, 0x0, 0x1, 0x0⟩,
   ⟨.site, 0xf000050040, 0x0, 1, 0x0, 0x0, 0x0⟩]

/-- Blocks of spec file 07. -/
def regs07 : List RegDesc :=
  [⟨.site, 0x30000f0000, 0x0, 1, 0xffff, 0x0, 0x3e8⟩,
   ⟨.site, 0x30000f0008, 0x0, 1, 0x0, 0x0, 0x0⟩,
   ⟨.site, 0x30000f0010, 0x0, 1, 0x0, 0x3f, 0x0⟩,
   ⟨.site, 0x30000f0018, 0x0, 1, 0x0, 0x0, 0x0⟩,
   ⟨.site, 0x3000000000, 0x40, 2048, 0xffffffffffffffff, 0x0, 0x0⟩,
   ⟨.site, 0x3000000008, 0x40, 2048, 0x7ff0007ffffffff, 0x0, 0x0⟩,
   ⟨.site, 0x3000000010, 0x40, 2048, 0xffffffffffffffff, 0x0, 0x0⟩,
   ⟨.site, 0x3000000018, 0x40, 2048, 0xffffffffffffffff, 0x0, 0x0⟩,
   ⟨.site, 0x3000000020, 0x40, 2048, 0x3ffff, 0x0, 0x0⟩,
   ⟨.site, 0x3000000028, 0x40, 2048, 0x0, 0x0, 0x0⟩,
   ⟨.site, 0x3000000030, 0x40, 2048, 0x0, 0x0, 0x0⟩,
   ⟨.site, 0x3000050000, 0x8, 2048, 0x7f, 0x80, 0x0⟩,
   ⟨.edge, 0x3000000000, 0x400, 64, 0x3ffff003fffff, 0x0, 0x0⟩,
   ⟨.edge, 0x3000000100, 0x400, 64, 0x10, 0xc, 0x0⟩,
   ⟨.edge, 0x3000000108, 0x400, 64, 0x0, 0x0, 0x0⟩,
   ⟨.edge, 0x3000000110, 0x400, 64, 0x0, 0x0, 0x0⟩,
   ⟨.edge, 0x3000000118, 0x400, 64, 0xffffffff, 0x0, 0x0⟩,
   ⟨.edge, 0x3000000120, 0x400, 64, 0x0, 0x0, 0x0⟩,
   ⟨.edge, 0x3000000180, 0x400, 64, 0xffffffffffffffff, 0x0, 0x0⟩,
   ⟨.edge, 0x3000000188, 0x400, 64, 0xffffffffffffffff, 0x0, 0x0⟩,
   ⟨.edge, 0x3000000190, 0x400, 64, 0xffffffffffffffff, 0x0, 0x0⟩,
   ⟨.edge, 0x3000000198, 0x400, 64, 0xffffffffffffffff, 0x0, 0x0⟩,
   ⟨.edge, 0x30000001a0, 0x400, 64, 0xffffffffffffffff, 0x0, 0x0⟩,
   ⟨.edge, 0x30000001a8, 0x400, 64, 0xffffffffffffffff, 0x0, 0x0⟩,
   ⟨.edge, 0x30000001b0, 0x400, 64, 0xffffffffffffffff, 0x0, 0x0⟩,
   ⟨.edge, 0x30000001b8, 0x400, 64, 0xffffffffffffffff, 0x0, 0x0⟩,
   ⟨.edge, 0x30000001c0, 0x400, 64, 0xffffffffffffffff, 0x0, 0x0⟩,
   ⟨.edge, 0x30000001c8, 0x400, 64, 0xffffffffffffffff, 0x0, 0x0⟩,
   ⟨.edge, 0x30000001d0, 0x400, 64, 0xffffffffffffffff, 0x0, 0x0⟩,
   ⟨.edge, 0x30000001d8, 0x400, 64, 0xffffffffffffffff, 0x0, 0x0⟩] ++
  [⟨.edge, 0x30000001e0, 0x400, 64, 0xffffffffffffffff, 0x0, 0x0⟩,
   ⟨.edge, 0x30000001e8, 0x400, 64, 0xffffffffffffffff, 0x0, 0x0⟩,
   ⟨.edge, 0x30000001f0, 0x400, 64, 0xffffffffffffffff, 0x0, 0x0⟩,
   ⟨.edge, 0x30000001f8, 0x400, 64, 0xffffffffffffffff, 0x0, 0x0⟩,
   ⟨.edge, 0x3000000200, 0x400, 64, 0x10, 0xc, 0x0⟩,
   ⟨.edge, 0x3000000208, 0x400, 64, 0x0, 0x0, 0x0⟩,
   ⟨.edge, 0x3000000210, 0x400, 64, 0x0, 0x0, 0x0⟩,
   ⟨.edge, 0x3000000218, 0x400, 64, 0xffffffff, 0x0, 0x0⟩,
   ⟨.edge, 0x3000000220, 0x400, 64, 0x0, 0x0, 0x0⟩,
   ⟨.edge, 0x3000000280, 0x400, 64, 0xffffffffffffffff, 0x0, 0x0⟩,
   ⟨.edge, 0x3000000288, 0x400, 64, 0xffffffffffffffff, 0x0, 0x0⟩,
   ⟨.edge, 0x3000000290, 0x400, 64, 0xffffffffffffffff, 0x0, 0x0⟩,
   ⟨.edge, 0x3000000298, 0x400, 64, 0xffffffffffffffff, 0x0, 0x0⟩,
   ⟨.edge, 0x30000002a0, 0x400, 64, 0xffffffffffffffff, 0x0, 0x0⟩,
   ⟨.edge, 0x30000002a8, 0x400, 64, 0xffffffffffffffff, 0x0, 0x0⟩,
   ⟨.edge, 0x30000002b0, 0x400, 64, 0xffffffffffffffff, 0x0, 0x0⟩,
   ⟨.edge, 0x30000002b8, 0x400, 64, 0xffffffffffffffff, 0x0, 0x0⟩,
   ⟨.edge, 0x30000002c0, 0x400, 64, 0xffffffffffffffff, 0x0, 0x0⟩,
   ⟨.edge, 0x30000002c8, 0x400, 64, 0xffffffffffffffff, 0x0, 0x0⟩,
   ⟨.edge, 0x30000002d0, 0x400, 64, 0xffffffffffffffff, 0x0, 0x0⟩,
   ⟨.edge, 0x30000002d8, 0x400, 64, 0xffffffffffffffff, 0x0, 0x0⟩,
   ⟨.edge, 0x30000002e0, 0x400, 64, 0xffffffffffffffff, 0x0, 0x0⟩,
   ⟨.edge, 0x30000002e8, 0x400, 64, 0xffffffffffffffff, 0x0, 0x0⟩,
   ⟨.edge, 0x30000002f0, 0x400, 64, 0xffffffffffffffff, 0x0, 0x0⟩,
   ⟨.edge, 0x30000002f8, 0x400, 64, 0xffffffffffffffff, 0x0, 0x0⟩,
   ⟨.site, 0x3000040000, 0x8, 2048, 0xffffffffffffffff, 0x0, 0x0⟩,
   ⟨.site, 0x3000020000, 0x8, 2048, 0x0, 0x0, 0x0⟩]

/-- Blocks of spec file 08. -/
def regs08 : List RegDesc :=
  [⟨.root, 0xf000090000, 0x20, 32, 0x7fffffffffffff, 0x0, 0x8020202080040⟩,
   ⟨.root, 0xf000090008, 0x20, 32, 0xff7f, 0x0, 0x8000⟩,
   ⟨.root, 0xf000090010, 0x20, 32, 0x303ff, 0x0, 0x10008⟩,
   ⟨.root, 0xf000090018, 0x20, 32, 0x7ff3ffffff7, 0x0, 0x7d025800645⟩,
   ⟨.root, 0xf000091000, 0x10, 256, 0x801ffffffffff000, 0x0, 0x0⟩,
   ⟨.root, 0xf000091008, 0x10, 256, 0x1ffffffffffff, 0x0, 0x0⟩,
   ⟨.site, 0xf000060000, 0x8, 4, 0x0, 0x0, 0x0⟩,
   ⟨.site, 0xf000060020, 0x0, 1, 0x0, 0x80000000, 0x0⟩,
   ⟨.site, 0xf000060028, 0x0, 1, 0x0, 0x0, 0x0⟩,
   ⟨.site, 0xf000060100, 0x8, 64, 0x0, 0x0, 0x0⟩,
   ⟨.root, 0xf000092000, 0x8, 256, 0x0, 0x0, 0x0⟩]

/-- Blocks of spec file 09. -/
def regs09 : List RegDesc :=
  [⟨.site, 0xf000070000, 0x0, 1, 0xffffffffffff, 0x0, 0x6400001388⟩,
   ⟨.site, 0xf000070008, 0x0, 1, 0x0, 0xf, 0x0⟩,
   ⟨.site, 0xf000070010, 0x8, 8, 0x0, 0x0, 0x800⟩,
   ⟨.site, 0xf000071000, 0x40, 16, 0x0, 0x0, 0x0⟩,
   ⟨.site, 0xf000071008, 0x40, 16, 0x0, 0x0, 0x0⟩,
   ⟨.site, 0xf000071010, 0x40, 16, 0x0, 0x0, 0x0⟩,
   ⟨.site, 0xf000071018, 0x40, 16, 0x0, 0x0, 0x0⟩,
   ⟨.site, 0xf000071020, 0x40, 16, 0x0, 0x0, 0x0⟩,
   ⟨.site, 0xf000071028, 0x40, 16, 0x0, 0x0, 0x0⟩,
   ⟨.site, 0xf000071030, 0x40, 16, 0x0, 0x0, 0x0⟩,
   ⟨.site, 0xf000071038, 0x40, 16, 0x0, 0x0, 0x0⟩]

/-- Blocks of spec file 10. -/
def regs10 : List RegDesc :=
  [⟨.site, 0xf0000a0000, 0x1000, 8, 0x0, 0x0, 0x0⟩,
   ⟨.site, 0xf0000a0008, 0x1000, 8, 0x0, 0x0, 0x0⟩,
   ⟨.site, 0xf0000a0010, 0x1000, 8, 0x0, 0x0, 0x0⟩,
   ⟨.site, 0xf0000a0018, 0x1000, 8, 0x0, 0x3f, 0x0⟩,
   ⟨.site, 0xf0000a0020, 0x1000, 8, 0x0, 0x0, 0x0⟩]

/-- Blocks of spec file 12. -/
def regs12 : List RegDesc :=
  [⟨.site, 0xf0000b0000, 0x0, 1, 0xf, 0x0, 0x4⟩,
   ⟨.site, 0xf0000b0008, 0x0, 1, 0x0, 0x0, 0x0⟩,
   ⟨.site, 0xf0000b0010, 0x0, 1, 0x0, 0x1f, 0x0⟩,
   ⟨.site, 0xf0000b0018, 0x0, 1, 0x0, 0x0, 0x0⟩,
   ⟨.site, 0xf0000b1000, 0x40, 64, 0x0, 0x0, 0x0⟩,
   ⟨.site, 0xf0000b1008, 0x40, 64, 0x0, 0x0, 0x0⟩,
   ⟨.site, 0xf0000b1010, 0x40, 64, 0x0, 0x0, 0x0⟩,
   ⟨.site, 0xf0000b1018, 0x40, 64, 0x8fff8fff8fff8fff, 0x0, 0x0⟩,
   ⟨.site, 0xf0000b1028, 0x40, 64, 0x0, 0x0, 0x0⟩,
   ⟨.site, 0xf0000b1030, 0x40, 64, 0x0, 0x0, 0x0⟩,
   ⟨.site, 0xf0000b1020, 0x40, 64, 0x8fff8fff8fff8fff, 0x0, 0x0⟩,
   ⟨.site, 0xf0000b4000, 0x8, 2048, 0xffffffffffffffff, 0x0, 0x0⟩,
   ⟨.site, 0xf000100000, 0x8, 16384, 0x0, 0x0, 0x0⟩]

/-- Blocks of spec file 13. -/
def regs13 : List RegDesc :=
  [⟨.site, 0xf0000e0000, 0x0, 1, 0x0, 0x7, 0x0⟩,
   ⟨.site, 0xf0000e0008, 0x0, 1, 0x0, 0x1, 0x0⟩,
   ⟨.site, 0xf0000e0010, 0x0, 1, 0x0, 0x0, 0x0⟩,
   ⟨.site, 0xf0000e0100, 0x20, 12, 0x0, 0x0, 0x0⟩,
   ⟨.site, 0xf0000e0108, 0x20, 12, 0x0, 0x0, 0x0⟩,
   ⟨.site, 0xf0000e0110, 0x20, 12, 0x0, 0x0, 0x0⟩]

/-- Blocks of spec file 14. -/
def regs14 : List RegDesc :=
  [⟨.site, 0xf0000f0000, 0x40, 16, 0x0, 0x0, 0x0⟩,
   ⟨.site, 0xf0000f0008, 0x40, 16, 0x0, 0x0, 0x0⟩,
   ⟨.site, 0xf0000f0010, 0x40, 16, 0x0, 0x0, 0x0⟩,
   ⟨.site, 0xf0000f0018, 0x40, 16, 0x0, 0x0, 0x0⟩]

/-- Blocks of spec file 15. -/
def regs15 : List RegDesc :=
  [⟨.site, 0xf000130000, 0x0, 1, 0x0, 0x0, 0x9608c⟩,
   ⟨.site, 0xf000130008, 0x0, 1, 0x0, 0x0, 0x0⟩,
   ⟨.site, 0xf000130010, 0x0, 1, 0x0, 0x3f, 0x0⟩,
   ⟨.site, 0xf000130018, 0x0, 1, 0xf, 0x0, 0x0⟩,
   ⟨.site, 0xf000130020, 0x8, 8, 0x0, 0x0, 0x0⟩,
   ⟨.root, 0xf0000d0000, 0x0, 1, 0x0, 0x0, 0x0⟩,
   ⟨.root, 0xf0000d0008, 0x0, 1, 0x0, 0x0, 0x0⟩,
   ⟨.root, 0xf0000d0010, 0x0, 1, 0x0, 0x0, 0x0⟩,
   ⟨.root, 0xf0000d0018, 0x0, 1, 0x0, 0x0, 0x0⟩,
   ⟨.root, 0xf0000d0020, 0x0, 1, 0x0, 0x7, 0x0⟩]

/-- Blocks of spec file 16. -/
def regs16 : List RegDesc :=
  [⟨.site, 0xf000140000, 0x0, 1, 0xffff0003ffff, 0x0, 0x3e800030032⟩,
   ⟨.site, 0xf000140008, 0x0, 1, 0x0, 0x0, 0x0⟩,
   ⟨.site, 0xf000140010, 0x0, 1, 0x0, 0x3f, 0x0⟩,
   ⟨.site, 0xf000140020, 0x10, 64, 0xffffffffffffffff, 0x0, 0x0⟩,
   ⟨.root, 0xf000150000, 0x0, 1, 0x1fffffff03ff, 0x0, 0x1f407d0000a⟩,
   ⟨.root, 0xf000150008, 0x0, 1, 0x0, 0x7, 0x0⟩,
   ⟨.root, 0xf000150010, 0x0, 1, 0x0, 0x0, 0x0⟩,
   ⟨.root, 0xf000150018, 0x0, 1, 0x0, 0x0, 0x0⟩,
   ⟨.root, 0xf000150020, 0x0, 1, 0x0, 0x0, 0x0⟩]

/-- Blocks of spec file 17. -/
def regs17 : List RegDesc :=
  [⟨.edge, 0xf000160000, 0x100, 2, 0x1fff7f, 0x0, 0x804a⟩,
   ⟨.edge, 0xf000160008, 0x100, 2, 0x0, 0x0, 0x0⟩,
   ⟨.edge, 0xf000160010, 0x100, 2, 0x0, 0x0, 0x0⟩,
   ⟨.edge, 0xf000160018, 0x100, 2, 0x0, 0xf, 0x0⟩,
   ⟨.edge, 0xf000170000, 0x0, 1, 0xffff0003, 0x0, 0xffff0000⟩,
   ⟨.edge, 0xf000170008, 0x0, 1, 0x0, 0x0, 0x0⟩,
   ⟨.edge, 0xf000170010, 0x0, 1, 0x0, 0x0, 0x0⟩,
   ⟨.edge, 0xf000170018, 0x0, 1, 0x0, 0x0, 0x0⟩,
   ⟨.edge, 0xf000170020, 0x0, 1, 0x0, 0x0, 0x0⟩,
   ⟨.edge, 0xf000180000, 0x0, 1, 0x0, 0x0, 0x0⟩,
   ⟨.edge, 0xf000180008, 0x0, 1, 0x0, 0x0, 0x0⟩,
   ⟨.edge, 0xf000180010, 0x0, 1, 0x0, 0x0, 0x0⟩,
   ⟨.edge, 0xf000170100, 0x8, 128, 0xffffffffffffffff, 0x0, 0x0⟩,
   ⟨.edge, 0xf000160040, 0x100, 2, 0xffffffffffffffff, 0x0, 0x0⟩,
   ⟨.edge, 0xf000160048, 0x100, 2, 0x3fffffffffffff, 0x0, 0x0⟩,
   ⟨.edge, 0xf000160050, 0x100, 2, 0xffffffffffffffff, 0x0, 0x0⟩,
   ⟨.edge, 0xf000160058, 0x100, 2, 0xffffffffffffffff, 0x0, 0x0⟩,
   ⟨.edge, 0xf000160060, 0x100, 2, 0x3fffffffffffff, 0x0, 0x0⟩,
   ⟨.edge, 0xf000160068, 0x100, 2, 0xffffffffffffffff, 0x0, 0x0⟩,
   ⟨.edge, 0xf000160070, 0x100, 2, 0xffffffffffffffff, 0x0, 0x0⟩,
   ⟨.edge, 0xf000160078, 0x100, 2, 0x3fffffffffffff, 0x0, 0x0⟩,
   ⟨.edge, 0xf000160080, 0x100, 2, 0xffffffffffffffff, 0x0, 0x0⟩,
   ⟨.edge, 0xf000160088, 0x100, 2, 0xffffffffffffffff, 0x0, 0x0⟩,
   ⟨.edge, 0xf000160090, 0x100, 2, 0x3fffffffffffff, 0x0, 0x0⟩,
   ⟨.edge, 0xf000160098, 0x100, 2, 0xffffffffffffffff, 0x0, 0x0⟩,
   ⟨.edge, 0xf0001600a0, 0x100, 2, 0xffffffffffffffff, 0x0, 0x0⟩,
   ⟨.edge, 0xf0001600a8, 0x100, 2, 0x3fffffffffffff, 0x0, 0x0⟩,
   ⟨.edge, 0xf0001600b0, 0x100, 2, 0xffffffffffffffff, 0x0, 0x0⟩,
   ⟨.edge, 0xf0001600b8, 0x100, 2, 0xffffffffffffffff, 0x0, 0x0⟩,
   ⟨.edge, 0xf0001600c0, 0x100, 2, 0x3fffffffffffff, 0x0, 0x0⟩] ++
  [⟨.edge, 0xf0001600c8, 0x100, 2, 0xffffffffffffffff, 0x0, 0x0⟩,
   ⟨.edge, 0xf0001600d0, 0x100, 2, 0xffffffffffffffff, 0x0, 0x0⟩,
   ⟨.edge, 0xf0001600d8, 0x100, 2, 0x3fffffffffffff, 0x0, 0x0⟩,
   ⟨.edge, 0xf0001600e0, 0x100, 2, 0xffffffffffffffff, 0x0, 0x0⟩,
   ⟨.edge, 0xf0001600e8, 0x100, 2, 0xffffffffffffffff, 0x0, 0x0⟩,
   ⟨.edge, 0xf0001600f0, 0x100, 2, 0x3fffffffffffff, 0x0, 0x0⟩,
   ⟨.edge, 0xf0001600f8, 0x100, 2, 0xffffffffffffffff, 0x0, 0x0⟩]

/-- The registers whose reset value is not 0. -/
def regResets : List RegDesc :=
  [⟨.edge, 0xf000020000, 0x80, 16, 0xffffffff001fff3f, 0x0, 0x138800100e00⟩,
   ⟨.edge, 0xf000020030, 0x80, 16, 0xffffffffffffffff, 0x0, 0x100000000⟩,
   ⟨.edge, 0xf000020038, 0x80, 16, 0xffffffffffff, 0x0, 0x100000⟩,
   ⟨.site, 0xf000010000, 0x8, 256, 0x0, 0x0, 0x9000000000000⟩,
   ⟨.site, 0xf000030008, 0x100, 4, 0xffffffffff0fff, 0x0, 0x271000c8280814⟩,
   ⟨.edge, 0xf000031008, 0x100, 2, 0xffffffffff0fff, 0x0, 0x271000c814080a⟩,
   ⟨.edge, 0xf000030008, 0x100, 2, 0xffffffffff0fff, 0x0, 0x271000c8280814⟩,
   ⟨.site, 0xf000050000, 0x0, 1, 0x1, 0x0, 0x1⟩,
   ⟨.site, 0x30000f0000, 0x0, 1, 0xffff, 0x0, 0x3e8⟩,
   ⟨.root, 0xf000090000, 0x20, 32, 0x7fffffffffffff, 0x0, 0x8020202080040⟩,
   ⟨.root, 0xf000090008, 0x20, 32, 0xff7f, 0x0, 0x8000⟩,
   ⟨.root, 0xf000090010, 0x20, 32, 0x303ff, 0x0, 0x10008⟩,
   ⟨.root, 0xf000090018, 0x20, 32, 0x7ff3ffffff7, 0x0, 0x7d025800645⟩,
   ⟨.site, 0xf000070000, 0x0, 1, 0xffffffffffff, 0x0, 0x6400001388⟩,
   ⟨.site, 0xf000070010, 0x8, 8, 0x0, 0x0, 0x800⟩,
   ⟨.site, 0xf0000b0000, 0x0, 1, 0xf, 0x0, 0x4⟩,
   ⟨.site, 0xf000130000, 0x0, 1, 0x0, 0x0, 0x9608c⟩,
   ⟨.site, 0xf000140000, 0x0, 1, 0xffff0003ffff, 0x0, 0x3e800030032⟩,
   ⟨.root, 0xf000150000, 0x0, 1, 0x1fffffff03ff, 0x0, 0x1f407d0000a⟩,
   ⟨.edge, 0xf000160000, 0x100, 2, 0x1fff7f, 0x0, 0x804a⟩,
   ⟨.edge, 0xf000170000, 0x0, 1, 0xffff0003, 0x0, 0xffff0000⟩]

/-- Every register block of die space. -/
def regTable : List RegDesc :=
  regs01 ++ regs04 ++ regs05 ++ regs06 ++ regs07 ++ regs08 ++ regs09 ++ regs10 ++ regs12 ++ regs13 ++ regs14 ++ regs15 ++ regs16 ++ regs17

end Sys2Proof.Machine
end

