-- ==== Sys2Proof/Machine/State.lean ====
section
/-! DEFINITION. The state of the module as plain data: the supervisor on the carrier (`Sup`), the wafer (`Wafer`), and
the queue of commands that wait. Tables (`Tab`) list only entries that differ from their default. -/

namespace Sys2Proof.Machine

/-- Reasons for a stop with a fault: none. Every fault the spec names is an answer of the device (a status, a code, an
event), hence a next state; no command of the table ends the machine. Safe. -/
inductive Fault where
deriving DecidableEq, Repr

/-- Refusals. -/
inductive Refusal where
  /-- No meaning yet for the command of this mnemonic. Raised by Dispatch only. Safe: nothing follows from it. -/
  | notModelled (mnemonic : String)
deriving DecidableEq, Repr

/-! ### The module supervisor (R66–R94) -/

/-- Where the power sequence stands (R73–R76, R86). -/
inductive Power where
  | off
  | on
  | railWait (since : Nat)
  | railDead
  | failed
  | overvolt
  | tripped
deriving DecidableEq, Repr

/-- A fence-list entry (Table RIB-9, R158): kind 1 site, 2 edge die, 3 link; row or edge number, column, direction. -/
structure Fence where
  kind : Nat
  rowEdge : Nat
  col : Nat
  dir : Nat
  byRibbon : Bool
  reason : Nat
deriving DecidableEq, Repr

/-- The module supervisor, its non-volatile store, the boot flashes and the fuses. It runs from the 54 V input and
keeps its contents through every internal reset (R66, R109). -/
structure Sup where
  running : Bool
  power : Power
  planes : BitVec 4
  hotSwap : Bool
  inReset : Bool
  clock : Nat
  regs : Tab Word
  refSince : Tab Int
  coolCap : Nat
  entryCap : Bool
  capClear : Option (Nat × Nat)
  hotSince : Option Nat
  slowSince : Option Nat
  wetSince : Option Nat
  fences : List Fence
  waferNum : Nat
  nextSlot : Bool
  lastReset : Nat
  flash : Tab (List Byte)
  blown : Option Nat
  edgeTemp : Tab Nat
  resetDue : Option Nat
deriving DecidableEq, Repr

/-! ### The ribbon ports (R95–R128) -/

/-- A window access in flight (R124): the committed address, and the word of a write. -/
structure WinAcc where
  addr : Word
  data : Option Word
  since : Nat
deriving DecidableEq, Repr

/-- Window state beyond its registers: the committed address, the 64-bit buffer, the access in flight, and whether an
access faulted since the last address commit (R124–R127). -/
structure Win where
  cur : Word
  buf : Word
  acc : Option WinAcc
  faulted : Bool
deriving DecidableEq, Repr

/-- The ribbon ports: registers (key: address, plus 128 for port B's copy of a banked register), the lease, windows,
latched HI halves, last response frames and the time of the last frame per port. -/
structure Rib where
  regs : Tab (BitVec 32)
  holder : Option RibPort
  key : BitVec 16
  expiry : Nat
  win0 : Win
  win1 : Win
  hi : Tab (BitVec 32)
  rspA : Option (BitVec 48)
  rspB : Option (BitVec 48)
  frameA : Option Nat
  frameB : Option Nat
deriving DecidableEq, Repr

/-! ### Collation and boot (R129–R165) -/

/-- What collation knows of a die (R143, R162): state 0 empty, 1 active, 2 fenced, 3 unreachable; fence reason;
self-test code; HBM state of an edge die's stack. -/
structure DieInfo where
  state : Nat
  reason : Nat
  code : Nat
  hbmBad : Bool
deriving DecidableEq, Repr

/-- Dies (physical nodes) out of service and links retired: what routes and the escape tree are computed from. -/
structure Topo where
  dead : List Nat
  cut : List (Nat × Nat)
deriving DecidableEq, Repr

/-- Boot of Unhal (R152–R154, R522): slot tried, whether the other slot has been tried, start time, whether it runs. -/
structure Boot where
  slot : Bool
  triedBoth : Bool
  started : Nat
  running : Bool
  ready : Bool
  svcTries : Nat
deriving DecidableEq, Repr

structure Col where
  phase : Nat
  wafer : Nat
  root8 : Bool
  served : Bool
  halt : Nat
  crossDown : Bool
  fallback : Bool
  sites : List Nat
  dies : Tab DieInfo
  gen : Nat
  tCollated : Nat
  refAdj : Tab Int
  parents : Tab Nat
  idents : Tab DieReport
  claims : List (Bool × Bool × Bool)
  rejoin : Tab Nat
  moved : Tab Nat
  bank0 : Topo
  bank1 : Topo
  bank : Bool
  switchAt : Option Nat
  namedAt : Nat
  again : Bool
  switched : Option Nat
  heard : Tab Nat
  boot : Boot
  kick : Nat
  measLog : List (Nat × List Byte)
  measAcc : List Byte
  reached : Bool
  shelf : List Nat
deriving DecidableEq, Repr

/-! ### Folio counters (R13–R61) -/

/-- A counter's estimator and source state beyond its registers (R22, R27, R29, R35, R39): derived fraction, anchors
youngest first, latest advance, position at the last beacon, last accepted SEQ (none after binding), gap pending,
qualified levels of the two tick inputs, time of the last advance. -/
structure Cnt where
  frac : Nat
  anchors : List (Nat × Nat)
  adv : Option (Nat × Nat)
  beaconPos : Nat
  seq : Option Nat
  gap : Bool
  q0 : Bool
  q1 : Bool
  last : Nat
deriving DecidableEq, Repr

/-- A beacon on its way (R31): edge die, sample, the 16 image entries, the counter whose held rate it carries and that
rate, and the sites it has not yet reached. -/
structure Beacon where
  edge : Nat
  sample : Nat
  words : List Word
  heldIdx : Nat
  held : Word
  sites : List Nat
deriving DecidableEq, Repr

structure Fol where
  cnt : Tab Cnt
  beacons : List Beacon
  seen : Tab Nat
  staleSince : Tab Nat
deriving DecidableEq, Repr

/-! ### Messages between units -/

/-- Coherence messages (Table MEM-4). -/
inductive CohOp where
  | getS | getE | putS | putE | fwdAck | complete | dataS | dataE | inv | downgrade | recall | putAck
deriving DecidableEq, Repr

/-- The three kinds of memory request (R216). -/
inductive Acc where
  | read | write | atomic
deriving DecidableEq, Repr

/-- Messages in flight: each waits here until the command of its arrival takes it. -/
inductive Msg where
  | rsp (kind : Acc) (who : Requester) (tag : Nat) (status : Nat) (data : List Byte)
  | queueRsp (who : Requester) (tag : Nat) (status result : Nat) (value : Word) (data : List Byte)
  | wake (who : Requester) (tag : Nat) (result : Nat) (value : Word)
  | coh (op : CohOp) (cache home line : Nat) (data : Option (List Byte))
  | siteLost (site : Nat)
  | turnReq (site slot : Nat)
  | gather (vol gid : Nat) (shelf : Bool) (node level : Nat) (data : List Byte)
  | leaveGrant (site res handle expiry lu : Nat)
  | leaveDenial (site res reason availUs decided : Nat)
  | leaveRecall (site handle : Nat)
deriving DecidableEq, Repr

/-- A request without its response yet (R228, R499): requester, tag, volume, kind (none: a queue operation or wait),
target die and address, time of issue, whether it is an acquire or a register access, the own record it serves, and the
command of its arrival at the target if it is still on its way. -/
structure Out where
  who : Requester
  tag : Nat
  vol : Nat
  kind : Option Acc
  die : Nat
  addr : Word
  since : Nat
  acquire : Bool
  isReg : Bool
  isWait : Bool
  cmd : Option (Nat × Nat)
  need : Option Instr
deriving DecidableEq, Repr

/-! ### Links (R166–R206) -/

/-- A die-edge port: STATE of Table LNK-8, latency, guards carrying data (received direction), sender (next full
sequence number, flits held, time of the oldest one's last transmission, time ACK last advanced, replays of the oldest
flit, start and time of the latest replay, credits and counts received per class and channel: MEM, COH, IRQ, DBG normal,
then escape), receiver (expected number, counts freed, flits buffered), messages of this die waiting for this output,
class last served of COH and MEM, time the head DBG message became ready, whether a LINK flit or a NAK is owed, flits
sent, counts of the running window, when a retrain began, the switch that takes the link out, and why. -/
structure Port where
  state : Nat
  latency : Nat
  guards : List (Nat × Nat)
  seq : Nat
  held : List (Nat × BitVec 544)
  sentAt : Nat
  ackAt : Nat
  tries : Nat
  replay : Option (Nat × Nat)
  credits : List Nat
  seenFreed : List Nat
  expect : Nat
  freed : List Nat
  inbuf : List (BitVec 544)
  outq : List (List (BitVec 544))
  lastMem : Bool
  dbgAt : Nat
  owed : Bool
  nak : Bool
  wire : List (BitVec 544)
  winFlits : Nat
  winReplays : Nat
  since : Nat
  switchAt : Option Nat
  reason : Nat
deriving DecidableEq, Repr

/-- A spine link (R194–R204): as a die-edge port over packets (number, bytes); messages waiting as (class, blocks);
window counts; start of the last training or retrain; latest fray; no signal seen in training. -/
structure Spine where
  seq : Nat
  held : List (Nat × List Byte)
  sentAt : Nat
  ackAt : Nat
  tries : Nat
  replay : Option (Nat × Nat)
  credits : List Nat
  seenFreed : List Nat
  expect : Nat
  freed : List Nat
  outq : List (Nat × List Byte)
  wire : List (List Byte)
  nak : Bool
  winPkts : Nat
  winReplays : Nat
  since : Nat
  frayedAt : Option Nat
  uncabled : Bool
deriving DecidableEq, Repr

/-- The links: ports by 4 × node + direction, spine links, messages delivered at a node, messages that a spine link has
brought in (link, class, payload). -/
structure Links where
  port : Tab Port
  spine : Tab Spine
  delivered : List (Nat × List (BitVec 544))
  arrived : List (Nat × Nat × List Byte)
deriving DecidableEq, Repr

/-! ### The remote-line cache and the directory (R222–R230) -/

structure Line where
  excl : Bool
  dirty : Bool
  data : List Byte
deriving DecidableEq, Repr

/-- A directory entry (R223): exclusive owner, exact sharers, or the coarse vector; and its place in allocation order. -/
inductive Dir where
  | excl (owner order : Nat)
  | shared (sites : List Nat) (order : Nat)
  | coarse (groups : BitVec 32) (order : Nat)
deriving DecidableEq, Repr

/-- A memory request at its home (R216, R226): kind, requester, tag, address of the next byte, bytes still to do, atomic
operation and operands, data still to write, data read so far. -/
structure MemOp where
  kind : Acc
  who : Requester
  tag : Nat
  addr : Nat
  left : Nat
  op : Nat
  a : Word
  b : Word
  data : List Byte
  got : List Byte
deriving DecidableEq, Repr

/-- A request the home serves (R226); `gone`: a GET_S whose cache has been lost, which only collects. -/
inductive HomeReq where
  | getS (cache : Nat)
  | getE (cache : Nat)
  | mem (m : MemOp)
  | evict
  | gone
deriving DecidableEq, Repr

/-- A transaction open on a line (R225): the request, the sites whose FWD_ACK is missing, whether the grant is sent, the
requests that wait. -/
structure Tx where
  req : HomeReq
  acks : List Nat
  granted : Bool
  queue : List HomeReq
deriving DecidableEq, Repr

/-- Cached lines and writeback buffers by cache, home and line; directory and open transactions by home and line; the
count that orders directory allocations. -/
structure Coh where
  lines : Tab Line
  wback : Tab Line
  dir : Tab Dir
  order : Nat
  tx : Tab Tx
deriving DecidableEq, Repr

/-! ### Queue managers (R235–R281) -/

structure Wait where
  who : Requester
  tag : Nat
  site : Nat
  obj : Nat
  thr : Word
  since : Nat
  waitUs : Nat
deriving DecidableEq, Repr

/-- A completion record waiting to be written (R250): the site and work ring it belongs to, the completion ring, the 32
bytes (PHASE not yet set), its volume, the own record it ends, whether it is final, the reserved slots it uses or
releases, who writes it, when the last try failed, whether it may be dropped (R307). -/
structure Pend where
  home : Nat
  ring : Nat
  bytes : List Byte
  vol : Nat
  cmd : Option (Nat × Nat)
  final : Bool
  slots : Nat
  writer : Nat
  retryAt : Option Nat
  once : Bool
deriving DecidableEq, Repr

/-- A descriptor burst in flight (R258, R259): ring, index of its first descriptor, descriptors. -/
structure Burst where
  site : Nat
  ring : Nat
  first : Nat
  count : Nat
deriving DecidableEq, Repr

/-- Memory handed out by `unhal_mem_alloc` (kind 0 SRAM, 1 HBM). -/
structure Alloc where
  vol : Nat
  kind : Nat
  addr : Word
  bytes : Nat
deriving DecidableEq, Repr

/-- A claim on a DATA ring (R328), in order of start: ring, first entry, entries, own record, final completion written. -/
structure Claim where
  ring : Nat
  first : Nat
  count : Nat
  site : Nat
  idx : Nat
  done : Bool
deriving DecidableEq, Repr

/-- A reply of Unhal that waits for its REPLY direction to be EMPTY (R272, R279): channel, call, words. -/
structure Reply where
  edge : Nat
  ch : Nat
  cmd : Nat
  words : List Nat
deriving DecidableEq, Repr

/-- The queue managers beyond their registers: waits registered, completion records to be written, bursts in flight, the
ring last served per site and priority, since when a ring is stuck, rings full with an entry waiting, memory handed out,
service times per work ring, latest write of a host window, sites that copy their records to a new buddy, those of them
whose old buddy is lost, claims, replies that wait,
flush calls not ended as (site, edge die, channel). -/
structure Que where
  waits : List Wait
  pend : List Pend
  bursts : List Burst
  lastServed : Tab Nat
  stuck : Tab Nat
  fullWait : List Nat
  allocs : List Alloc
  history : Tab (List Nat)
  hostwinAt : Nat
  copying : List Nat
  bare : List Nat
  claims : List Claim
  replies : List Reply
  flushes : List (Nat × Nat × Nat)
deriving DecidableEq, Repr

/-! ### Commands (R282–R340, R498–R525) -/

/-- States of a command record (R505). -/
inductive RecSt where
  | accepted | running | aborted | committing | final
deriving DecidableEq, Repr

/-- A unit that runs: stage, micro-batch, resource (engine, bank, cluster engine; core for a CORE stage), start time. A
unit on a preempted engine is not running (R303). -/
structure Unit_ where
  stage : Nat
  mb : Nat
  res : Nat
  start : Nat
deriving DecidableEq, Repr

/-- A full output slot: stage, micro-batch, its bytes, and the cluster address it lies at (0: the stage buffer). -/
structure Slot where
  stage : Nat
  mb : Nat
  data : List Byte
  addr : Nat
deriving DecidableEq, Repr

/-- A buffer of a CORE stage in its cluster's stage area (R432): stage, cluster, offset, size, whether an output slot. -/
structure Area where
  stage : Nat
  cluster : Nat
  off : Nat
  size : Nat
  out : Bool
deriving DecidableEq, Repr

/-- The run of a started command: start time, home engine, slot bytes taken there, clusters bound by stage, stage area
buffers, units running, next micro-batch to start per stage, micro-batches ended per stage, full output slots, entries
staged, flags, passes done, whether a pass is begun with its half and page, the bytes GATHER takes in
and then delivers, what the combine of partials delivers, whether a turn has been asked for, base of the relocated areas of a buddy run; per stage, one more than the instant since
which its next unit is ready (0: not ready), and how many records GATHER has
delivered. -/
structure Run where
  start : Nat
  eng : Nat
  space : Nat
  clusters : Tab Nat
  areas : List Area
  units : List Unit_
  next : Tab Nat
  ended : Tab Nat
  slots : List Slot
  entries : Nat
  flags : BitVec 6
  passes : Nat
  inPass : Bool
  half : Bool
  page : Nat
  operand : List Byte
  delivered : Option (List Byte)
  asked : Bool
  reloc : Nat
  ready : Tab Nat
  gathered : Option Nat
deriving DecidableEq, Repr

/-- An own record with its command (R503–R507): `mir` is the record as its mirror last acknowledged it, `seen` whether the
command has entered the admission queue, `handed` the buddy that writes the records of a buddy run. -/
structure Cmd where
  site : Nat
  idx : Nat
  st : RecSt
  replays : Nat
  vol : Nat
  cls : Nat
  defWritten : Bool
  buddyRun : Bool
  ring : Nat
  home : Nat
  descIndex : Nat
  complIndex : Nat
  acceptRef : Nat
  firstStart : Nat
  claim : Option (Nat × Nat)
  atomics : BitVec 8
  lastFault : Nat
  lastDetail : Word
  desc : List Byte
  header : List Byte
  stages : List (List Byte)
  final : List Byte
  order : Nat
  mirrored : Bool
  mir : List Byte
  listRead : Bool
  seen : Bool
  epoch : Nat
  jumped : Bool
  srcLost : Option Word
  aborting : Option Nat
  noReplay : Bool
  rebuild : Bool
  handed : Option Nat
  run : Option Run
deriving DecidableEq, Repr

/-! ### Volumes (R282–R310) -/

/-- What CREATE copies from a profile (R285), the bound function, records LOST (R307), time of the latest progress
(R521). -/
structure Vol where
  prof : List Word
  vf : Option Nat
  lost : Nat
  progress : Nat
deriving DecidableEq, Repr

/-! ### Engines, banks and images (R340–R418, R450–R458) -/

/-- The unit on a matrix engine: own record, stage, micro-batch, rotation pass, cycles performed before the latest start
or resume, time of that start. -/
structure OnEng where
  idx : Nat
  stage : Nat
  mb : Nat
  pass : Nat
  done : Nat
  start : Nat
deriving DecidableEq, Repr

/-- A saved unit: the class of its slot, the unit, and the own record of the command that preempted it. -/
structure Saved where
  cls : Nat
  unit : OnEng
  by_ : Nat
deriving DecidableEq, Repr

/-- A matrix engine (key 8 × site + engine): the unit on it, cycles at a halt, units saved, and whether the view has been emptied by an abort while halted. -/
structure Eng where
  on : Option OnEng
  halted : Option Nat
  saved : List Saved
  emptied : Bool
deriving DecidableEq, Repr

/-- A block move that runs on a bank (R412). -/
structure Move where
  first : Nat
  last : Nat
  next : Nat
  width : Nat
  up : Bool
deriving DecidableEq, Repr

/-- A loaded image (R451), by slot: where it lies and on which sites and banks. -/
structure EnsImg where
  vol : Nat
  image : Nat
  page0 : Nat
  stride : Nat
  banks : Nat
  replicas : Nat
  first : Nat
  sites : Nat
  bank : Nat
deriving DecidableEq, Repr

/-- Banks beyond their rows, thumb vectors and registers (keys 64 × site + bank): moves that run, poisoned rows in order of
poisoning (key 4,096 × (64 × site + bank) + row), next row to scrub; and the images loaded by slot. -/
structure Asc where
  moves : Tab Move
  bad : List Nat
  scrub : Tab Nat
  ens : Tab EnsImg
deriving DecidableEq, Repr

/-! ### Leave and heat (R479–R497) -/

/-- A grant: site, resource, handle, class, volume, LU, instant of decision, expiry, duration; whether it is in its tail,
has reached its site, has a renewal on its way; the own record it serves, the waiting request it was recalled for. -/
structure Grant where
  site : Nat
  res : Nat
  handle : Nat
  cls : Nat
  vol : Nat
  lu : Nat
  decided : Nat
  expiry : Nat
  dur : Nat
  tail : Bool
  arrived : Bool
  asked : Bool
  owner : Option Nat
  forReq : Option Nat
deriving DecidableEq, Repr

/-- A request that waits at the wafer steward: its number, fields, the own record it serves, whether its denial has been
sent, whether the ramp holds it, LU held for it by recalls. -/
structure LWait where
  id : Nat
  site : Nat
  res : Nat
  cls : Nat
  vol : Nat
  lu : Nat
  dur : Nat
  owner : Option Nat
  denied : Bool
  held : Bool
  hold : Nat
deriving DecidableEq, Repr

/-- The stewards: grants in order of decision, waiting requests, next request number, ramp window with the LU decided in
it, envelope in force in W, since when G exceeds P, EMERGENCY, what each site was told of a resource (reason, instant; key
1,024 × site + resource), measured thermal step by site, start of the run of cool samples plus one, last pacing window. -/
structure Lve where
  grants : List Grant
  waits : List LWait
  next : Nat
  win : Nat
  spent : Nat
  env : Nat
  excess : Option Nat
  emergency : Bool
  told : Tab (Nat × Nat)
  meas : Tab Nat
  cool : Tab Nat
  paced : Tab Nat
deriving DecidableEq, Repr

/-! ### Gather sessions and rotation (R330–R335) -/

/-- A command in a gather session: slot, site and own record, operand bytes, operator block, FTZ. -/
structure Part where
  slot : Nat
  site : Nat
  idx : Nat
  size : Nat
  op : List Byte
  ftz : Bool
deriving DecidableEq, Repr

/-- A gather session: its participants, the values held at (slot, level), the slots whose operand has been supplied, and
whether an abort has left it without a participant, so that it can only end (R330, R513). -/
structure Sess where
  vol : Nat
  gid : Nat
  shelf : Bool
  parts : List Part
  vals : List (Nat × Nat × List Byte)
  gave : List Nat
  broken : Bool
deriving DecidableEq, Repr

/-- A member's turn: its send is done, its arrival has been signalled. -/
structure Turn where
  sent : Bool
  arrived : Bool
deriving DecidableEq, Repr

/-! ### Cores (R419–R449) -/

/-- A core: mode (true: M), pc, integer and floating-point registers, CSRs, reservation, resident code (address, bytes,
volume), unit (own record, stage, micro-batch), its program block, its input buffer and output slot, the instruction and
tag it waits with, whether it drains under R444, instructions retired. -/
structure Core where
  mmode : Bool
  pc : Word
  x : Tab Word
  f : Tab Word
  csr : Tab Word
  resv : Option Nat
  code : Option (Nat × Nat × Nat)
  unit : Option (Nat × Nat × Nat)
  block : List Byte
  inBuf : Nat
  outSlot : Nat
  wait : Option (Nat × Nat)
  draining : Bool
  retired : Nat
deriving DecidableEq, Repr

/-! ### Ports (R526–R546) -/

/-- An MSI-X table entry (R534): address and data, mask, pending. -/
structure Msix where
  addr : Word
  data : BitVec 32
  mask : Bool
  pend : Bool
deriving DecidableEq, Repr

/-- A frame held in a receive buffer (R541): rule, payload, arrival time, bytes of buffer, FLAGS. -/
structure Held where
  rule : Nat
  payload : List Byte
  seen : Nat
  bytes : Nat
  flags : Nat
deriving DecidableEq, Repr

/-- A UDP flow (R536, `unhal_eth_flow`): its number, owner, edge die and sub-port, addresses, ports. -/
structure Flow where
  id : Nat
  vol : Nat
  edge : Nat
  sub : Nat
  mac : Nat
  ip : List Byte
  src : Nat
  dst : Nat
deriving DecidableEq, Repr

/-- Ports beyond their registers: PRT_PCIE_CFG and Ethernet MODE in force since the last RESTART, bridge memory windows of
root ports (port, sub-link, base, length), MSI-X tables (key: 2,048 × VF + vector) and vectors raised (VF, vector), held
frames by 4 × edge die + sub-port, times of the last PAUSE sent, end of a pause received, flows, frames and PAUSE quanta
sent, frames handed to Unhal, functions that hold doorbells during an FLR. -/
structure Ports where
  cfg : Tab Word
  mode : Tab Nat
  bridge : List (Nat × Nat × Nat × Nat)
  msix : Tab Msix
  raised : List (Nat × Nat)
  held : Tab (List Held)
  pausedAt : Tab Nat
  quietTo : Tab Nat
  flows : List Flow
  sent : List (Nat × Nat × List Byte)
  pauses : List (Nat × Nat × Nat)
  unhal : List (Nat × Nat × List Byte)
deriving DecidableEq, Repr

/-! ### The wafer and the whole machine -/

/-- An entry of Unhal's status log: severity (0 INFO, 1 WARNING, 2 ERROR, 3 FATAL), subject, argument. -/
structure LogEntry where
  sev : Nat
  what : Nat
  arg : Nat
deriving DecidableEq, Repr

/-- The wafer: everything an internal reset loses (R78), but for host memory and other wafers' memory. `now` is the
acting root's FOL_REFCOUNT since the release of internal reset (R17). `free` counts the free values taken (model's
own). -/
structure Wafer where
  now : Nat
  free : Nat
  regs : Tab Word
  mem : List Host.Cell
  poison : List Nat
  rib : Rib
  col : Col
  fol : Fol
  net : List Msg
  out : List Out
  link : Links
  coh : Coh
  que : Que
  cmds : List Cmd
  order : Nat
  log : List LogEntry
  capKw : Nat
  live : BitVec 64
  vol : Tab Vol
  prt : Ports
  eng : Tab Eng
  asc : Asc
  lve : Lve
  gat : List Sess
  rot : Tab Turn
  core : Tab Core
deriving DecidableEq, Repr

/-- The whole machine: commands waiting (first in, first out), the supervisor, the wafer. -/
structure State where
  pending : List Instr
  sup : Sup
  waf : Wafer
deriving DecidableEq, Repr

/-- Addresses of die space: die value and offset (R5), the own wafer's bits left 0. -/
def dieAddr (die off : Nat) : Nat := die * 2 ^ 48 + off

/-- The die kinds of a die value: sites, edge dies, and the acting root's registers under their own key 0x80. -/
def RegDesc.holds (r : RegDesc) (die off : Nat) : Bool :=
  (match r.kind with
   | .site => die < 128
   | .edge => 128 ≤ die && die < 144
   | .root => die == 128) &&
  r.base ≤ off &&
  (if r.stride = 0 then off == r.base else (off - r.base) % r.stride == 0 && (off - r.base) / r.stride < r.count)

/-- The register descriptor of a die-space offset, if a register lies there. -/
def regAt (die off : Nat) : Option RegDesc := regTable.find? (fun r => r.holds die off)

/-- The offset part and the die part of a die-space key. -/
def keyOff (k : Nat) : Nat := k % 2 ^ 48
def keyDie (k : Nat) : Nat := k / 2 ^ 48 % 256

/-- Reset value of the register at a key (R109): the spec's tables; VF_FIRST of PRT_PCIE_CFG is 2 × (2e + p) (R527). -/
def regReset (k : Nat) : Word :=
  match regResets.find? (fun r => r.holds (keyDie k) (keyOff k)) with
  | some r =>
    if r.base = 0x00F000160000 then
      putF (BitVec.ofNat 64 r.reset) 8 6 (2 * (2 * (keyDie k - 128) + (keyOff k - 0x00F000160000) / 0x100))
    else BitVec.ofNat 64 r.reset
  | none => 0

/-- Default of a counter's internal state. -/
def Cnt.init : Cnt :=
  { frac := 0, anchors := [], adv := none, beaconPos := 0, seq := none, gap := false, q0 := false, q1 := false, last := 0 }

def DieInfo.init : DieInfo := { state := 0, reason := 0, code := 0, hbmBad := false }

def Topo.init : Topo := { dead := [], cut := [] }

def Vol.init : Vol := { prof := [], vf := none, lost := 0, progress := 0 }

def Msix.init : Msix := { addr := 0, data := 0, mask := true, pend := false }

def Ports.init : Ports :=
  { cfg := [], mode := [], bridge := [], msix := [], raised := [], held := [], pausedAt := [], quietTo := [], flows := [],
    sent := [], pauses := [], unhal := [] }

def Eng.init : Eng := { on := none, halted := none, saved := [], emptied := false }

def Lve.init : Lve :=
  { grants := [], waits := [], next := 0, win := 0, spent := 0, env := 0, excess := none, emergency := false, told := [],
    meas := [], cool := [], paced := [] }

def Turn.init : Turn := { sent := false, arrived := false }

/-- A core with no unit, in machine mode. -/
def Core.init : Core :=
  { mmode := true, pc := 0, x := [], f := [], csr := [], resv := none, code := none, unit := none, block := [], inBuf := 0,
    outSlot := 0, wait := none, draining := false, retired := 0 }

def Win.init : Win := { cur := 0, buf := 0, acc := none, faulted := false }

/-- Buffer sizes of Table LNK-5 as initial credits: MEM, COH, IRQ, DBG normal, then escape. -/
def linkBuffers : List Nat := [256, 128, 32, 16, 16, 16, 8, 8]

def Port.init : Port :=
  { state := 0, latency := 0, guards := [], seq := 0, held := [], sentAt := 0, ackAt := 0, tries := 0, replay := none,
    credits := linkBuffers, seenFreed := [0, 0, 0, 0, 0, 0, 0, 0], expect := 0, freed := [0, 0, 0, 0, 0, 0, 0, 0],
    inbuf := [], outq := [], lastMem := false, dbgAt := 0, owed := false, nak := false, wire := [], winFlits := 0,
    winReplays := 0, since := 0, switchAt := none, reason := 0 }

/-- Spine credits in 64-byte blocks (R200): MEM, IRQ, DBG. -/
def Spine.init : Spine :=
  { seq := 0, held := [], sentAt := 0, ackAt := 0, tries := 0, replay := none, credits := [32768, 4096, 1024],
    seenFreed := [0, 0, 0], expect := 0, freed := [0, 0, 0], outq := [], wire := [], nak := false,
    winPkts := 0, winReplays := 0, since := 0, frayedAt := none, uncabled := false }

/-- The supervisor before any entry has passed 20 V: registers at their reset values (R66, R68). -/
def Sup.init : Sup :=
  { running := false, power := .off, planes := 0, hotSwap := false, inReset := true, clock := 0, regs := [],
    refSince := [], coolCap := 20, entryCap := false, capClear := none, hotSince := none, slowSince := none,
    wetSince := none, fences := [], waferNum := 0, nextSlot := false, lastReset := 0, flash := [], blown := none,
    edgeTemp := [], resetDue := none }

def Rib.init : Rib :=
  { regs := [], holder := none, key := 0, expiry := 0, win0 := Win.init, win1 := Win.init, hi := [], rspA := none,
    rspB := none, frameA := none, frameB := none }

def Boot.init : Boot :=
  { slot := false, triedBoth := false, started := 0, running := false, ready := false, svcTries := 0 }

def Col.init : Col :=
  { phase := 0, wafer := 0, root8 := false, served := false, halt := 0, crossDown := false, fallback := false, sites := [],
    dies := [], gen := 0, tCollated := 0, refAdj := [], parents := [], idents := [], claims := [], rejoin := [],
    moved := [], bank0 := Topo.init, bank1 := Topo.init, bank := false, switchAt := none, namedAt := 0, again := false, switched := none,
    heard := [], boot := Boot.init, kick := 0, measLog := [], measAcc := List.replicate 48 0, reached := false,
    shelf := [] }

/-- The wafer at the release of internal reset, with the memory that lies outside it. -/
def Wafer.init (mem : List Host.Cell) : Wafer :=
  { now := 0, free := 0, regs := [], mem := mem, poison := [], rib := Rib.init, col := Col.init,
    fol := { cnt := [], beacons := [], seen := [], staleSince := [] }, net := [], out := [],
    link := { port := [], spine := [], delivered := [], arrived := [] },
    coh := { lines := [], wback := [], dir := [], order := 0, tx := [] },
    que := { waits := [], pend := [], bursts := [], lastServed := [], stuck := [], fullWait := [], allocs := [],
             history := [], hostwinAt := 0, copying := [], bare := [], claims := [], replies := [], flushes := [] },
    cmds := [], order := 0, log := [], capKw := 0, live := 0, vol := [], prt := Ports.init, eng := [],
    asc := { moves := [], bad := [], scrub := [], ens := [] }, lve := Lve.init, gat := [], rot := [], core := [] }

/-- The machine with no entry powered: the supervisor not yet started, internal reset asserted, no command waiting. -/
def State.reset : State := { pending := [], sup := Sup.init, waf := Wafer.init [] }

end Sys2Proof.Machine
end

