-- ==== Sys2Proof/Machine/Ops.lean ====
section
/-! DEFINITION. The named operations over registers, memory, messages and counts that every meaning is built from. -/

namespace Sys2Proof.Machine

/-- Saturating subtraction of times: the cycles from `a` to `b` (10 ns each, R17). -/
def since (a b : Nat) : Nat := b - a

/-- Microseconds and milliseconds in reference cycles. -/
def us (n : Nat) : Nat := n * 100
def ms (n : Nat) : Nat := n * 100000

/-- The k low bytes of `x`, least significant first. -/
def toLE : Nat → Nat → List Byte
  | 0, _ => []
  | k + 1, x => BitVec.ofNat 8 x :: toLE k (x / 256)

/-- Little-endian value of a byte list. -/
def fromLE : List Byte → Nat
  | [] => 0
  | b :: r => b.toNat + 256 * fromLE r

/-- Big-endian value of a byte list. -/
def fromBE (l : List Byte) : Nat := l.foldl (fun a b => a * 256 + b.toNat) 0

/-- The k low bytes of `x`, most significant first. -/
def toBE (k x : Nat) : List Byte := (toLE k x).reverse

/-- Bytes [i, i + n) of a list as a little-endian number; bytes past its end count as 0. -/
def leAt (l : List Byte) (i n : Nat) : Nat := fromLE ((l.drop i).take n)

/-- `l` with the bytes from index i replaced by `v`. -/
def patch (l : List Byte) (i : Nat) (v : List Byte) : List Byte := l.take i ++ v ++ l.drop (i + v.length)

/-- A byte list brought to length n: cut, or filled with zeros. -/
def fit (n : Nat) (l : List Byte) : List Byte := (l ++ List.replicate (n - l.length) 0).take n

/-- The entry of a table whose unlisted keys hold nothing. -/
def tabGet {α : Type} (t : Tab α) (k : Nat) : Option α := (t.find? (fun e => e.1 == k)).map (·.2)

/-- Set or remove such an entry. -/
def tabSet {α : Type} (t : Tab α) (k : Nat) (x : Option α) : Tab α :=
  match x with
  | some v => Tab.ins (Tab.drop t k) k v
  | none => Tab.drop t k

/-! ### Memory -/

/-- What an unlisted byte of memory reads as: 0. DESIGN CHOICE (log entry 2), unsafe. -/
def memDefault : Nat → Byte := fun _ => 0

abbrev Memory := List Host.Cell

/-- The canonical form of memory: addresses strictly rising, no entry equal to the default. -/
def Memory.wf (m : Memory) : Bool := Tab.wf memDefault m

def Memory.read (m : Memory) (a : Nat) : Byte := Tab.look memDefault m a

def Memory.write (m : Memory) (a : Nat) (v : Byte) : Memory := Tab.put memDefault m a v

/-- Bytes [a, a + n). -/
def Memory.readN (m : Memory) (a n : Nat) : List Byte := (List.range n).map (fun i => m.read (a + i))

/-- Store a byte list from address a up. -/
def Memory.writeN : Memory → Nat → List Byte → Memory
  | m, _, [] => m
  | m, a, b :: r => Memory.writeN (m.write a b) (a + 1) r

/-- Zero the bytes [a, a + n). -/
def Memory.zero (m : Memory) (a n : Nat) : Memory := m.filter (fun c => c.1 < a || a + n ≤ c.1)

/-- Store the listed cells, each moved by `d - s`. -/
def Memory.place : Memory → Nat → Nat → List Host.Cell → Memory
  | m, _, _, [] => m
  | m, s, d, c :: r => Memory.place (m.write (c.1 - s + d) c.2) s d r

/-- Copy the bytes [s, s + n) to [d, d + n), as they were before the copy. -/
def Memory.copy (m : Memory) (s d n : Nat) : Memory :=
  Memory.place (m.zero d n) s d (m.filter (fun c => s ≤ c.1 && c.1 < s + n))

namespace Wafer

/-! ### Registers in die space -/

/-- The register at a die-space key. -/
def reg (w : Wafer) (k : Nat) : Word := Tab.look regReset w.regs k

def setReg (w : Wafer) (k : Nat) (v : Word) : Wafer := { w with regs := Tab.put regReset w.regs k v }

/-- A field of the register block at `b`. -/
def get (w : Wafer) (b : Nat) (f : Fld) : Nat := getF (w.reg (b + f.off)) f.lo f.w

def set (w : Wafer) (b : Nat) (f : Fld) (x : Nat) : Wafer :=
  w.setReg (b + f.off) (putF (w.reg (b + f.off)) f.lo f.w x)

def flag (w : Wafer) (b : Nat) (f : Fld) : Bool := w.get b f == 1

/-- Saturating count. -/
def bump (w : Wafer) (b : Nat) (f : Fld) : Wafer := w.set b f (satInc f.w (w.get b f))

/-- Saturating add. -/
def bumpBy (w : Wafer) (b : Nat) (f : Fld) (n : Nat) : Wafer := w.set b f (min (2 ^ f.w - 1) (w.get b f + n))

/-- Count modulo 2^w. -/
def count (w : Wafer) (b : Nat) (f : Fld) : Wafer := w.set b f (w.get b f + 1)

/-- A register after a software write of `v` (R9, R10): RW bits follow `v`, RW1C bits written 1 clear, others stay. -/
def merged (r : RegDesc) (old v : Word) : Word :=
  (v &&& BitVec.ofNat 64 r.rw) ||| (old &&& ~~~(BitVec.ofNat 64 r.rw) &&& ~~~(v &&& BitVec.ofNat 64 r.w1c))

/-- Write the register at key k as software does. -/
def writeKey (w : Wafer) (k : Nat) (v : Word) : Wafer :=
  match regAt (keyDie k) (keyOff k) with
  | some r => w.setReg k (merged r (w.reg k) v)
  | none => w

/-- Set every register of a list of keys back to its reset value. -/
def clearRegs (w : Wafer) (p : Nat → Bool) : Wafer := { w with regs := w.regs.filter (fun e => !(p e.1)) }

/-! ### Memory -/

def byte (w : Wafer) (a : Nat) : Byte := Memory.read w.mem a

def bytes (w : Wafer) (a n : Nat) : List Byte := Memory.readN w.mem a n

/-- Reservations of LR on words of [a, a + n) are lost (R424). -/
def unreserve (w : Wafer) (a n : Nat) : Tab Core :=
  let hit (c : Core) : Bool := match c.resv with | some k => decide (k < a + n) && decide (a < k + 8) | none => false
  w.core.foldl (fun t e => if hit e.2 then Tab.put (fun _ => Core.init) t e.1 { e.2 with resv := none } else t) w.core

def store (w : Wafer) (a : Nat) (l : List Byte) : Wafer :=
  { w with mem := Memory.writeN w.mem a l,
           core := w.unreserve a l.length,
           poison := w.poison.filter (fun p => !(decide (a ≤ p) && decide (p + 8 ≤ a + l.length))) }

def zero (w : Wafer) (a n : Nat) : Wafer :=
  { w with mem := Memory.zero w.mem a n, core := w.unreserve a n, poison := w.poison.filter (fun p => !(decide (a ≤ p) && decide (p + 8 ≤ a + n))) }

def copy (w : Wafer) (s d n : Nat) : Wafer :=
  { w with mem := Memory.copy w.mem s d n,
           core := w.unreserve d n,
           poison := w.poison.filter (fun p => !(decide (d ≤ p) && decide (p + 8 ≤ d + n))) }

/-- The 8-byte little-endian word at `a`. -/
def word (w : Wafer) (a : Nat) : Nat := fromLE (w.bytes a 8)

/-- A word of [a, a + n) is poisoned (Table MEM-7). -/
def poisoned (w : Wafer) (a n : Nat) : Bool := w.poison.any (fun p => decide (p < a + n) && decide (a < p + 8))

/-- Leave the word at `a` poisoned (Table MEM-7). -/
def poisonWord (w : Wafer) (a : Nat) : Wafer := { w with poison := a / 8 * 8 :: w.poison.filter (· ≠ a / 8 * 8) }

/-! ### Free values -/

/-- Take the next free value: a value the spec leaves open. -/
def fresh (w : Wafer) : Word × Wafer := (Config.freeValue w.free, { w with free := w.free + 1 })

/-! ### Messages -/

def send (w : Wafer) (m : Msg) : Wafer := { w with net := w.net ++ [m] }

/-- The first message in flight that satisfies `p`. -/
def incoming (w : Wafer) (p : Msg → Bool) : Option Msg := w.net.find? p

/-- The messages in flight without the first that satisfies `p`. -/
def dropFirst {α : Type} (p : α → Bool) : List α → List α
  | [] => []
  | m :: r => if p m then r else m :: dropFirst p r

def take (w : Wafer) (p : Msg → Bool) : Wafer := { w with net := dropFirst p w.net }

/-! ### Alerts and the status log -/

/-- Key of a ribbon register: port B's copy of a banked register sits at 128 + address. -/
def ribKey (p : RibPort) (a : Nat) : Nat := match p with | .a => a | .b => 128 + a

/-- Reset values of the ribbon registers (Tables RIB-7 to RIB-13). -/
def ribReset (k : Nat) : BitVec 32 :=
  match k % 128 with
  | 0x00 => 0x84204B54
  | 0x48 => 2000
  | 0x49 => 600
  | 0x4A => 0x000A1428
  | 0x4B => 2000
  | 0x4C => 50
  | 0x51 => 0x00100E00
  | 0x52 => 5000
  | 0x75 => 0x7FFF
  | 0x24 => 3
  | 0x2C => 3
  | _ => 0

def rib32 (w : Wafer) (k : Nat) : BitVec 32 := Tab.look ribReset w.rib.regs k

def setRib32 (w : Wafer) (k : Nat) (v : BitVec 32) : Wafer :=
  { w with rib := { w.rib with regs := Tab.put ribReset w.rib.regs k v } }

/-- Set source bit `b` of RIB_ALERT_SRC on one port (R116). -/
def alertOn (w : Wafer) (p : RibPort) (b : Nat) : Wafer :=
  w.setRib32 (ribKey p 0x74) (w.rib32 (ribKey p 0x74) ||| BitVec.ofNat 32 (2 ^ b))

/-- A source that is not port-specific is set on both ports (R116). -/
def alert (w : Wafer) (b : Nat) : Wafer := (w.alertOn .a b).alertOn .b b

/-- Unhal logs an entry; ERROR and FATAL raise the UNHAL alert (Table RIB-11). -/
def logEntry (w : Wafer) (sev what arg : Nat) : Wafer :=
  let w := { w with log := w.log ++ [{ sev := sev, what := what, arg := arg }] }
  if 2 ≤ sev then w.alert 11 else w

/-- PHASE changes with its alert (R129); the report is rewritten (R163). -/
def setPhase (w : Wafer) (p : Nat) : Wafer :=
  if w.col.phase = p then w
  else ({ w with col := { w.col with phase := p, gen := w.col.gen + 2,
                                     reached := w.col.reached || p = 3 || p = 4 } }).alert 0

/-- The report is rewritten: GENERATION counts before and after (R163). -/
def rewriteReport (w : Wafer) : Wafer := { w with col := { w.col with gen := w.col.gen + 2 } }

/-! ### Dies and reference counts -/

/-- Physical node of a die value: position of a logical site, or 144 + e of an edge die. -/
def nodeOf (w : Wafer) (die : Nat) : Option Nat :=
  if die < 128 then w.col.sites[die]? else if die < 144 then some (die + 16) else none

def dieInfo (w : Wafer) (node : Nat) : DieInfo := Tab.look (fun _ => DieInfo.init) w.col.dies node

def setDieInfo (w : Wafer) (node : Nat) (i : DieInfo) : Wafer :=
  { w with col := { w.col with dies := Tab.put (fun _ => DieInfo.init) w.col.dies node i } }

/-- The die is collated and in service: not absent, fenced, or in reset or rejoin (R12, R146, R518). -/
def active (w : Wafer) (die : Nat) : Bool :=
  match w.nodeOf die with
  | some n => (w.dieInfo n).state == 1 && Tab.look (fun _ => 0) w.col.rejoin die == 0
  | none => false

/-- The logical sites in service. -/
def activeSites (w : Wafer) : List Nat := (List.range w.col.sites.length).filter w.active

/-- G: the LU granted wafer-wide (R483). -/
def granted (w : Wafer) : Nat := (w.lve.grants.map (·.lu)).foldl (· + ·) 0

/-- FOL_REFCOUNT of a die (R17). -/
def refcount (w : Wafer) (die : Nat) : Nat :=
  match w.nodeOf die with
  | some n => ((w.now : Int) + Tab.look (fun _ => 0) w.col.refAdj n).toNat
  | none => w.now

end Wafer

namespace State

/-- A step of the wafer alone. -/
def onWafer (s : State) (f : Wafer → Wafer) : State := { s with waf := f s.waf }

/-- A step of the supervisor alone. -/
def onSup (s : State) (f : Sup → Sup) : State := { s with sup := f s.sup }

end State

/-! ### Block addresses -/

/-- The counter block of counter c: edge die c / 16, local counter c mod 16 (R13, R18). -/
def cntBlk (c : Nat) : Nat := dieAddr (128 + c / 16) (0x00F000020000 + c % 16 * 0x80)
/-- The image entry and held-rate copy of counter c at a site (R30). -/
def imgKey (site c : Nat) : Nat := dieAddr site (0x00F000010000 + c * 8)
def imgHeldKey (site c : Nat) : Nat := dieAddr site (0x00F000010800 + c * 8)
/-- Alarm a of a site (R41). -/
def almBlk (site a : Nat) : Nat := dieAddr site (0x00F000011000 + a * 0x40)
/-- Port registers (R188) and spine registers of global link l (R194, R202). -/
def portBlk (die dir : Nat) : Nat := dieAddr die (0x00F000030000 + dir * 0x100)
def spineBlk (l : Nat) : Nat := dieAddr (128 + l / 2) (0x00F000031000 + l % 2 * 0x100)
def memBlk (site : Nat) : Nat := dieAddr site 0x00F000050000
def admBlk (site : Nat) : Nat := dieAddr site 0x00F000060000
def cmdBlk (site : Nat) : Nat := dieAddr site 0x00F000070000
def rotBlk (site g : Nat) : Nat := dieAddr site (0x00F000071000 + g * 0x40)
def matBlk (site e : Nat) : Nat := dieAddr site (0x00F0000A0000 + e * 0x1000)
def ascBlk (site : Nat) : Nat := dieAddr site 0x00F0000B0000
def bankBlk (site b : Nat) : Nat := dieAddr site (0x00F0000B0000 + b * 0x40)
def stageRowKey (site b i : Nat) : Nat := dieAddr site (0x00F0000B4000 + b * 0x100 + i * 32)
def thumbKey (site b g : Nat) : Nat := dieAddr site (0x00F000100000 + b * 0x800 + g * 32)
def corBlk (site : Nat) : Nat := dieAddr site 0x00F0000E0000
def clusterBlk (site c : Nat) : Nat := dieAddr site (0x00F0000E0100 + c * 0x20)
def ensBlk (site g : Nat) : Nat := dieAddr site (0x00F0000F0000 + g * 0x40)
def lveBlk (site : Nat) : Nat := dieAddr site 0x00F000130000
def fltBlk (site : Nat) : Nat := dieAddr site 0x00F000140000
def ringBlk (site r : Nat) : Nat := dieAddr site (0x003000000000 + r * 64)
def syncKey (site j : Nat) : Nat := dieAddr site (0x003000040000 + j * 8)
def syncCtlBlk (site j : Nat) : Nat := dieAddr site (0x003000050000 + j * 8)
def queBlk (site : Nat) : Nat := dieAddr site 0x003000000000
def chanBlk (edge ch : Nat) : Nat := dieAddr (128 + edge) (0x003000000000 + ch * 0x400)
/-- A direction block of a channel: REQUEST at + 0x100, REPLY at + 0x200 (R278). -/
def dirBlk (edge ch : Nat) (reply : Bool) : Nat := chanBlk edge ch + (if reply then 0x200 else 0x100)
/-- Registers of the acting root's edge die, under the key of die 0x80 whichever die is root. -/
def rootKey (off : Nat) : Nat := dieAddr 128 off
def profBlk (p : Nat) : Nat := rootKey (0x00F000090000 + p * 0x20)
def hostwinBlk (v i : Nat) : Nat := rootKey (0x00F000091000 + v * 0x40 + i * 0x10)
def volwinKey (v i : Nat) : Nat := rootKey (0x00F000092000 + v * 0x20 + i * 8)
def lveWBlk : Nat := rootKey 0x00F0000D0000
def fltWBlk : Nat := rootKey 0x00F000150000
def pcieBlk (edge p : Nat) : Nat := dieAddr (128 + edge) (0x00F000160000 + p * 0x100)
def ethBlk (edge : Nat) : Nat := dieAddr (128 + edge) 0x00F000170000
def ethRuleKey (edge k i : Nat) : Nat := dieAddr (128 + edge) (0x00F000170100 + k * 0x10 + i * 8)
def hbmBlk (edge : Nat) : Nat := dieAddr (128 + edge) 0x00F000180000

end Sys2Proof.Machine
end

