-- ==== Sys2Proof/Machine/Flags.lean ====
section
/-! DEFINITION. Event and status flags: the sticky folio events with their alert, the supervisor's events with theirs,
the check codes (CRC) that decide a flag, and signed readings of positions. -/

namespace Sys2Proof.Machine

/-- A bit-serial CRC over a list of bits, most significant first, no reflection (R25, R96, R170, R198). -/
def crcBits (width poly : Nat) (init : Nat) (bits : List Bool) : Nat :=
  bits.foldl (fun c b =>
    let top := decide (2 ^ (width - 1) ≤ c)
    let s := c * 2 % 2 ^ width
    if top != b then s ^^^ poly else s) init

/-- The bits of a byte, most significant first. -/
def byteBits (b : Byte) : List Bool := (List.range 8).map (fun i => b.getLsbD (7 - i))

/-- The bits [lo, hi] of x, bit hi first. -/
def bitsDown (x hi lo : Nat) : List Bool := (List.range (hi + 1 - lo)).map (fun i => Nat.testBit x (hi - i))

/-- CRC-16 of a folio stamp: polynomial 0x1021, initial 0xFFFF, over bytes 0–13 (R25). -/
def stampCrc (l : List Byte) : Nat := crcBits 16 0x1021 0xFFFF ((l.take 14).flatMap byteBits)

/-- CRC-8 of a ribbon frame: polynomial 0x07, initial 0xFF, over the bits from hi down to 8 (R96). -/
def ribbonCrc (x hi : Nat) : Nat := crcBits 8 0x07 0xFF (bitsDown x hi 8)

/-- CRC-16 of a flit: polynomial 0x8BB7, initial 0xFFFF, over bits 543 to 16 (R170). -/
def flitCrc (x : Nat) : Nat := crcBits 16 0x8BB7 0xFFFF (bitsDown x 543 16)

/-- CRC-64 of a spine packet: polynomial 0x42F0E1EBA9EA3693, initial all ones (R198). -/
def spineCrc (l : List Byte) : Nat := crcBits 64 0x42F0E1EBA9EA3693 (2 ^ 64 - 1) (l.flatMap byteBits)

/-- Positions are modulo 2^48 (R14); a difference is read as a signed 48-bit value. -/
def pos48 (x : Int) : Nat := wrap 48 x
def diff48 (a b : Nat) : Int := signed 48 (pos48 ((a : Int) - b))

namespace Wafer

/-- Latch a bit of FOL_CNT_STAT; a bit that becomes set while enabled raises the FOLIO alert (R21, R116). -/
def cntEvent (w : Wafer) (c : Nat) (f : Fld) : Wafer :=
  let b := cntBlk c
  let isNew := w.get b f == 0
  let w' := w.set b f 1
  if isNew && Nat.testBit (w.get b F.FOL_CNT_ALERT_EN.VAL) f.lo then w'.alert 7 else w'

/-- Latch an event bit of a block. -/
def latch (w : Wafer) (b : Nat) (f : Fld) : Wafer := w.set b f 1

/-- Set a bit of RIB_LEASE_EVT on both ports, with the LEASE alert of each (R116, R118). -/
def leaseEvent (w : Wafer) (bit : Nat) : Wafer :=
  let one (w : Wafer) (p : RibPort) : Wafer :=
    let k := ribKey p 0x0A
    let isNew := !(w.rib32 k).getLsbD bit
    let w' := w.setRib32 k (w.rib32 k ||| BitVec.ofNat 32 (2 ^ bit))
    if isNew then w'.alertOn p 2 else w'
  one (one w .a) .b

end Wafer

namespace Sup

/-- Reset value of a supervisor register (R68). -/
def regReset (off : Nat) : Word := if off = 0x28 then 0x1FFF else 0

def reg (s : Sup) (off : Nat) : Word := Tab.look regReset s.regs off
def setReg (s : Sup) (off : Nat) (v : Word) : Sup := { s with regs := Tab.put regReset s.regs off v }
def get (s : Sup) (f : Fld) : Nat := getF (s.reg f.off) f.lo f.w
def set (s : Sup) (f : Fld) (x : Nat) : Sup := s.setReg f.off (putF (s.reg f.off) f.lo f.w x)
def flag (s : Sup) (f : Fld) : Bool := s.get f == 1

/-- MOD_PWR_IIN (R68): 0 with the stages open; no command gives the currents of a powered module, so they are free
values (log entry 3). -/
def iin (s : Sup) : Word := if s.power = .on then Config.freeOf 2 (BitVec.ofNat 64 s.clock) 0 else 0

end Sup

namespace State

/-- Latch a MOD_EVENT bit; one that becomes set while enabled raises the SUPV alert (R70, R116). -/
def modEvent (s : State) (f : Fld) : State :=
  let isNew := s.sup.get f == 0
  let s' := s.onSup (fun p => p.set f 1)
  if isNew && Nat.testBit (s.sup.get F.MOD_ALERT_EN.EN) f.lo && !s.sup.inReset then s'.onWafer (fun w => w.alert 6) else s'

end State
end Sys2Proof.Machine
end

