-- ==== Sys2Proof/Machine/Folio.lean ====
section
/-! DEFINITION. Folio counters (spec file 01): sources, in-band stamps, the derived timebase, the rate estimator, beacons
and the register writes of counters and alarms (R13–R49). -/

namespace Sys2Proof.Machine
namespace Wafer

/-! ### Shared operations on a counter -/

def cnt (w : Wafer) (c : Nat) : Cnt := Tab.look (fun _ => Cnt.init) w.fol.cnt c

def setCnt (w : Wafer) (c : Nat) (k : Cnt) : Wafer :=
  { w with fol := { w.fol with cnt := Tab.put (fun _ => Cnt.init) w.fol.cnt c k } }

def cntPos (w : Wafer) (c : Nat) : Nat := w.get (cntBlk c) F.FOL_CNT_POS.POSITION

def cntSource (w : Wafer) (c : Nat) : Nat := w.get (cntBlk c) F.FOL_CNT_CFG.SOURCE

/-- FOL_REFCOUNT of the edge die that holds counter c. -/
def cntRef (w : Wafer) (c : Nat) : Nat := w.refcount (128 + c / 16)

/-- Discard the anchors; with fewer than two anchors FOL_CNT_RATE reads 0 (R36). -/
def restartEstimator (w : Wafer) (c : Nat) : Wafer :=
  (w.setCnt c { w.cnt c with anchors := [] }).setReg (cntBlk c + 0x18) 0

/-- An advance of counter c to a new position p at time t: clears STALLED (R37); the first forward advance clears
REVERSED, a change of direction that restarts the estimator (R36, R38). An unchanged position is no advance. -/
def advance (w : Wafer) (c p t : Nat) : Wafer :=
  if p = w.cntPos c then w else
  let b := cntBlk c
  let turn := decide (0 < diff48 p (w.cntPos c)) && w.flag b F.FOL_CNT_POS.REVERSED
  let w := (w.set b F.FOL_CNT_POS.POSITION p).set b F.FOL_CNT_POS.STALLED 0
  let w := w.setCnt c { w.cnt c with adv := some (p, t), last := t }
  if turn then (w.set b F.FOL_CNT_POS.REVERSED 0).restartEstimator c else w

/-- A declared jump: the epoch rises by 1 modulo 256, JUMP latches, the estimator restarts (R15, R36, R39). -/
def declareJump (w : Wafer) (c : Nat) : Wafer :=
  ((w.count (cntBlk c) F.FOL_CNT_POS.EPOCH).cntEvent c F.FOL_CNT_STAT.JUMP).restartEstimator c

/-- A reversal: REVERSED set, REVERSAL latched; at a change of direction the estimator restarts (R36, R38). -/
def declareReversal (w : Wafer) (c : Nat) : Wafer :=
  let turn := !w.flag (cntBlk c) F.FOL_CNT_POS.REVERSED
  let w := (w.set (cntBlk c) F.FOL_CNT_POS.REVERSED 1).cntEvent c F.FOL_CNT_STAT.REVERSAL
  if turn then w.restartEstimator c else w

/-- Load a position: a declared jump (R24, R39). The stall clock starts again. -/
def loadPosition (w : Wafer) (c p : Nat) : Wafer :=
  let w := (w.set (cntBlk c) F.FOL_CNT_POS.POSITION p).declareJump c
  w.setCnt c { w.cnt c with adv := none, beaconPos := p % 2 ^ 48, frac := 0, last := w.cntRef c }

/-- The checks of R20 on a FOL_CNT_CFG value. -/
def cfgOk (v : Word) : Bool :=
  getF v 0 3 ≤ 5 && getF v 8 8 != 0 && 6 ≤ getF v 16 5 && getF v 16 5 ≤ 26

/-- Bind the counter to a source: NOMRATE is copied into HELD (R40), and the next accepted stamp is the first (R27). -/
def bindSource (w : Wafer) (c : Nat) : Wafer :=
  let w := w.setReg (cntBlk c + 0x20) (w.reg (cntBlk c + 0x28))
  w.setCnt c { w.cnt c with seq := none, gap := false, last := w.cntRef c }

/-- A write of FOL_CNT_CFG (R20); none: refused with a protection fault. A write that changes SOURCE binds it. -/
def writeCntCfg (w : Wafer) (c : Nat) (v : Word) : Option Wafer :=
  if cfgOk v then
    let old := w.cntSource c
    let w := w.setReg (cntBlk c) (v &&& 0xFFFFFFFF001FFF3F)
    some (if old = getF v 0 3 then w else w.bindSource c)
  else none

/-- A write of FOL_CNT_NOMRATE copies it into FOL_CNT_HELD (R40). -/
def writeNomrate (w : Wafer) (c : Nat) (v : Word) : Wafer :=
  (w.setReg (cntBlk c + 0x28) v).setReg (cntBlk c + 0x20) v

/-- Whether an edge die is in service; the counters and inputs of a fenced one are lost (R61). -/
def edgeUp (w : Wafer) (edge : Nat) : Bool := w.active (128 + edge)

/-! ### Tick inputs (R22, R23) -/

/-- The qualified level of an input: the new level once it has held for GLITCH samples, else the old one (R22). -/
def qualify (old lv : Bool) (held glitch : Nat) : Bool := if glitch ≤ held then lv else old

/-- One sample of both tick inputs, as counter c sees it (R23). -/
def tickCounter (w : Wafer) (c : Nat) (lv0 : Bool) (held0 : Nat) (lv1 : Bool) (held1 : Nat) : Wafer :=
  let b := cntBlk c
  let k := w.cnt c
  let g := w.get b F.FOL_CNT_CFG.GLITCH
  let n0 := qualify k.q0 lv0 held0 g
  let n1 := qualify k.q1 lv1 held1 g
  let src := w.cntSource c
  let inv := w.flag b F.FOL_CNT_CFG.DIR_INVERT
  let sel1 := w.flag b F.FOL_CNT_CFG.TICK_INPUT
  let t := w.cntRef c
  let w := w.setCnt c { k with q0 := n0, q1 := n1 }
  let rise := if sel1 then n1 && !k.q1 else n0 && !k.q0
  let other := if sel1 then n0 else n1
  let stepBy (up : Bool) : Wafer := w.advance c (pos48 ((w.cntPos c : Int) + (if up then 1 else -1))) t
  if src = 1 then (if rise then stepBy true else w)
  else if src = 2 then (if rise then stepBy (other != inv) else w)
  else if src = 3 then
    let ch0 := n0 != k.q0
    let ch1 := n1 != k.q1
    if ch0 && ch1 then w.cntEvent c F.FOL_CNT_STAT.QUAD_ERR
    else if ch0 then stepBy ((n0 != n1) != inv)
    else if ch1 then stepBy ((n0 == n1) != inv)
    else w
  else w

/-! ### Stamps (R25–R28) -/

/-- Discard a stamp that names counter c, with the status bit that says why, if any (R26). -/
def discardStamp (w : Wafer) (c : Nat) (f : Option Fld) : Wafer :=
  let w := w.bump (cntBlk c) F.FOL_CNT_STAT.DISCARDS
  match f with
  | some f => w.cntEvent c f
  | none => w

/-- A stamp whose checks of R26 have passed: sequence, gap, delta or absolute position, JUMP and REVERSE (R27, R38, R39). -/
def acceptStamp (w : Wafer) (c : Nat) (l : List Byte) : Wafer :=
  let flags := leAt l 1 1
  let isAbs := Nat.testBit flags 0
  let jmp := Nat.testBit flags 1
  let rev := Nat.testBit flags 2
  let seq := leAt l 3 1
  let val := fromBE ((l.drop 4).take 6)
  let t := w.cntRef c
  let k := w.cnt c
  let gapNow := match k.seq with
    | none => false
    | some p => seq != (p + 1) % 256
  let w := if gapNow then (w.cntEvent c F.FOL_CNT_STAT.SEQ_GAP).setCnt c { w.cnt c with gap := true } else w
  if !isAbs && (k.gap || gapNow) then w.discardStamp c none
  else if !isAbs && rev && decide (0 ≤ signed 48 val) then w.discardStamp c (some F.FOL_CNT_STAT.STAMP_IGNORED)
  else
    let p := if isAbs then val else pos48 ((w.cntPos c : Int) + signed 48 val)
    let w := w.setCnt c { w.cnt c with seq := some seq, gap := false }
    let w :=
      if isAbs && jmp then
        let w := (w.set (cntBlk c) F.FOL_CNT_POS.POSITION p).declareJump c
        let w := (w.set (cntBlk c) F.FOL_CNT_POS.STALLED 0)
        w.setCnt c { w.cnt c with beaconPos := p, adv := some (p, t), last := t }
      else w.advance c p t
    if rev then w.declareReversal c else w

/-- A stamp at an edge die (R26): CRC, type, version, own counter, SOURCE STAMP; else it is discarded. -/
def stamp (w : Wafer) (edge : Nat) (l : List Byte) : Wafer :=
  let c := leAt l 2 1
  if stampCrc l ≠ fromBE ((l.drop 14).take 2) then w.discardStamp c (some F.FOL_CNT_STAT.CRC_ERR)
  else if leAt l 0 1 = 0xF5 && leAt l 1 1 / 16 = 1 && c / 16 = edge && w.cntSource c = 4 then w.acceptStamp c l
  else w.discardStamp c (some F.FOL_CNT_STAT.STAMP_IGNORED)

/-! ### Derived timebase (R29) and stall (R37) -/

def derivedCounter (w : Wafer) (c : Nat) : Wafer :=
  if w.cntSource c = 5 && w.flag (cntBlk c) F.FOL_CNT_CFG.DERIVED_RUN then
    let sum := (w.cnt c).frac + (w.reg (cntBlk c + 0x30)).toNat
    let t := w.cntRef c
    let w := w.setCnt c { w.cnt c with frac := sum % 2 ^ 32 }
    if sum / 2 ^ 32 = 0 then w else w.advance c (pos48 ((w.cntPos c + sum / 2 ^ 32 : Nat) : Int)) t
  else w

/-- The condition of a stall: a bound source, detection on, not yet declared, STALL_US µs without an advance; a held
derived counter never stalls (R29, R37). -/
def stallDue (w : Wafer) (c : Nat) : Bool :=
  let b := cntBlk c
  let lim := w.get b F.FOL_CNT_CFG.STALL_US
  w.cntSource c != 0 && lim != 0 && !w.flag b F.FOL_CNT_POS.STALLED &&
  !(w.cntSource c == 5 && !w.flag b F.FOL_CNT_CFG.DERIVED_RUN) && us lim ≤ since (w.cnt c).last (w.cntRef c)

def declareStall (w : Wafer) (c : Nat) : Wafer :=
  ((w.set (cntBlk c) F.FOL_CNT_POS.STALLED 1).cntEvent c F.FOL_CNT_STAT.STALL).restartEstimator c

/-! ### The rate estimator (R35, R36) -/

/-- Division rounded to nearest, ties to even. -/
def divEven (a : Int) (b : Nat) : Int :=
  let q := Int.fdiv a b
  let r2 := 2 * (a - q * b)
  if r2 < b then q else if (b : Int) < r2 then q + 1 else if q % 2 = 0 then q else q + 1

/-- The rate from the latest advance and the anchors (youngest first), window W µs: signed 32.32 ft/µs (R35). With fewer
than two anchors it is 0 (R36). A difference of 0 counts has no stated rate: a free value. -/
def estimate (k : Cnt) (wLog2 : Nat) : Word :=
  match k.adv with
  | none => 0
  | some (p, t) =>
    if k.anchors.length < 2 then 0 else
    let older := k.anchors.filter (fun a => a.2 < t)
    let inWin := older.filter (fun a => t - us (2 ^ wLog2) ≤ a.2)
    let a := (inWin.getLast?).orElse (fun _ => older.head?)
    match a with
    | none => Config.freeOf 1 (BitVec.ofNat 64 p) (BitVec.ofNat 64 t)
    | some (pa, ta) => BitVec.ofInt 64 (divEven (diff48 p pa * 2 ^ 32 * 100) (t - ta))

/-- One counter at a beacon: jump or reversal by the change since the last beacon (R38, R39), anchor (R35), rate, held
rate (R40). -/
def sampleCounter (w : Wafer) (c : Nat) : Wafer :=
  let b := cntBlk c
  let p := w.cntPos c
  let d := diff48 p (w.cnt c).beaconPos
  let lim := w.get b F.FOL_CNT_JUMP_LIMIT.VAL
  let w := if lim < d.natAbs then w.declareJump c else if d < 0 then w.declareReversal c else w
  let k := w.cnt c
  let wl := w.get b F.FOL_CNT_CFG.WINDOW_LOG2
  let far := match k.adv, k.anchors with
    | some (_, t), (_, ta) :: _ => decide (us (2 ^ wl) / 64 ≤ since ta t)
    | some _, [] => true
    | none, _ => false
  let k := match k.adv with
    | some a => if d ≠ 0 && far then { k with anchors := (a :: k.anchors).take 64 } else k
    | none => k
  let k := { k with beaconPos := p }
  let w := w.setCnt c k
  let rate : Word :=
    if w.flag b F.FOL_CNT_POS.STALLED then 0
    else if w.cntSource c = 5 then (if w.flag b F.FOL_CNT_CFG.DERIVED_RUN then w.reg (b + 0x30) else 0)
    else estimate k wl
  let w := w.setReg (b + 0x18) rate
  if 0 < rate.toInt && !w.flag b F.FOL_CNT_POS.STALLED && !w.flag b F.FOL_CNT_POS.REVERSED then
    w.setReg (b + 0x20) rate
  else w

/-- The image entry a beacon carries for counter c (R30, R31). -/
def beaconWord (w : Wafer) (c : Nat) : Word :=
  let b := cntBlk c
  BitVec.ofNat 64 (w.cntPos c + w.get b F.FOL_CNT_POS.STALLED * 2 ^ 49 + w.get b F.FOL_CNT_POS.REVERSED * 2 ^ 50 +
    (if w.cntSource c = 0 then 2 ^ 51 else 0) + w.get b F.FOL_CNT_POS.EPOCH * 2 ^ 56)

/-- All counters of an edge die, in order. -/
def overCounters (w : Wafer) (edge : Nat) (f : Wafer → Nat → Wafer) : Wafer :=
  (List.range 16).foldl (fun w j => f w (edge * 16 + j)) w

/-- Sample an edge die and send its beacon to every active site (R31). -/
def sampleEdge (w : Wafer) (edge : Nat) : Wafer :=
  let t := w.refcount (128 + edge)
  let w := w.overCounters edge sampleCounter
  let h := t / 100 % 16
  let bc : Beacon :=
    { edge := edge, sample := t, words := (List.range 16).map (fun j => w.beaconWord (edge * 16 + j)),
      heldIdx := h, held := w.reg (cntBlk (edge * 16 + h) + 0x20), sites := w.activeSites }
  { w with fol := { w.fol with beacons := w.fol.beacons ++ [bc] } }

/-! ### The site image (R30, R33, R34) -/

def lastSeen (w : Wafer) (site edge : Nat) : Nat := Tab.look (fun _ => 0) w.fol.seen (site * 16 + edge)

/-- Set STALE on the 16 entries of an edge die, noting when the condition began (R34, R61). -/
def setStale (w : Wafer) (site edge : Nat) : Wafer :=
  let fresh := !w.flag (imgKey site (edge * 16)) F.FOL_IMG.STALE
  let w := w.overCounters edge (fun w c => w.set (imgKey site c) F.FOL_IMG.STALE 1)
  if fresh then
    { w with fol := { w.fol with staleSince := Tab.put (fun _ => 1) w.fol.staleSince (site * 16 + edge) (w.refcount site + 1) } }
  else w

/-! ### Alarm registers (R41, R45) -/

/-- Whether a source may write an alarm: Unhal always, a volume only its own (R41). -/
def almAllowed (w : Wafer) (src : Src) (site a : Nat) : Bool :=
  match src with
  | .unhal => true
  | .ribbon => false
  | .volume v => v.val == w.get (almBlk site a) F.FOL_ALM_CFG.VOLUME

/-- A write to register `r` (0 CFG to 4 STAT) of an alarm; none: protection fault (R41, R45). Only Unhal writes VOLUME. -/
def writeAlarm (w : Wafer) (src : Src) (site a r : Nat) (v : Word) : Option Wafer :=
  if w.almAllowed src site a then
    let b := almBlk site a
    let old := w.reg (b + 8 * r)
    some (match r with
      | 0 => w.setReg b (if src = .unhal then v &&& 0x3FFF3F else (v &&& 0xFF3F) ||| (old &&& 0x3F0000))
      | 1 => w.setReg (b + 8) (v &&& 0xFFFFFFFFFFFF)
      | 2 => w.setReg (b + 16) (v &&& 0xFFFFFFFFFFFF)
      | 3 => w.setReg (b + 24) (v &&& 0xFFFFFFFF03FFFFFF)
      | _ => w.setReg (b + 32) (old &&& ~~~(v &&& 0xFF16)))
  else none

/-- ENABLE with a firing still to come: a reserved DIR, and a periodic alarm with PERIOD 0 or DIR EITHER, never fire. -/
def almArmed (w : Wafer) (site a : Nat) : Bool :=
  let b := almBlk site a
  let dir := w.get b F.FOL_ALM_CFG.DIR
  w.flag b F.FOL_ALM_CFG.ENABLE && dir != 3 &&
  !(w.flag b F.FOL_ALM_CFG.PERIODIC && (dir == 2 || w.get b F.FOL_ALM_PERIOD.PERIOD == 0))

/-- HELD: the counter's image entry is STALE or SOURCE_OFF (R48). -/
def almHeld (w : Wafer) (site a : Nat) : Bool :=
  let b := almBlk site a
  let i := imgKey site (w.get b F.FOL_ALM_CFG.COUNTER)
  w.flag b F.FOL_ALM_CFG.ENABLE && (w.flag i F.FOL_IMG.STALE || w.flag i F.FOL_IMG.SOURCE_OFF)

end Wafer

/-- May write under R19: a ribbon window or Unhal. -/
def configSrc : Src → Bool
  | .ribbon => true
  | .unhal => true
  | .volume _ => false

/-! ### Meanings -/

/-- TICK_EDGE (R22, R23): one 1.4 GHz sample of an edge die's two tick inputs, each with how many samples it has held. -/
def execTickEdge (edge : Fin 16) (lv0 : Bool) (held0 : Nat) (lv1 : Bool) (held1 : Nat) (s : State) :
    Host.Outcome State Fault Refusal :=
  .next (s.onWafer fun w =>
    if w.edgeUp edge then w.overCounters edge (fun w c => w.tickCounter c lv0 held0 lv1 held1) else w)

/-- FOLIO_STAMP (R25–R28): a 16-byte stamp at an edge die. -/
def execFolioStamp (edge : Fin 16) (_path : StampPath) (l : List Byte) (s : State) :
    Host.Outcome State Fault Refusal :=
  .next (s.onWafer fun w => if w.edgeUp edge && l.length = 16 then w.stamp edge l else w)

/-- DERIVED_ADVANCE (R29): at a FOL_REFCOUNT multiple of 100. -/
def execDerivedAdvance (edge : Fin 16) (s : State) : Host.Outcome State Fault Refusal :=
  .next (s.onWafer fun w =>
    if w.edgeUp edge && w.refcount (128 + edge) % 100 = 0 then w.overCounters edge Wafer.derivedCounter else w)

/-- BEACON_SAMPLE (R31, R35–R40): at a FOL_REFCOUNT multiple of 100, once collation has reported readiness. -/
def execBeaconSample (edge : Fin 16) (s : State) : Host.Outcome State Fault Refusal :=
  .next (s.onWafer fun w =>
    if w.edgeUp edge && w.col.reached && w.refcount (128 + edge) % 100 = 0 then w.sampleEdge edge else w)

/-- STALE (R34): no beacon newer than 200 counts. -/
def execStale (site : Fin 128) (edge : Fin 16) (s : State) : Host.Outcome State Fault Refusal :=
  .next (s.onWafer fun w =>
    if w.lastSeen site edge + 200 < w.refcount site then w.setStale site edge else w)

/-- STALE_FAULT (R61): STALE held for 10 ms; Unhal logs it. -/
def execStaleFault (site : Fin 128) (edge : Fin 16) (s : State) : Host.Outcome State Fault Refusal :=
  .next (s.onWafer fun w =>
    let t := Tab.look (fun _ => 1) w.fol.staleSince (site * 16 + edge)
    if w.flag (imgKey site (edge * 16)) F.FOL_IMG.STALE && t != 0 && ms 10 ≤ since (t - 1) (w.refcount site) then
      let w := w.logEntry 1 61 (site * 16 + edge)
      { w with fol := { w.fol with staleSince := Tab.put (fun _ => 1) w.fol.staleSince (site * 16 + edge) 0 } }
    else w)

/-- STALL (R37). -/
def execStall (ctr : Fin 256) (s : State) : Host.Outcome State Fault Refusal :=
  .next (s.onWafer fun w => if w.stallDue ctr then w.declareStall ctr else w)

/-- FOL_CNT_CFG_WRITE (R19, R20). -/
def execFolCntCfgWrite (src : Src) (ctr : Fin 256) (value : Word) (s : State) : Host.Outcome State Fault Refusal :=
  .next (s.onWafer fun w => if configSrc src then (w.writeCntCfg ctr value).getD w else w)

/-- FOL_CNT_LOAD (R19, R24, R39). -/
def execFolCntLoad (src : Src) (ctr : Fin 256) (value : Word) (s : State) : Host.Outcome State Fault Refusal :=
  .next (s.onWafer fun w => if configSrc src then w.loadPosition ctr (value.toNat % 2 ^ 48) else w)

/-- FOL_CNT_NOMRATE_WRITE (R19, R40). -/
def execFolCntNomrateWrite (src : Src) (ctr : Fin 256) (value : Word) (s : State) :
    Host.Outcome State Fault Refusal :=
  .next (s.onWafer fun w => if configSrc src then w.writeNomrate ctr value else w)

/-- CLR_DISCARDS (R19, R21). -/
def execClrDiscards (src : Src) (ctr : Fin 256) (s : State) : Host.Outcome State Fault Refusal :=
  .next (s.onWafer fun w => if configSrc src then w.set (cntBlk ctr) F.FOL_CNT_STAT.DISCARDS 0 else w)

/-- FOL_ALM_WRITE (R41, R45). -/
def execFolAlmWrite (src : Src) (site : Fin 128) (alarm : Fin 256) (reg : Fin 5) (value : Word) (s : State) :
    Host.Outcome State Fault Refusal :=
  .next (s.onWafer fun w => if w.active site then (w.writeAlarm src site alarm reg value).getD w else w)

end Sys2Proof.Machine
end

