-- ==== Sys2Proof/Machine/Topology.lean ====
section
/-! DEFINITION. Physical positions, neighbours, links, serpentine numbering, buddies, routes, the escape tree and the
gathering tree (R6, R7, R62–R65, R144–R151, R176). A node is a position 12 × row + column (0–143) or 144 + edge die. -/

namespace Sys2Proof.Machine

/-- A grid position outside the four corner blocks (R62). -/
def present (r c : Nat) : Bool :=
  decide (r < 12) && decide (c < 12) && !((decide (r < 2) || decide (10 ≤ r)) && (decide (c < 2) || decide (10 ≤ c)))

/-- The two boundary sites of an edge die, in the order of Table MOD-1. -/
def edgeSites (e : Nat) : List Nat :=
  let q := e % 4
  if e < 4 then [2 + 2 * q, 3 + 2 * q]
  else if e < 8 then [(2 + 2 * q) * 12 + 11, (3 + 2 * q) * 12 + 11]
  else if e < 12 then [11 * 12 + 9 - 2 * q, 11 * 12 + 8 - 2 * q]
  else [(9 - 2 * q) * 12, (8 - 2 * q) * 12]

/-- The edge die that a boundary position's outward link reaches in a direction, if any (Table MOD-1). -/
def outwardEdge (p dir : Nat) : Option Nat :=
  let r := p / 12
  let c := p % 12
  if dir = 0 && r = 0 then some ((c - 2) / 2)
  else if dir = 1 && c = 11 then some (4 + (r - 2) / 2)
  else if dir = 2 && r = 11 then some (8 + (9 - c) / 2)
  else if dir = 3 && c = 0 then some (12 + (9 - r) / 2)
  else none

/-- The node at the far end of a position's link in direction N 0, E 1, S 2, W 3; of an edge die's port 0 or 1. -/
def neighbour (node dir : Nat) : Option Nat :=
  if node < 144 then
    let r := node / 12
    let c := node % 12
    if !present r c then none
    else match outwardEdge node dir with
      | some e => some (144 + e)
      | none =>
        let q := match dir with
          | 0 => if 0 < r then some (r - 1, c) else none
          | 1 => some (r, c + 1)
          | 2 => some (r + 1, c)
          | _ => if 0 < c then some (r, c - 1) else none
        match q with
        | some (r', c') => if present r' c' then some (r' * 12 + c') else none
        | none => none
  else (edgeSites (node - 144))[dir]?

/-- The port of the far end that leads back. -/
def backDir (node dir : Nat) : Nat :=
  match neighbour node dir with
  | some m =>
    if 144 ≤ m then (if (edgeSites (m - 144))[0]? = some node then 0 else 1)
    else if 144 ≤ node then
      ((List.range 4).find? (fun d => outwardEdge m d == some (node - 144))).getD 0
    else (dir + 2) % 4
  | none => 0

/-- The ports of a node. -/
def portsOf (node : Nat) : List Nat := if node < 144 then [0, 1, 2, 3] else [0, 1]

/-- The naming port of a link (R192): west end with DIR E, north end with DIR S, or the site end of an outward link. -/
def linkName (node dir : Nat) : Nat × Nat :=
  match neighbour node dir with
  | some m =>
    if 144 ≤ node then (m, backDir node dir)
    else if 144 ≤ m then (node, dir)
    else if dir = 0 || dir = 3 then (m, backDir node dir) else (node, dir)
  | none => (node, dir)

/-- Every link of the wafer under its naming port: 232 between sites and 32 outward (R132). -/
def allLinks : List (Nat × Nat) :=
  (List.range 144).flatMap fun p =>
    (List.range 4).filterMap fun d =>
      match neighbour p d with
      | some m => if 144 ≤ m || d = 1 || d = 2 then some (p, d) else none
      | none => none

/-- Positions in serpentine row order (R144). -/
def serpentine : List Nat :=
  (List.range 12).flatMap fun r =>
    ((List.range 12).map (fun i => r * 12 + (if r % 2 = 0 then i else 11 - i))).filter (fun p => present (p / 12) (p % 12))

namespace Topo

/-- A node of this topology is in service. -/
def up (t : Topo) (n : Nat) : Bool := !t.dead.contains n

/-- A link in service that joins two dies in service. -/
def linkUp (t : Topo) (node dir : Nat) : Bool :=
  match neighbour node dir with
  | some m => t.up node && t.up m && !t.cut.contains (linkName node dir)
  | none => false

/-- Breadth-first distances over site-to-site links from a set of positions: after k rounds, those within k hops. -/
def spread (t : Topo) : Nat → List (Nat × Nat) → List (Nat × Nat)
  | 0, seen => seen
  | k + 1, seen =>
    let d := (seen.head?.map (·.2)).getD 0
    let front := seen.filter (fun x => x.2 == d)
    let new := (front.flatMap fun x =>
      (List.range 4).filterMap fun dir =>
        match neighbour x.1 dir with
        | some m => if m < 144 && t.linkUp x.1 dir && !(seen.any (fun y => y.1 == m)) then some m else none
        | none => none).dedup
    if new.isEmpty then seen else spread t k (new.map (fun m => (m, d + 1)) ++ seen)

/-- Hops from every reachable site position to `dst`. -/
def dist (t : Topo) (dst : Nat) : List (Nat × Nat) := if t.up dst then t.spread 144 [(dst, 0)] else []

def distOf (l : List (Nat × Nat)) (n : Nat) : Option Nat := (l.find? (fun x => x.1 == n)).map (·.2)

/-- First hop from a site to a site: a shortest path, the lowest direction code on a tie (R147). -/
def hop (t : Topo) (src dst : Nat) : Option Nat :=
  let l := t.dist dst
  match distOf l src with
  | some (d + 1) =>
    (List.range 4).find? fun dir =>
      match neighbour src dir with
      | some m => m < 144 && t.linkUp src dir && distOf l m == some d
      | none => false
  | _ => none

/-- The boundary site a route to or from an edge die uses: the shorter path, on a tie the lower logical number (R147).
`num` gives logical numbers. -/
def edgeVia (t : Topo) (num : Nat → Nat) (e site : Nat) : Option Nat :=
  let l := t.dist site
  let c := (edgeSites e).filterMap fun b =>
    let dir := ((List.range 4).find? (fun d => outwardEdge b d == some e)).getD 0
    match distOf l b with
    | some d => if t.linkUp b dir then some (d, num b, b) else none
    | none => none
  match c with
  | [] => none
  | [x] => some x.2.2
  | x :: y :: _ => some (if x.1 < y.1 || (x.1 == y.1 && x.2.1 ≤ y.2.1) then x.2.2 else y.2.2)

/-- Output of a node's router for a destination node: 0–3, 4 local, none: no route (R147). -/
def route (t : Topo) (num : Nat → Nat) (src dst : Nat) : Option Nat :=
  if !t.up src || !t.up dst then none
  else if src = dst then some 4
  else if src < 144 then
    if dst < 144 then t.hop src dst
    else match t.edgeVia num (dst - 144) src with
      | some b => if b = src then (List.range 4).find? (fun d => outwardEdge b d == some (dst - 144)) else t.hop src b
      | none => none
  else if dst < 144 then
    match t.edgeVia num (src - 144) dst with
    | some b => (List.range 2).find? (fun i => (edgeSites (src - 144))[i]? == some b)
    | none => none
  else
    (List.range 2).find? (fun i =>
      match (edgeSites (src - 144))[i]? with
      | some b => t.linkUp src i && (t.edgeVia num (dst - 144) b).isSome
      | none => false)

/-- Parent of a site in the escape tree rooted at `root`: the neighbour with the fewest hops, lowest direction on a
tie (R176). -/
def escParent (t : Topo) (root n : Nat) : Option Nat :=
  let l := t.dist root
  match distOf l n with
  | some (d + 1) =>
    (List.range 4).find? fun dir =>
      match neighbour n dir with
      | some m => m < 144 && t.linkUp n dir && distOf l m == some d
      | none => false
  | _ => none

/-- The chain of positions from n up to the escape root. -/
def escChain (t : Topo) (root : Nat) : Nat → Nat → List Nat
  | 0, n => [n]
  | k + 1, n =>
    match t.escParent root n with
    | some dir => n :: escChain t root k ((neighbour n dir).getD n)
    | none => [n]

/-- Output on the escape tree: up until an ancestor of the destination, then down; an edge die hangs from its active
boundary site with the lower logical number (R176). -/
def escRoute (t : Topo) (num : Nat → Nat) (root src dst : Nat) : Option Nat :=
  let hang (e : Nat) : Option Nat :=
    let c := (edgeSites e).filter (fun b => t.up b)
    match c with
    | [] => none
    | [x] => some x
    | x :: y :: _ => some (if num x ≤ num y then x else y)
  if !t.up src || !t.up dst then none
  else if src = dst then some 4
  else if 144 ≤ src then
    match hang (src - 144) with
    | some b => (List.range 2).find? (fun i => (edgeSites (src - 144))[i]? == some b)
    | none => none
  else
    let target := if dst < 144 then some dst else hang (dst - 144)
    match target with
    | none => none
    | some d =>
      if src = d then (List.range 4).find? (fun k => outwardEdge src k == some (dst - 144))
      else
        let chain := t.escChain root 144 d
        if chain.contains src then
          let child := (chain.takeWhile (· != src)).getLast?
          (List.range 4).find? (fun k => neighbour src k == child && child.isSome)
        else t.escParent root src

end Topo

namespace Wafer

/-- Logical number of a position, if it has one. -/
def logicalOf (w : Wafer) (p : Nat) : Option Nat := (w.col.sites.findIdx? (· == p))

/-- The topology in force now, from the state of every die and port (R147, R148). -/
def topoNow (w : Wafer) : Topo :=
  { dead := (List.range 160).filter (fun n => (w.dieInfo n).state != 1),
    cut := allLinks.filter (fun l => (Tab.look (fun _ => Port.init) w.link.port (l.1 * 4 + l.2)).state == 2 ||
      (Tab.look (fun _ => Port.init) w.link.port (l.1 * 4 + l.2)).state == 5) }

/-- The active sites of a row, as (column, logical number). -/
def rowSites (w : Wafer) (r : Nat) : List (Nat × Nat) :=
  (List.range 12).filterMap fun c =>
    match w.logicalOf (r * 12 + c) with
    | some s => if w.active s then some (c, s) else none
    | none => none

/-- The buddy of a site (R145): nearest active site to its east in the row, else to its west, else the next higher
logical number, and 0 for the last. -/
def buddy (w : Wafer) (s : Nat) : Nat :=
  match w.col.sites[s]? with
  | none => s
  | some p =>
    let row := w.rowSites (p / 12)
    match (row.filter (fun x => p % 12 < x.1)).head?, (row.filter (fun x => x.1 < p % 12)).getLast? with
    | some x, _ => x.2
    | none, some x => x.2
    | none, none =>
      match (w.activeSites.filter (fun x => s < x)).head? with
      | some x => x
      | none => (w.activeSites.head?).getD 0

/-- The m-th mirror region of a site belongs to the m-th site whose buddy it is (R503). -/
def mirrored (w : Wafer) (b : Nat) : List Nat := w.activeSites.filter (fun s => w.buddy s == b && s != b)

/-- The site that runs a combine node of logical site m: m, or its buddy at the fencing (R151). -/
def combineSite (w : Wafer) (m : Nat) : Nat := Tab.look (fun k => k) w.col.moved m

end Wafer

/-- Levels of the gathering tree over n slots: ⌈log2 n⌉ (R149). -/
def treeLevels (n : Nat) : Nat := if n ≤ 1 then 0 else Nat.log2 (n - 1) + 1

/-- The slots whose operands node (m, k) combines: left slot m, right slot m + 2^k if it exists (R149). -/
def nodeRight (n m k : Nat) : Option Nat := if m + 2 ^ k < n then some (m + 2 ^ k) else none

end Sys2Proof.Machine
end

