-- ==== Sys2Proof/Machine/Ribbon.lean ====
section
/-! DEFINITION. The ribbon ports (spec file 03): frames and responses, register values, the lease, collisions, and the
two windows up to the access itself (R95–R128). -/

namespace Sys2Proof.Machine

/-- Bits [lo, lo + n) of a 32-bit register, set to x. -/
def put32 (v : BitVec 32) (lo n x : Nat) : BitVec 32 :=
  BitVec.ofNat 32 (putF (v.zeroExtend 64) lo n x).toNat

def get32 (v : BitVec 32) (lo n : Nat) : Nat := getF (v.zeroExtend 64) lo n

def otherPort : RibPort → RibPort
  | .a => .b
  | .b => .a

/-! Response codes of Table RIB-3; OK is 0. -/
def rNotHolder : Nat := 1
def rCollided : Nat := 2
def rCrcErr : Nat := 3
def rBadOpcode : Nat := 4
def rBadAddr : Nat := 5
def rRoWrite : Nat := 6
def rPending : Nat := 7
def rWinFault : Nat := 8
def rUnavailable : Nat := 9
def rBusy : Nat := 10
def rInvalid : Nat := 11

/-- Reserved addresses of Table RIB-6. -/
def ribReserved (a : Nat) : Bool :=
  a == 0x0F || (0x1D ≤ a && a ≤ 0x1F) || a == 0x27 || a == 0x2F || (0x37 ≤ a && a ≤ 0x3F) || (0x44 ≤ a && a ≤ 0x47) ||
  (0x4D ≤ a && a ≤ 0x4F) || (0x58 ≤ a && a ≤ 0x5F) || (0x71 ≤ a && a ≤ 0x73) || 0x78 ≤ a

/-- Registers without a field that a write changes or that acts (Tables RIB-7 to RIB-13). -/
def ribReadOnly (a : Nat) : Bool :=
  a ≤ 6 || a == 9 || a == 0x0C || a == 0x0E || (0x10 ≤ a && a ≤ 0x1C) || a == 0x26 || a == 0x2E || a == 0x35 || a == 0x36 ||
  a == 0x56 || a == 0x57 || (0x60 ≤ a && a ≤ 0x6F && a % 2 == 1) || a == 0x76

/-- Registers that exist once per port (R107). -/
def ribBanked (a : Nat) : Bool :=
  a == 4 || a == 0x0A || (0x0C ≤ a && a ≤ 0x0E) || (0x60 ≤ a && a ≤ 0x70) || (0x74 ≤ a && a ≤ 0x77)

/-- Writes that the lease governs (R112, R120). -/
def ribLeased (a : Nat) : Bool :=
  (0x30 ≤ a && a ≤ 0x5F) || (0x60 ≤ a && a ≤ 0x6E && a % 2 == 0) || a == 0x23 || a == 0x2B

namespace Wafer

/-- The lease ends (R118, R119). -/
def endLease (w : Wafer) : Wafer := { w with rib := { w.rib with holder := none, key := 0 } }

/-- At the start of a slot, 2 s after the last ACQUIRE or RENEW, the lease expires (R119). -/
def expireLease (w : Wafer) : Wafer :=
  if w.rib.holder.isSome && decide (w.rib.expiry ≤ w.now) then w.endLease.leaseEvent 1 else w

/-- The 2 s expiry starts again (R118). -/
def renewLease (w : Wafer) : Wafer := { w with rib := { w.rib with expiry := w.now + 200000000 } }

/-- A write of RIB_LEASE judged by itself (R118): the response code and the state. -/
def leaseWrite (w : Wafer) (p : RibPort) (op : Nat) (key : BitVec 16) : Nat × Wafer :=
  if op = 0 then (0, w)
  else if op = 1 && w.rib.holder = none then
    (0, ({ w with rib := { w.rib with holder := some p, key := key } }.renewLease).leaseEvent 0)
  else if w.rib.holder = some p && w.rib.key = key then
    if op = 3 then (0, w.endLease.leaseEvent 2) else (0, w.renewLease)
  else (rNotHolder, w)

/-- A collision record (R122); VALID becoming set raises COLLIDE on both ports. -/
def recordCollision (w : Wafer) (a : Nat) : Wafer :=
  let v := w.rib32 0x0B
  let w := w.setRib32 0x0B (BitVec.ofNat 32 (1 + a * 2 + 0x300 + satInc 8 (get32 v 16 8) * 2 ^ 16))
  if v.getLsbD 0 then w else w.alert 3

/-- Count an event of RIB_PORT_ERR on a port: field at `lo`; CRC_ERRS and ABORTS raise PORT_ERR (Table RIB-11). -/
def portErr (w : Wafer) (p : RibPort) (lo : Nat) : Wafer :=
  let k := ribKey p 0x0D
  let w := w.setRib32 k (put32 (w.rib32 k) lo 8 (satInc 8 (get32 (w.rib32 k) lo 8)))
  if lo = 16 then w else w.alertOn p 13

/-! ### Windows (R123–R127) -/

def win (w : Wafer) (n : Nat) : Win := if n = 0 then w.rib.win0 else w.rib.win1

def setWin (w : Wafer) (n : Nat) (x : Win) : Wafer :=
  { w with rib := if n = 0 then { w.rib with win0 := x } else { w.rib with win1 := x } }

/-- The address of a register of window n. -/
def winAddr (n r : Nat) : Nat := 0x20 + 8 * n + r

def winPending (w : Wafer) (n : Nat) : Bool := (w.win n).acc.isSome

/-- Set a bit of RIB_WINn_STAT; FAULT, TIMEOUT or DENIED becoming set raises WINDOW. -/
def winFlag (w : Wafer) (n bit : Nat) : Wafer :=
  let v := w.rib32 (winAddr n 5)
  let w := w.setRib32 (winAddr n 5) (v ||| BitVec.ofNat 32 (2 ^ bit))
  if v.getLsbD bit then w else w.alert 8

/-- Start an access at the committed address (R124). -/
def winStart (w : Wafer) (n : Nat) (data : Option Word) : Wafer :=
  w.setWin n { w.win n with acc := some { addr := (w.win n).cur, data := data, since := w.now } }

/-- Advance the address by 8 within bits [47:0] (R126); the address registers show it. -/
def winAdvance (w : Wafer) (n : Nat) : Wafer :=
  let a := (w.win n).cur
  let a' := putF a 0 48 (getF a 0 48 + 8)
  let w := w.setWin n { w.win n with cur := a' }
  (w.setRib32 (winAddr n 0) (BitVec.ofNat 32 (getF a' 0 32))).setRib32 (winAddr n 1) (BitVec.ofNat 32 (getF a' 32 32))

def winAutoInc (w : Wafer) (n : Nat) : Bool := (w.rib32 (winAddr n 4)).getLsbD 0
def winPrefetch (w : Wafer) (n : Nat) : Bool := (w.rib32 (winAddr n 4)).getLsbD 1

/-- A write of ADDR_HI commits the address; PREFETCH starts a read (Table RIB-13, R127). -/
def winCommit (w : Wafer) (n : Nat) (hi : BitVec 32) : Nat × Wafer :=
  if w.winPending n then (rPending, w)
  else
    let w := w.setRib32 (winAddr n 1) hi
    let w := w.setWin n { w.win n with cur := hi ++ (w.rib32 (winAddr n 0)), faulted := false }
    (0, if w.winPrefetch n then w.winStart n none else w)

/-- A write of DATA_HI issues a 64-bit write, and the address advances under AUTO_INC (R125). -/
def winIssue (w : Wafer) (n : Nat) (hi : BitVec 32) : Nat × Wafer :=
  if w.winPending n then (rPending, w)
  else
    let v : Word := hi ++ BitVec.ofNat 32 (getF (w.win n).buf 0 32)
    let w := (w.setWin n { w.win n with buf := v }).winStart n (some v)
    (0, if w.winAutoInc n then w.winAdvance n else w)

/-- A write of RIB_WINn_CTRL (R124, R127). An ABORT leaves the write it abandons to land or not, as `lands` says; the
access itself is in Control. -/
def winControl (w : Wafer) (n : Nat) (v : BitVec 32) : Nat × Wafer :=
  if v.getLsbD 2 && w.winPending n && !v.getLsbD 3 then (rPending, w)
  else
    let w := w.setRib32 (winAddr n 4) (v &&& 3)
    let w := if v.getLsbD 3 then w.setWin n { w.win n with acc := none } else w
    (0, if v.getLsbD 2 then w.winStart n none else w)

/-- A read of DATA_LO or DATA_HI: code, value, and what the read of DATA_HI starts (R124, R125, R127). -/
def winRead (w : Wafer) (n : Nat) (hi : Bool) : Nat × BitVec 32 × Wafer :=
  if w.winPending n then (rPending, BitVec.ofNat 32 (getF (w.win n).buf (if hi then 32 else 0) 32), w)
  else if (w.win n).faulted then (rWinFault, 0xFFFFFFFF, w)
  else
    let v := BitVec.ofNat 32 (getF (w.win n).buf (if hi then 32 else 0) 32)
    if hi && w.winAutoInc n then
      let w := w.winAdvance n
      (0, v, if w.winPrefetch n then w.winStart n none else w)
    else (0, v, w)

/-! ### Wafer status (R111) -/

/-- Sites collated and not fenced, edge dies not fenced. -/
def sitesActive (w : Wafer) : Nat := ((List.range 144).filter (fun n => (w.dieInfo n).state == 1)).length
def edgesActive (w : Wafer) : Nat := ((List.range 16).filter (fun e => (w.dieInfo (144 + e)).state == 1)).length
/-- Fenced or unreachable dies (DEDUCED, log entry 25). -/
def sitesFenced (w : Wafer) : Nat := ((List.range 144).filter (fun n => 2 ≤ (w.dieInfo n).state)).length
def edgesFenced (w : Wafer) : Nat := ((List.range 16).filter (fun e => 2 ≤ (w.dieInfo (144 + e)).state)).length

/-- The state of a port's link as the report codes it (R162): 0 unconnected, 1 in service, 2 retired, 3 out of service
because a die at either end is fenced or unreachable. -/
def linkState (w : Wafer) (node dir : Nat) : Nat :=
  match neighbour node dir with
  | none => 0
  | some m =>
    if 2 ≤ (w.dieInfo node).state || 2 ≤ (w.dieInfo m).state then 3
    else
      let l := linkName node dir
      let st := (Tab.look (fun _ => Port.init) w.link.port (l.1 * 4 + l.2)).state
      if st = 2 then 2 else 1

/-- Retired die-edge links that do not join a fenced die. -/
def linksRetired (w : Wafer) : Nat := (allLinks.filter (fun l => w.linkState l.1 l.2 == 2)).length

/-- Spine links at HALF or RETIRED (R204). -/
def spineDegraded (w : Wafer) : Nat :=
  ((List.range 32).filter (fun l => let x := w.get (spineBlk l) F.LNK_SP_STAT.STATE; x == 2 || x == 3)).length

/-- Wafer address of the collation report (R161, R162); none before step 7 of Table COL-2. -/
def reportAddr (w : Wafer) : Word :=
  if w.col.tCollated = 0 then 0
  else BitVec.ofNat 64 (w.col.wafer * 2 ^ 56 + (0x80 + (if w.col.root8 then 8 else 0)) * 2 ^ 48 + 0x00F000080000)

/-- The largest of a list. -/
def maxOf (l : List Nat) : Nat := l.foldl max 0

/-- RIB_THERMAL: hottest base, compute and edge die and HBM stack in °C (R111). The spec gives no command that samples
an edge die: EDGE_MAX is a free value. -/
def thermalWord (w : Wafer) : BitVec 32 :=
  let b := maxOf (w.activeSites.map (fun s => w.get (lveBlk s) F.LVE_SITE_STAT.BASE_MAX))
  let c := maxOf (w.activeSites.map (fun s => w.get (lveBlk s) F.LVE_SITE_STAT.COMPUTE_MAX))
  let h := maxOf ((List.range 16).map (fun e => w.get (hbmBlk e) F.PRT_HBM_STAT.TEMP))
  BitVec.ofNat 32 (b + c * 2 ^ 8 + getF (Config.freeOf 3 (BitVec.ofNat 64 w.now) 0) 0 8 * 2 ^ 16 + h * 2 ^ 24)

/-- The counters with an enabled event, lowest first (RIB_ALERT_FOLCNT). -/
def folAlert (w : Wafer) : BitVec 32 :=
  match (List.range 256).find? (fun c => w.reg (cntBlk c + 0x48) &&& w.reg (cntBlk c + 0x50) &&& 0x7F != 0) with
  | some c => BitVec.ofNat 32 (c + 256)
  | none => 0

/-- The four LO/HI pairs of the wafer status group (R111). -/
def pairWord (w : Wafer) (i : Nat) : Word :=
  match i with
  | 0 => BitVec.ofNat 64 w.now
  | 1 => w.live
  | 2 => w.reportAddr
  | _ => Config.logAddress

/-- RIB_MBX_FLAGS of a port, from the channels of its edge die (R115, Table QUE-14). -/
def mbxFlags (w : Wafer) (p : RibPort) : BitVec 32 :=
  let e := match p with | .a => 0 | .b => 8
  let bits (f : Nat → Bool) : Nat := ((List.range 8).map (fun k => if f k then 2 ^ k else 0)).foldl (· + ·) 0
  BitVec.ofNat 32 (bits (fun k => w.get (dirBlk e k false) F.QUE_MBX_STAT.STATE == 1) +
    2 ^ 8 * bits (fun k => w.get (dirBlk e k true) F.QUE_MBX_STAT.STATE == 1) +
    2 ^ 24 * bits (fun k => w.flag (dirBlk e k false) F.QUE_MBX_STAT.WITHDRAWN))

end Wafer

namespace State

/-- The port's requests reach the map (R104, R105, R139, R140). -/
def portServed (s : State) (p : RibPort) : Bool :=
  s.waf.col.served && !(s.waf.col.crossDown && (decide (p = .b) != s.waf.col.root8))

/-- An entry of the fence list as RIB_FENCE_ENTRY shows it (Table RIB-9). -/
def fenceWord (f : Fence) : Nat :=
  f.kind + f.rowEdge * 4 + f.col * 2 ^ 6 + f.dir * 2 ^ 10 + (if f.byRibbon then 2 ^ 12 else 0) + f.reason * 2 ^ 16

/-- Module input power in 10 W: the four entries' V × I, in 10 mV and 10 mA (MOD_PWR_VIN, MOD_PWR_IIN, R68). -/
def inputPower (s : State) : Nat :=
  ((List.range 4).map (fun i =>
    getF (s.sup.reg 0x08) (16 * i) 16 * getF s.sup.iin (16 * i) 16)).foldl (· + ·) 0 / 100000

/-- The value of register `a` as port `p` reads it, without side effects (R106, R110–R116, R123). -/
def ribValue (s : State) (p : RibPort) (a : Nat) : BitVec 32 :=
  let w := s.waf
  let own := w.rib32 (Wafer.ribKey p a)
  let pairHi (i : Nat) : BitVec 32 := Tab.look (fun _ => 0) w.rib.hi i
  match a with
  | 0x01 => (0x01 : BitVec 8) ++ Config.stepping 2 ++ Config.stepping 1 ++ Config.stepping 0
  | 0x02 => BitVec.ofNat 32 (getF Config.serial 0 32)
  | 0x03 => BitVec.ofNat 32 (getF Config.serial 32 32)
  | 0x04 => match p with | .a => 0 | .b => 1
  | 0x08 =>
    match w.rib.holder with
    | none => 0
    | some h => BitVec.ofNat 32 ((if h = .a then 4 else 8) + (if h = p then w.rib.key.toNat * 2 ^ 16 else 0))
  | 0x09 => if w.rib.holder.isSome then BitVec.ofNat 32 (since w.now w.rib.expiry / 100000) else 0
  | 0x0A | 0x0C | 0x0D | 0x74 | 0x75 | 0x77 => own
  | 0x0E => (own &&& 1) ||| (if w.rib.holder = some (otherPort p) then 2 else 0)
  | 0x10 =>
    BitVec.ofNat 32 (w.col.phase + (if w.col.root8 then 16 else 0) + s.sup.get F.MOD_PWR_STAT.PGOOD * 32 +
      (if s.sup.power = .tripped then 64 else 0) + s.sup.get F.MOD_PWR_STAT.CAP_KW * 2 ^ 8 + w.sitesActive * 2 ^ 16 +
      w.edgesActive * 2 ^ 24)
  | 0x11 =>
    BitVec.ofNat 32 (w.sitesFenced + min 255 w.linksRetired * 2 ^ 8 + w.edgesFenced * 2 ^ 16 + w.spineDegraded * 2 ^ 21)
  | 0x12 => BitVec.ofNat 32 (s.inputPower % 2 ^ 16 + w.granted / 40 * 2 ^ 16)
  | 0x13 => w.thermalWord
  | 0x14 => BitVec.ofNat 32 (getF (w.pairWord 0) 0 32)
  | 0x15 => pairHi 0
  | 0x16 => BitVec.ofNat 32 (getF (w.pairWord 1) 0 32)
  | 0x17 => pairHi 1
  | 0x18 => BitVec.ofNat 32 (getF (w.pairWord 2) 0 32)
  | 0x19 => pairHi 2
  | 0x1A => BitVec.ofNat 32 (getF (w.pairWord 3) 0 32)
  | 0x1B => pairHi 3
  | 0x1C => BitVec.ofNat 32 (getF (s.sup.reg 0x20) 0 13)
  | 0x22 => BitVec.ofNat 32 (getF w.rib.win0.buf 0 32)
  | 0x23 => BitVec.ofNat 32 (getF w.rib.win0.buf 32 32)
  | 0x2A => BitVec.ofNat 32 (getF w.rib.win1.buf 0 32)
  | 0x2B => BitVec.ofNat 32 (getF w.rib.win1.buf 32 32)
  | 0x25 => (w.rib32 0x25) ||| (if w.winPending 0 then 1 else 0)
  | 0x2D => (w.rib32 0x2D) ||| (if w.winPending 1 then 1 else 0)
  | 0x30 | 0x33 | 0x40 | 0x55 => 0
  | 0x32 => if s.sup.nextSlot then 1 else 0
  | 0x35 =>
    match s.sup.fences[(w.rib32 0x34).toNat]? with
    | some f => BitVec.ofNat 32 (fenceWord f)
    | none => 0
  | 0x36 => BitVec.ofNat 32 s.sup.fences.length
  | 0x42 => w.rib32 0x42 ||| 1
  | 0x56 => BitVec.ofNat 32 (getF (w.reg (cntBlk (w.rib32 0x50).toNat + 8)) 0 32)
  | 0x57 => BitVec.ofNat 32 (getF (w.reg (cntBlk (w.rib32 0x50).toNat + 8)) 32 32)
  | 0x70 => w.mbxFlags p
  | 0x76 => w.folAlert
  | _ =>
    if 0x60 ≤ a && a ≤ 0x6F then
      let e := match p with | .a => 0 | .b => 8
      BitVec.ofNat 32 (getF (w.reg (dirBlk e ((a - 0x60) / 2) (a % 2 == 1) + 0x18)) 0 32)
    else if ribBanked a then own else w.rib32 a

/-- Send a response frame (R95, R96) without touching the map. -/
def respond (s : State) (p : RibPort) (tag : BitVec 4) (code : Nat) (data : BitVec 32) : State :=
  s.onWafer fun w =>
    let body := tag.toNat * 2 ^ 44 + code * 2 ^ 40 + data.toNat * 2 ^ 8
    let r : BitVec 48 := BitVec.ofNat 48 (body + ribbonCrc body 47)
    { w with rib := match p with | .a => { w.rib with rspA := some r } | .b => { w.rib with rspB := some r } }

/-- End a transaction that reached the map: response, RIB_LASTRSP but for a read of itself, time of the frame. -/
def complete (s : State) (p : RibPort) (op a : Nat) (tag : BitVec 4) (code : Nat) (data : BitVec 32) : State :=
  (s.respond p tag code data).onWafer fun w =>
    let w := { w with rib := match p with
      | .a => { w.rib with frameA := some w.now }
      | .b => { w.rib with frameB := some w.now } }
    if op = 1 && a = 0x0C && code = 0 then w
    else w.setRib32 (Wafer.ribKey p 0x0C) (BitVec.ofNat 32 (tag.toNat * 16 + code + a % 128 * 2 ^ 8 + op * 2 ^ 16))

/-- A request enters its slot (R104, R105, R119): nothing in internal reset; UNAVAILABLE with DATA 0 where the map is out
of reach (Table COL-2, R139, R140); else an expired lease ends first and `f` runs. -/
def request (s : State) (p : RibPort) (tag : BitVec 4) (f : State → State) : State :=
  if s.sup.inReset then s
  else if s.portServed p then f (s.onWafer Wafer.expireLease)
  else s.respond p tag rUnavailable 0

/-- The checks a write passes before its own (R97, R108, R112, R120): the code that stops it, if any. -/
def writeStop (s : State) (p : RibPort) (a : Nat) : Option Nat :=
  if ribReserved a then some rBadAddr
  else if !s.waf.col.reached && ((0x40 ≤ a && a ≤ 0x5F) || (0x60 ≤ a && a ≤ 0x70)) then some rUnavailable
  else if ribLeased a && s.waf.rib.holder ≠ some p then some rNotHolder
  else if ribReadOnly a then some rRoWrite
  else none

/-- A refused write: BAD_FRAMES counts a BAD_ADDR; a window write for want of the lease sets DENIED (R110, R120). The
DATA of a BAD_ADDR response is a free value. -/
def stopWrite (s : State) (p : RibPort) (a : Nat) (tag : BitVec 4) (code : Nat) : State :=
  let s := if code = rBadAddr then s.onWafer (fun w => w.portErr p 16) else s
  let s := if code = rNotHolder && (a = 0x23 || a = 0x2B) then
    s.onWafer (fun w => w.winFlag ((a - 0x20) / 8) 3) else s
  if code = rBadAddr then
    let x := s.waf.fresh
    ({ s with waf := x.2 }).complete p 2 a tag code (BitVec.ofNat 32 x.1.toNat)
  else s.complete p 2 a tag code (s.ribValue p a)

/-- A write with effect `f` (its code and the state after it), behind the checks; the response shows the register after
the slot (R97). -/
def writeReg (s : State) (p : RibPort) (a : Nat) (tag : BitVec 4) (f : State → Nat × State) : State :=
  s.request p tag fun s =>
    match s.writeStop p a with
    | some c => s.stopWrite p a tag c
    | none => let r := f s; r.2.complete p 2 a tag r.1 (r.2.ribValue p a)

/-- A write whose effect is on the wafer alone. -/
def writeWaf (s : State) (p : RibPort) (a : Nat) (tag : BitVec 4) (f : Wafer → Nat × Wafer) : State :=
  s.writeReg p a tag fun s => let r := f s.waf; (r.1, { s with waf := r.2 })

/-- Two RIB_LEASE writes in one slot (R121, Table RIB-12): with no lease held, two ACQUIREs and two different words
collide; otherwise each is judged against the lease at the start of the slot. -/
def leasePair (s : State) (p : RibPort) (tag : BitVec 4) (op : Nat) (key : BitVec 16) (peer : PeerWrite) : State :=
  let q := otherPort p
  let op' := get32 peer.data 0 2
  let key' := BitVec.ofNat 16 (get32 peer.data 16 16)
  let data : BitVec 32 := BitVec.ofNat 32 (op + key.toNat * 2 ^ 16)
  s.request p tag fun s =>
    if s.waf.rib.holder = none && ((op = 1 && op' = 1) || data ≠ peer.data) then
      let s := s.onWafer (fun w => w.recordCollision 0x08)
      let s := s.complete p 2 0x08 tag rCollided (s.ribValue p 0x08)
      s.complete q 2 0x08 peer.tag rCollided (s.ribValue q 0x08)
    else
      let act (who : RibPort) (o : Nat) (k : BitVec 16) (w : Wafer) : Nat × Wafer :=
        if s.waf.rib.holder = none || s.waf.rib.holder = some who || o = 0 then w.leaseWrite who o k
        else (rNotHolder, w)
      let r := if p = .a then act p op key s.waf else act q op' key' s.waf
      let t := if p = .a then act q op' key' r.2 else act p op key r.2
      let s := { s with waf := t.2 }
      let s := s.complete p 2 0x08 tag (if p = .a then r.1 else t.1) (s.ribValue p 0x08)
      s.complete q 2 0x08 peer.tag (if p = .a then t.1 else r.1) (s.ribValue q 0x08)

/-- A READ of register `a` (R97, R106, R111, R125): LO halves latch their HI half, window data reads follow R124–R127. -/
def readReg (s : State) (p : RibPort) (a : Nat) (tag : BitVec 4) (badBit : Bool) : State :=
  s.request p tag fun s =>
    if badBit || ribReserved a then
      let x := (s.waf.portErr p 16).fresh
      ({ s with waf := x.2 }).complete p 1 a tag rBadAddr (BitVec.ofNat 32 x.1.toNat)
    else if a = 0x14 || a = 0x16 || a = 0x18 || a = 0x1A then
      let i := (a - 0x14) / 2
      let v := s.waf.pairWord i
      let s := s.onWafer fun w =>
        { w with rib := { w.rib with hi := Tab.put (fun _ => 0) w.rib.hi i (BitVec.ofNat 32 (getF v 32 32)) } }
      s.complete p 1 a tag 0 (BitVec.ofNat 32 (getF v 0 32))
    else if a = 0x22 || a = 0x23 || a = 0x2A || a = 0x2B then
      let r := s.waf.winRead ((a - 0x20) / 8) (a % 2 == 1)
      ({ s with waf := r.2.2 }).complete p 1 a tag r.1 r.2.1
    else s.complete p 1 a tag 0 (s.ribValue p a)

end State

/-! ### Meanings -/

/-- RIB_NOP (R97). -/
def execRibNop (port : RibPort) (tag : BitVec 4) (s : State) : Host.Outcome State Fault Refusal :=
  .next (s.request port tag fun s => s.complete port 0 0 tag 0 (s.ribValue port 0x10))

/-- RIB_READ (R97, R106, R108): bit 7 of ADDR is reserved. -/
def execRibRead (port : RibPort) (tag : BitVec 4) (addr : BitVec 8) (s : State) : Host.Outcome State Fault Refusal :=
  .next (s.readReg port (addr.toNat % 128) tag (addr.getLsbD 7))

/-- RIB_ECHO (R97). -/
def execRibEcho (port : RibPort) (tag : BitVec 4) (addr : BitVec 8) (data : BitVec 32) (s : State) :
    Host.Outcome State Fault Refusal :=
  .next (s.request port tag fun s => s.complete port 3 addr.toNat tag 0 data)

/-- RIB_BAD_FRAME (R97, R99): a frame that fails its CRC or carries a reserved opcode; a sound frame is none of this
row. -/
def execRibBadFrame (port : RibPort) (frame : BitVec 56) (s : State) : Host.Outcome State Fault Refusal :=
  let x := frame.toNat
  let tag : BitVec 4 := BitVec.ofNat 4 (x / 2 ^ 48)
  let op := x / 2 ^ 52
  let a := x / 2 ^ 40 % 128
  .next (
    if ribbonCrc x 55 ≠ x % 256 then
      s.request port tag fun s => (s.onWafer (fun w => w.portErr port 0)).complete port op a tag rCrcErr 0
    else if 4 ≤ op then
      s.request port tag fun s =>
        let y := (s.waf.portErr port 16).fresh
        ({ s with waf := y.2 }).complete port op a tag rBadOpcode (BitVec.ofNat 32 y.1.toNat)
    else s)

/-- RIB_FRAME_ABORT (R102): RIB_SEL_N rises before rising edge 56. -/
def execRibFrameAbort (port : RibPort) (edges : Nat) (s : State) : Host.Outcome State Fault Refusal :=
  .next (if edges < 56 && !s.sup.inReset && s.portServed port then s.onWafer (fun w => w.portErr port 8) else s)

/-- RIB_SEL_TIMEOUT (R102): RIB_SEL_N low for longer than 10 ms. -/
def execRibSelTimeout (port : RibPort) (lowUs : Nat) (s : State) : Host.Outcome State Fault Refusal :=
  .next (if 10000 < lowUs && !s.sup.inReset && s.portServed port then s.onWafer (fun w => w.portErr port 8) else s)

/-- LO_READ_LATCH (R111): a READ of RIB_REFCOUNT_LO, RIB_VOL_LIVE_LO, RIB_REPORT_LO or RIB_LOG_LO. -/
def execLoReadLatch (port : RibPort) (tag : BitVec 4) (pair : Fin 4) (s : State) : Host.Outcome State Fault Refusal :=
  .next (s.readReg port (0x14 + 2 * pair) tag false)

/-- PEER_ALIVE (R116, Table RIB-7): the bit of `port` follows the other port's frames of the last 1 s. -/
def execPeerAlive (port : RibPort) (s : State) : Host.Outcome State Fault Refusal :=
  .next (if s.sup.inReset then s else s.onWafer fun w =>
    let f := match port with | .a => w.rib.frameB | .b => w.rib.frameA
    let alive := match f with | some t => decide (since t w.now ≤ ms 1000) | none => false
    let k := Wafer.ribKey port 0x0E
    if (w.rib32 k).getLsbD 0 = alive then w
    else (w.setRib32 k (if alive then 1 else 0)).alertOn port 14)

/-- ACQUIRE (R118, R121). -/
def execAcquire (port : RibPort) (tag : BitVec 4) (key : BitVec 16) (peer : Option PeerWrite) (s : State) :
    Host.Outcome State Fault Refusal :=
  .next (match peer with
    | some q => s.leasePair port tag 1 key q
    | none => s.writeWaf port 0x08 tag (fun w => w.leaseWrite port 1 key))

/-- RENEW (R118). -/
def execRenew (port : RibPort) (tag : BitVec 4) (key : BitVec 16) (s : State) : Host.Outcome State Fault Refusal :=
  .next (s.writeWaf port 0x08 tag (fun w => w.leaseWrite port 2 key))

/-- RELEASE (R118). -/
def execRelease (port : RibPort) (tag : BitVec 4) (key : BitVec 16) (s : State) : Host.Outcome State Fault Refusal :=
  .next (s.writeWaf port 0x08 tag (fun w => w.leaseWrite port 3 key))

/-- EXPIRED (R119). -/
def execExpired (s : State) : Host.Outcome State Fault Refusal :=
  .next (if s.sup.inReset then s else s.onWafer Wafer.expireLease)

/-- RIB_PORT_ERR_CLEAR (Table RIB-7). -/
def execRibPortErrClear (port : RibPort) (tag : BitVec 4) (s : State) : Host.Outcome State Fault Refusal :=
  .next (s.writeWaf port 0x0D tag (fun w => (0, w.setRib32 (Wafer.ribKey port 0x0D) 0)))

/-- WIN_ADDR_COMMIT (Table RIB-13). -/
def execWinAddrCommit (port : RibPort) (tag : BitVec 4) (win : Fin 2) (hi : BitVec 32) (s : State) :
    Host.Outcome State Fault Refusal :=
  .next (s.writeWaf port (Wafer.winAddr win 1) tag (fun w => w.winCommit win hi))

/-- WIN_WRITE (R120, R125). -/
def execWinWrite (port : RibPort) (tag : BitVec 4) (win : Fin 2) (hi : BitVec 32) (s : State) :
    Host.Outcome State Fault Refusal :=
  .next (s.writeWaf port (Wafer.winAddr win 3) tag (fun w => w.winIssue win hi))

/-- WIN_DATA_HI_READ (R125). -/
def execWinDataHiRead (port : RibPort) (tag : BitVec 4) (win : Fin 2) (s : State) : Host.Outcome State Fault Refusal :=
  .next (s.readReg port (Wafer.winAddr win 3) tag false)

/-- WIN_READ (Table RIB-13): CTRL written with READ set. -/
def execWinRead (port : RibPort) (tag : BitVec 4) (win : Fin 2) (autoInc prefetch : Bool) (s : State) :
    Host.Outcome State Fault Refusal :=
  .next (s.writeWaf port (Wafer.winAddr win 4) tag (fun w =>
    w.winControl win (BitVec.ofNat 32 (4 + (if autoInc then 1 else 0) + (if prefetch then 2 else 0)))))

end Sys2Proof.Machine
end

