-- ==== Sys2Proof/Machine/Links.lean ====
section
/-! DEFINITION. Die-edge and spine links (spec file 05): flits, credits, routing, sequence numbers and replay, timers,
retrains, fray counting, spine packets and training (R166–R206). Each link is modelled on its own ports: a flit or packet
that arrives is the command's operand, one sent is appended to the port's `wire`. -/

namespace Sys2Proof.Machine

/-! ### Flits (R169–R172) -/

/-- Bits [lo, lo + n) of a flit. -/
def flitF (f : BitVec 544) (lo n : Nat) : Nat := f.toNat / 2 ^ lo % 2 ^ n

/-- A flit from its fields, with its CRC. -/
def mkFlit (kind : Nat) (esc : Bool) (seq payload : Nat) : BitVec 544 :=
  let x := kind * 2 ^ 541 + (if esc then 2 ^ 540 else 0) + seq % 4096 * 2 ^ 528 + payload % 2 ^ 512 * 2 ^ 16
  BitVec.ofNat 544 (x + flitCrc x)

def flitGood (f : BitVec 544) : Bool :=
  flitCrc f.toNat == flitF f 0 16 && flitF f 541 3 != 2 && flitF f 541 3 != 3

def flitKind (f : BitVec 544) : Nat := flitF f 541 3
def flitEsc (f : BitVec 544) : Bool := flitF f 540 1 == 1
/-- Index of a sequenced flit's class and channel among the eight (Table LNK-4). -/
def flitChan (f : BitVec 544) : Nat := flitKind f - 4 + (if flitEsc f then 4 else 0)

def classIdx : TClass → Nat
  | .mem => 0
  | .coh => 1
  | .irq => 2
  | .dbg => 3

/-- Add x to element i of a list, modulo m. -/
def addAt (l : List Nat) (i x m : Nat) : List Nat :=
  (List.range l.length).map (fun j => if j = i then (l.getD j 0 + x) % m else l.getD j 0)

namespace Wafer

/-! ### Ports -/

def portKey (node dir : Nat) : Nat := node * 4 + dir

def port (w : Wafer) (k : Nat) : Port := Tab.look (fun _ => Port.init) w.link.port k

def setPort (w : Wafer) (k : Nat) (p : Port) : Wafer :=
  { w with link := { w.link with port := Tab.put (fun _ => Port.init) w.link.port k p } }

/-- The key of the far end's port of a link. -/
def farKey (k : Nat) : Nat :=
  match neighbour (k / 4) (k % 4) with
  | some m => portKey m (backDir (k / 4) (k % 4))
  | none => k

/-- Port and register block of a link end, if it names a port. -/
def endKey (w : Wafer) (e : LinkEnd) : Option Nat :=
  match w.nodeOf e.die with
  | some n => if (neighbour n e.dir).isSome then some (portKey n e.dir) else none
  | none => none

/-- Die value of a node: its logical number, or the edge die (R5). -/
def dieOf (w : Wafer) (node : Nat) : Option Nat := if node < 144 then w.logicalOf node else some (node - 16)

/-- The register block of a port by its key; a port of a die without a number keeps none. -/
def portRegs (w : Wafer) (k : Nat) : Option Nat := (w.dieOf (k / 4)).map (fun d => portBlk d (k % 4))

/-- Act on the register block of a port. -/
def onPortRegs (w : Wafer) (k : Nat) (f : Wafer → Nat → Wafer) : Wafer :=
  match w.portRegs k with
  | some b => f w b
  | none => w

/-- A field of a port's registers; its reset value where the die has no number. -/
def portCfg (w : Wafer) (k : Nat) (f : Fld) : Nat := w.get ((w.portRegs k).getD (portBlk 127 (k % 4))) f

/-- The link carries traffic: IN_SERVICE, or DRAINING while it finishes its queue (R190). -/
def carries (p : Port) : Bool := p.state == 1 || p.state == 5

/-- Both ends of a link take a state. -/
def setLinkState (w : Wafer) (k x : Nat) : Wafer :=
  let w := w.setPort k { w.port k with state := x }
  w.setPort (farKey k) { w.port (farKey k) with state := x }

/-- Both ends of a link latch an event. -/
def linkEvent (w : Wafer) (k : Nat) (f : Fld) : Wafer :=
  (w.onPortRegs k (fun w b => w.latch b f)).onPortRegs (farKey k) (fun w b => w.latch b f)

/-! ### Retrains and replays (R184–R187) -/

/-- A LINK flit of port p (Table LNK-4); `rr` is RETRAIN_REQ. -/
def linkFlit (p : Port) (rr : Bool) : BitVec 544 :=
  let cr := (List.range 8).foldl (fun a i => a * 4096 + p.freed.getD i 0) 0
  mkFlit 1 false p.seq ((p.expect + 4095) % 4096 * 2 ^ 500 + (if p.nak then 2 ^ 499 else 0) + (if rr then 2 ^ 498 else 0) +
    cr * 2 ^ 400)

/-- A retrain starts (Table LNK-7, step 1): both ends are RETRAINING from here on. -/
def startRetrain (w : Wafer) (k : Nat) : Wafer :=
  let p := w.port k
  if !carries p then w
  else
    let w := w.setPort k { p with state := 4, since := w.now, wire := p.wire ++ [linkFlit p true] }
    let q := w.port (farKey k)
    (w.setPort (farKey k) { q with state := 4, since := w.now }).linkEvent k F.LNK_EVT.RETRAIN

/-- Replay every held flit (R185), or retrain where one flit would be replayed more than MAX_RETRY times (R186). -/
def replayHeld (w : Wafer) (k : Nat) : Wafer :=
  let p := w.port k
  match p.held with
  | [] => w
  | (c, _) :: _ =>
    if w.portCfg k F.LNK_CFG.MAX_RETRY ≤ p.tries then
      (w.onPortRegs k (fun w b => w.latch b F.LNK_EVT.RETRY_LIMIT)).startRetrain k
    else
      (w.setPort k { p with tries := p.tries + 1, replay := some (c, w.now), sentAt := w.now,
                            winReplays := p.winReplays + 1, wire := p.wire ++ p.held.map (·.2) }).onPortRegs k
        (fun w b => w.bump b F.LNK_TX.REPLAYS)

/-- An ACK value frees the held flits up to the one it names (R184). -/
def ackHeld (p : Port) (a now : Nat) : Port :=
  match p.held with
  | [] => p
  | (o, _) :: _ =>
    let c := o + (a + 4096 - o % 4096) % 4096
    if c < o + 2048 && p.held.any (fun h => h.1 == c) then
      { p with held := p.held.filter (fun h => c < h.1), tries := 0, ackAt := now, sentAt := now }
    else p

/-- First transmission of flits of one message on a channel (R174, R180, R181). -/
def sendFlits (p : Port) (esc : Bool) (now : Nat) : List (BitVec 544) → Port
  | [] => p
  | f :: r =>
    let g := mkFlit (flitKind f) esc p.seq (flitF f 16 512)
    let q : Port :=
      { p with seq := p.seq + 1, held := p.held ++ [(p.seq, g)],
               sentAt := if p.held.isEmpty then now else p.sentAt, ackAt := if p.held.isEmpty then now else p.ackAt,
               credits := addAt p.credits (flitChan g) (2 ^ 20 - 1) (2 ^ 20), wire := p.wire ++ [g],
               winFlits := p.winFlits + 1 }
    sendFlits q esc now r

/-- The channel's credits and the replay buffer of an output take a message of n flits (R174, R181). -/
def roomFor (p : Port) (chan n : Nat) : Bool :=
  carries p && n ≤ p.credits.getD chan 0 && p.held.length + n ≤ 1024

/-- Send a message through output k, counting FLITS. -/
def transmit (w : Wafer) (k : Nat) (esc : Bool) (l : List (BitVec 544)) : Wafer :=
  let w := w.setPort k { sendFlits (w.port k) esc w.now l with lastMem := (l.head?.map flitKind).getD 0 == 4 }
  w.onPortRegs k (fun w b => w.set b F.LNK_TX.FLITS (w.get b F.LNK_TX.FLITS + l.length))

/-! ### Routing (R147, R176–R179, R196) -/

/-- The topology of a routing-table bank. -/
def bankTopo (w : Wafer) (b : Bool) : Topo := if b then w.col.bank1 else w.col.bank0

def numOf (w : Wafer) (p : Nat) : Nat := (w.logicalOf p).getD 255

/-- The escape root: the active site with the lowest logical number, in the topology of a bank (R176). -/
def escRoot (w : Wafer) (t : Topo) : Nat := (w.col.sites.find? (fun p => t.up p)).getD 0

/-- Spine links in service to a wafer, ascending (R196). -/
def spineTo (w : Wafer) (wafer : Nat) : List Nat :=
  (List.range 32).filter fun l =>
    let b := spineBlk l
    (w.get b F.LNK_SP_STAT.STATE == 1 || w.get b F.LNK_SP_STAT.STATE == 2) && w.flag b F.LNK_SP_STAT.PEER_VALID &&
    w.get b F.LNK_SP_STAT.PEER_WAFER == wafer

/-- The spine link of a message to another wafer: index DEST_DIE mod k (R196). -/
def spineOf (w : Wafer) (wafer die : Nat) : Option Nat :=
  let l := w.spineTo wafer
  if l.isEmpty then none else l[die % l.length]?

/-- Where a router sends a message. -/
inductive Hop where
  | port (dir : Nat)
  | here
  | spine (link : Nat)
  | nowhere
deriving DecidableEq, Repr

/-- The output of a node for a routing word and channel, by the stamped bank (R147, R176, R179, R196). -/
def hopFor (w : Wafer) (node : Nat) (rw : Nat) (esc : Bool) : Hop :=
  let dw := rw / 2 ^ 60 % 16
  let die := rw / 2 ^ 52 % 256
  let t := w.bankTopo (Nat.testBit rw 39)
  let go (dst : Nat) : Option Nat :=
    if esc then t.escRoute w.numOf (w.escRoot t) node dst else t.route w.numOf node dst
  let toward (dst : Nat) : Hop := match go dst with | some 4 => .here | some d => .port d | none => .nowhere
  if dw = w.col.wafer then
    match w.nodeOf die with
    | some dst => toward dst
    | none => .nowhere
  else
    match w.spineOf dw die with
    | some l => if node = 144 + l / 2 then .spine l else toward (144 + l / 2)
    | none => .nowhere

/-- Escape-tree neighbours of a node but for the one a message came from: where a broadcast goes on (R178). -/
def treeOutputs (w : Wafer) (node arrival : Nat) (bank : Bool) : List Nat :=
  let t := w.bankTopo bank
  let root := w.escRoot t
  (portsOf node).filter fun d =>
    d != arrival &&
    match neighbour node d with
    | some m =>
      let joined (c p : Nat) : Bool := t.escRoute w.numOf root c p == (portsOf c).find? (fun x => neighbour c x == some p)
      t.linkUp node d && m < 144 &&
        ((t.escParent root m).bind (neighbour m) == some node || (t.escParent root node).bind (neighbour node) == some m) &&
        joined m node
    | none => false

/-- Die values a routing word may not name (R5, R171). -/
def reservedDie (d : Nat) : Bool := 0x90 ≤ d && d ≤ 0xFE

/-- The head message of a channel in an input buffer: its flits, if all have arrived (R171). A bad LEN stands alone. -/
def headMsg (l : List (BitVec 544)) (chan : Nat) : Option (List (BitVec 544)) :=
  match l.filter (fun f => flitChan f == chan) with
  | [] => none
  | f :: r =>
    let n := flitF f 500 3
    if n = 0 || 5 < n then some [f] else if n ≤ r.length + 1 then some ((f :: r).take n) else none

/-- Remove a message of n flits from a channel of an input buffer and count its slots freed (R174). -/
def freeSlots (p : Port) (chan n : Nat) : Port :=
  let gone := ((List.range p.inbuf.length).filter (fun i => (p.inbuf[i]?.map flitChan) == some chan)).take n
  { p with inbuf := ((List.range p.inbuf.length).filter (fun i => !gone.contains i)).filterMap (fun i => p.inbuf[i]?),
           freed := addAt p.freed chan n 4096, owed := true }

/-- The fenced-target response to a discarded request (R179, R217): the request's TAG, UNIT and ADDRESS, STATUS 3, routed
back to its source. A COH request gets a READ_RSP to unit 117, the remote-line cache (DESIGN CHOICE, log entry 30). -/
def fencedRsp (w : Wafer) (f : BitVec 544) : Option (BitVec 544) :=
  let rw := flitF f 464 64
  let op := flitF f 460 4
  let isReq := (flitKind f == 4 && (op ≤ 2 || (10 ≤ op && op ≤ 12))) || (flitKind f == 5 && (op ≤ 1 || op == 3))
  if !isReq then none
  else
    let back := rw / 2 ^ 40 % 2 ^ 12 * 2 ^ 52 + rw / 2 ^ 52 % 2 ^ 12 * 2 ^ 40 + (if w.col.bank then 2 ^ 39 else 0) + 2 ^ 36
    let unit := if flitKind f = 5 then 117 else flitF f 436 8
    let rop := if flitKind f = 5 then 3 else if op ≤ 2 then op + 3 else 13
    some (mkFlit 4 false 0 (back * 2 ^ 448 + rop * 2 ^ 444 + flitF f 456 4 * 2 ^ 440 + flitF f 444 12 * 2 ^ 428 +
      unit * 2 ^ 420 + flitF f 430 6 * 2 ^ 414 + 3 * 2 ^ 404 + flitF f 352 64 * 2 ^ 336))

/-- Queue a message of this die at the output its routing word asks for. -/
def inject (w : Wafer) (node : Nat) (l : List (BitVec 544)) : Wafer :=
  match l with
  | [] => w
  | f :: _ =>
    match w.hopFor node (flitF f 464 64) (flitEsc f) with
    | .port d => let k := portKey node d; w.setPort k { w.port k with outq := (w.port k).outq ++ [l] }
    | .here => { w with link := { w.link with delivered := w.link.delivered ++ [(node, l)] } }
    | _ => w

/-- Discard a message at port k (R171, R179): requests are answered, everything else counts in DISCARDS. -/
def discardMsg (w : Wafer) (k : Nat) (f : BitVec 544) (badLen : Bool) : Wafer :=
  match if badLen then none else w.fencedRsp f with
  | some g => w.inject (k / 4) [g]
  | none => w.onPortRegs k (fun w b => w.bump b F.LNK_EVT.DISCARDS)

/-- Payload of a flit as 64 bytes for a spine block (R199), bits [16, 528) least significant byte first. -/
def flitBlock (f : BitVec 544) : List Byte := toLE 64 (flitF f 16 512)

/-- Spine class of a link class (Table LNK-11). -/
def spineClass (c : Nat) : Option Nat := match c with | 0 => some 0 | 2 => some 2 | 3 => some 3 | _ => none

def spine (w : Wafer) (l : Nat) : Spine := Tab.look (fun _ => Spine.init) w.link.spine l

def setSpine (w : Wafer) (l : Nat) (p : Spine) : Wafer :=
  { w with link := { w.link with spine := Tab.put (fun _ => Spine.init) w.link.spine l p } }

/-- Classes ready at an output: heads of this node's inputs whose next hop it is, with room for them (R175). -/
def readyChans (w : Wafer) (node dir : Nat) : List Nat :=
  (List.range 8).filter fun ch =>
    (portsOf node).any fun d =>
      match headMsg (w.port (portKey node d)).inbuf ch with
      | some (f :: r) =>
        w.hopFor node (flitF f 464 64) (flitEsc f) == .port dir && roomFor (w.port (portKey node dir)) ch (r.length + 1)
      | _ => false

/-- The order of R175 lets channel `ch` have the output's next slots. -/
def mayGo (w : Wafer) (node dir ch : Nat) : Bool :=
  let r := w.readyChans node dir
  let p := w.port (portKey node dir)
  let c := ch % 4
  let escFirst := 4 ≤ ch || !r.contains (ch + 4)
  let irq := r.any (fun x => x % 4 == 2)
  match c with
  | 2 => escFirst
  | 3 => escFirst && (r.all (fun x => x % 4 == 3) || 6 ≤ since p.dbgAt w.now)
  | _ => escFirst && !irq && !(r.any (fun x => x % 4 == 1 - c) && (p.lastMem == (c == 0)))

/-- Forward the head message of channel `ch` at input k, on the escape channel if `esc` (R176–R179). -/
def forwardMsg (w : Wafer) (k ch : Nat) (esc : Bool) (l : List (BitVec 544)) : Wafer :=
  match l with
  | [] => w
  | f :: _ =>
    let node := k / 4
    let rw := flitF f 464 64
    let die := rw / 2 ^ 52 % 256
    let n := flitF f 500 3
    let free (w : Wafer) : Wafer := w.setPort k (freeSlots (w.port k) ch l.length)
    let deliver (w : Wafer) : Wafer := { w with link := { w.link with delivered := w.link.delivered ++ [(node, l)] } }
    let out := ch % 4 + (if esc then 4 else 0)
    if n = 0 || 5 < n || reservedDie die then (free w).discardMsg k f true
    else if die = 0xFF && rw / 2 ^ 60 % 16 = w.col.wafer then
      let ds := w.treeOutputs node (k % 4) (Nat.testBit rw 39)
      if ds.all (fun d => roomFor (w.port (portKey node d)) (ch % 4 + 4) n) then
        ds.foldl (fun w d => w.transmit (portKey node d) true l) (deliver (free w))
      else w
    else
      match w.hopFor node rw esc with
      | .here => deliver (free w)
      | .nowhere => (free w).discardMsg k f false
      | .spine s =>
        match spineClass (ch % 4) with
        | some c => (free w).setSpine s { w.spine s with outq := (w.spine s).outq ++ [(c, l.flatMap flitBlock)] }
        | none => (free w).discardMsg k f true
      | .port d =>
        if roomFor (w.port (portKey node d)) out n && (esc != decide (4 ≤ ch) || w.mayGo node d ch) then
          (free w).transmit (portKey node d) esc l
        else
          if ch % 4 = 3 && (w.port (portKey node d)).dbgAt = 0 then
            w.setPort (portKey node d) { w.port (portKey node d) with dbgAt := w.now }
          else w

/-! ### Naming a switch (R148, R179, R190) -/

/-- Unhal computes routes and escape tree for the links that remain, loads the idle bank and names a switch instant: the
first FOL_REFCOUNT multiple of 100 at least 20 µs ahead, and 200 µs after the last switch, when the idle bank may be
written (DESIGN CHOICE within R148, log entry 31). A change at the instant of naming joins that switch; a later one waits
for the next. -/
def nameSwitch (w : Wafer) : Wafer :=
  match w.col.switchAt with
  | some _ =>
    if w.col.namedAt = w.now then
      { w with col := if w.col.bank then { w.col with bank0 := w.topoNow } else { w.col with bank1 := w.topoNow } }
    else { w with col := { w.col with again := true } }
  | none =>
    let from0 := match w.col.switched with | some t => max w.now (t + us 200) | none => w.now
    let s := (from0 + us 20 + 99) / 100 * 100
    let c := if w.col.bank then { w.col with bank0 := w.topoNow } else { w.col with bank1 := w.topoNow }
    { w with col := { c with switchAt := some s, namedAt := w.now, again := false } }

/-- Give every draining link that no switch covers yet the switch now named. -/
def coverDraining (w : Wafer) : Wafer :=
  match w.col.switchAt with
  | none => w
  | some s =>
    w.link.port.foldl (fun w e =>
      if e.2.state == 5 && e.2.switchAt.isNone then w.setPort e.1 { w.port e.1 with switchAt := some s } else w) w

/-- Declare a link frayed or its retrain failed (Table LNK-9, steps 1 and 2). -/
def declareFrayed (w : Wafer) (k : Nat) (f : Fld) : Wafer :=
  let mark (w : Wafer) (j : Nat) : Wafer := w.setPort j { w.port j with state := 5, reason := 7 }
  let w := mark (mark (w.linkEvent k f) k) (farKey k)
  let w := w.nameSwitch
  if w.col.namedAt = w.now then w.coverDraining else w

/-! ### READY and READY_DEGRADED (R164) -/

/-- Every item of Table COL-3 holds, apart from the fence list, guard counts and uncabled spine links. -/
def allWell (w : Wafer) : Bool :=
  w.sitesActive == 128 && w.edgesActive == 16 && allLinks.all (fun l => w.linkState l.1 l.2 == 1) &&
  (List.range 32).all (fun l => (w.spine l).uncabled || w.get (spineBlk l) F.LNK_SP_STAT.STATE == 1) &&
  (List.range 16).all (fun e => !(w.dieInfo (144 + e)).hbmBad)

/-- At run time PHASE moves only between READY and READY_DEGRADED (R164); the report is rewritten (R163). -/
def review (w : Wafer) : Wafer :=
  if w.col.phase = 3 || w.col.phase = 4 then
    let p := if w.allWell then 3 else 4
    if p = w.col.phase then w.rewriteReport else w.setPhase p
  else w

/-! ### Spine links (R194–R204) -/

/-- Lanes set in a mask. -/
def lanesOf (m : BitVec 16) : Nat := ((List.range 16).filter (fun i => m.getLsbD i)).length

/-- The width that qualified lanes give (R204): FULL, HALF or RETIRED, with their events. -/
def setWidth (w : Wafer) (l : Nat) (lanes : BitVec 16) : Wafer :=
  let b := spineBlk l
  let n := lanesOf lanes
  let w := w.set b F.LNK_SP_STAT.LANES lanes.toNat
  if n = 16 then w.set b F.LNK_SP_STAT.STATE 1
  else if 8 ≤ n then (w.set b F.LNK_SP_STAT.STATE 2).setReg (b + 0x28) (w.reg (b + 0x28) ||| 0x20)
  else (w.set b F.LNK_SP_STAT.STATE 3).setReg (b + 0x28) (w.reg (b + 0x28) ||| 0x80)

/-- Latch a bit of LNK_SP_EVT. -/
def spineEvent (w : Wafer) (l bit : Nat) : Wafer :=
  w.setReg (spineBlk l + 0x28) (w.reg (spineBlk l + 0x28) ||| BitVec.ofNat 64 (2 ^ bit))

def spineUp (w : Wafer) (l : Nat) : Bool :=
  w.get (spineBlk l) F.LNK_SP_STAT.STATE == 1 || w.get (spineBlk l) F.LNK_SP_STAT.STATE == 2

def startSpineRetrain (w : Wafer) (l : Nat) : Wafer :=
  if w.spineUp l then
    ((w.set (spineBlk l) F.LNK_SP_STAT.STATE 4).setSpine l { w.spine l with since := w.now }).spineEvent l 4
  else w

/-- The shelf (R195): this wafer and every peer with a link in service, in ascending number. Links between other wafers
are not this wafer's state: they are taken to be in service (DESIGN CHOICE, log entry 32). -/
def formShelf (w : Wafer) : Wafer :=
  let s := (List.range 16).filter (fun x => x == w.col.wafer || !(w.spineTo x).isEmpty)
  { w with col := { w.col with shelf := s } }

/-- After a spine link has changed: shelf, PHASE and report (R163, R164, R195, R196). -/
def spineChanged (w : Wafer) : Wafer := w.formShelf.review

/-- Replay every held packet (R201), or retrain at MAX_RETRY. -/
def replayPackets (w : Wafer) (l : Nat) : Wafer :=
  let p := w.spine l
  match p.held with
  | [] => w
  | (c, _) :: _ =>
    if w.get (spineBlk l) F.LNK_SP_CFG.MAX_RETRY ≤ p.tries then (w.spineEvent l 1).startSpineRetrain l
    else
      (w.setSpine l { p with tries := p.tries + 1, replay := some (c, w.now), sentAt := w.now,
                             winReplays := p.winReplays + 1, wire := p.wire ++ p.held.map (·.2) }).bump (spineBlk l)
        F.LNK_SP_TX.REPLAYS

/-- A packet from its fields (Table LNK-11, R198). -/
def mkPacket (w : Wafer) (l : Nat) (data : Bool) (cls seq : Nat) (payload : List Byte) : List Byte :=
  let p := w.spine l
  let body := [if data then 1 else 0, BitVec.ofNat 8 cls, BitVec.ofNat 8 (payload.length / 64),
      BitVec.ofNat 8 (if p.nak then 1 else 0)] ++ toLE 2 seq ++ toLE 2 (p.expect + 65535) ++
    toLE 2 (p.freed.getD 0 0) ++ toLE 2 0 ++ toLE 2 (p.freed.getD 1 0) ++ toLE 2 (p.freed.getD 2 0) ++
    [BitVec.ofNat 8 w.col.wafer, BitVec.ofNat 8 l] ++ List.replicate 14 0 ++ payload
  body ++ toLE 8 (spineCrc body) ++ List.replicate 8 0

/-- Index of a spine class among the three credit counts. -/
def spineCr (cls : Nat) : Nat := match cls with | 0 => 0 | 2 => 1 | _ => 2

/-- The checks of R198 on a packet. -/
def packetGood (l : List Byte) : Bool :=
  let n := leAt l 2 1
  48 ≤ l.length && leAt l 0 1 ≤ 1 && (leAt l 1 1 == 0 || leAt l 1 1 == 2 || leAt l 1 1 == 3) && n ≤ 16 &&
  (leAt l 0 1 == 1 || n == 0) && 48 + 64 * n ≤ l.length &&
  spineCrc (l.take (32 + 64 * n)) == leAt l (32 + 64 * n) 8

/-- A packet's ACK frees held packets (R184 modulo 65,536). -/
def ackPackets (p : Spine) (a now : Nat) : Spine :=
  match p.held with
  | [] => p
  | (o, _) :: _ =>
    let c := o + (a + 65536 - o % 65536) % 65536
    if c < o + 32768 && p.held.any (fun h => h.1 == c) then
      { p with held := p.held.filter (fun h => c < h.1), tries := 0, ackAt := now, sentAt := now }
    else p

/-- A good packet (R200, R201): ACK, credits, then a DATA packet by its sequence number, then NAK. -/
def takePacket (w : Wafer) (l : Nat) (b : List Byte) : Wafer :=
  let p := ackPackets (w.spine l) (leAt b 6 2) w.now
  let seen := [leAt b 8 2, leAt b 12 2, leAt b 14 2]
  let p := { p with
    credits := (List.range 3).map (fun i => p.credits.getD i 0 + (seen.getD i 0 + 65536 - p.seenFreed.getD i 0) % 65536)
    seenFreed := seen }
  let w := w.setSpine l p
  let n := leAt b 2 1
  let cls := leAt b 1 1
  let d := (leAt b 4 2 + 65536 - p.expect % 65536) % 65536
  let w :=
    if leAt b 0 1 = 0 then w
    else if d = 0 then
      let w := w.setSpine l { p with expect := p.expect + 1, nak := false, freed := addAt p.freed (spineCr cls) n 65536 }
      { w with link := { w.link with arrived := w.link.arrived ++ [(l, cls, (b.drop 32).take (64 * n))] } }
    else if d ≤ 32767 then (w.setSpine l { p with nak := true }).bump (spineBlk l) F.LNK_SP_RX.SEQ_GAPS
    else w
  let flags := leAt b 3 1
  let w := if flags % 2 = 1 then
      let q := w.spine l
      match q.held, q.replay with
      | (c, _) :: _, some (c', t) => if c = c' && since t w.now < us 2 then w else w.replayPackets l
      | _, _ => w.replayPackets l
    else w
  if Nat.testBit flags 1 then w.startSpineRetrain l else w

/-- The messages of a class that fill one packet: whole messages, at most 16 blocks (R199). -/
def gatherMsgs : Nat → List (List Byte) → List (List Byte)
  | _, [] => []
  | n, m :: r => if m.length / 64 ≤ n then m :: gatherMsgs (n - m.length / 64) r else []

/-- The first k messages of a class leave a queue. -/
def dropClass (c : Nat) : Nat → List (Nat × List Byte) → List (Nat × List Byte)
  | 0, l => l
  | _ + 1, [] => []
  | k + 1, m :: r => if m.1 = c then dropClass c k r else m :: dropClass c (k + 1) r

/-- A peer wafer this wafer's links no longer reach leaves the shelf; so does a link's training state (R196). -/
def retireSpine (w : Wafer) (l : Nat) : Wafer :=
  ((w.set (spineBlk l) F.LNK_SP_STAT.STATE 3).spineEvent l 7).spineChanged

end Wafer

/-- Act on the port a link end names, if there is one. -/
def onEnd (e : LinkEnd) (s : State) (f : Wafer → Nat → Wafer) : Host.Outcome State Fault Refusal :=
  .next (s.onWafer fun w => match w.endKey e with | some k => f w k | none => w)

/-- Act on a die-edge port or a spine link. -/
def onLink (l : AnyLink) (s : State) (f g : Wafer → Nat → Wafer) : Host.Outcome State Fault Refusal :=
  match l with
  | .die e => onEnd e s f
  | .spine n => .next (s.onWafer fun w => g w n)

/-! ### Meanings -/

/-- FLIT_RECEIVE (R182): a flit other than a LINK flit arrives at a port. -/
def execFlitReceive (port : LinkEnd) (flit : BitVec 544) (s : State) : Host.Outcome State Fault Refusal :=
  onEnd port s fun w k =>
    let p := w.port k
    if !Wafer.carries p then w
    else if !flitGood flit then
      (w.setPort k { p with nak := true }).onPortRegs k (fun w b => w.bump b F.LNK_RX.CRC_ERRS)
    else if flitKind flit < 4 then w
    else
      let d := (flitF flit 528 12 + 4096 - p.expect % 4096) % 4096
      if d = 0 then w.setPort k { p with expect := p.expect + 1, inbuf := p.inbuf ++ [flit], owed := true }
      else if d ≤ 2047 then
        (w.setPort k { p with nak := true }).onPortRegs k (fun w b => w.bump b F.LNK_RX.SEQ_GAPS)
      else w

/-- LINK_FLIT_RECEIVE (R172, R174, R182, R184, R185): ACK, credits, NAK, RETRAIN_REQ. -/
def execLinkFlitReceive (port : LinkEnd) (flit : BitVec 544) (s : State) : Host.Outcome State Fault Refusal :=
  onEnd port s fun w k =>
    let p := w.port k
    if !Wafer.carries p && p.state ≠ 4 then w
    else if !flitGood flit then
      (w.setPort k { p with nak := true }).onPortRegs k (fun w b => w.bump b F.LNK_RX.CRC_ERRS)
    else if flitKind flit ≠ 1 then w
    else
      let seen := (List.range 8).map (fun i => flitF flit (500 - 12 * i) 12)
      let p := Wafer.ackHeld p (flitF flit 516 12) w.now
      let p := { p with
        credits := (List.range 8).map (fun i => p.credits.getD i 0 + (seen.getD i 0 + 4096 - p.seenFreed.getD i 0) % 4096)
        seenFreed := seen }
      let w := w.setPort k p
      let w := if flitF flit 515 1 = 1 then
          match p.held, p.replay with
          | (c, _) :: _, some (c', t) => if c = c' && since t w.now ≤ 2 then w else w.replayHeld k
          | _, _ => w.replayHeld k
        else w
      if flitF flit 514 1 = 1 then w.startRetrain k else w

/-- LINK_FLIT_SEND (R172, R183): at least once in 64 beats while something is owed, and after a NAK. -/
def execLinkFlitSend (port : LinkEnd) (s : State) : Host.Outcome State Fault Refusal :=
  onEnd port s fun w k =>
    let p := w.port k
    if (Wafer.carries p || p.state = 4) && (p.owed || p.nak) then
      w.setPort k { p with wire := p.wire ++ [Wafer.linkFlit p (p.state = 4)], owed := false, nak := false }
    else w

/-- ROUTER_FORWARD (R171, R173–R179, R196): the head message of a class and channel at an input; where none waits there,
the head message of this die's own waiting for that port as an output. -/
def execRouterForward (port : LinkEnd) (cls : TClass) (esc : Bool) (s : State) : Host.Outcome State Fault Refusal :=
  onEnd port s fun w k =>
    let ch := classIdx cls + (if esc then 4 else 0)
    match Wafer.headMsg (w.port k).inbuf ch with
    | some l => w.forwardMsg k ch esc l
    | none =>
      match (w.port k).outq.find? (fun l => (l.head?.map flitChan) == some ch) with
      | some l =>
        if Wafer.roomFor (w.port k) ch l.length then
          (w.setPort k { w.port k with outq := (w.port k).outq.erase l }).transmit k esc l
        else w
      | none => w

/-- ESCAPE_MOVE (R176): a head message that has waited 256 site cycles without credits for its next hop. -/
def execEscapeMove (port : LinkEnd) (cls : TClass) (waited : Nat) (s : State) : Host.Outcome State Fault Refusal :=
  onEnd port s fun w k =>
    let ch := classIdx cls
    match Wafer.headMsg (w.port k).inbuf ch with
    | some (f :: r) =>
      let stuck := match w.hopFor (k / 4) (flitF f 464 64) false with
        | .port d => !(decide (r.length + 1 ≤ (w.port (Wafer.portKey (k / 4) d)).credits.getD ch 0))
        | _ => false
      if 256 ≤ waited && stuck then w.forwardMsg k ch true (f :: r) else w
    | _ => w

/-- ACK_TIMEOUT (R186, R201, R203). -/
def execAckTimeout (link : AnyLink) (s : State) : Host.Outcome State Fault Refusal :=
  onLink link s
    (fun w k =>
      let p := w.port k
      if Wafer.carries p && !p.held.isEmpty && 10 * w.portCfg k F.LNK_CFG.ACK_TIMEOUT ≤ since p.sentAt w.now then
        (w.onPortRegs k (fun w b => w.latch b F.LNK_EVT.ACK_TIMEOUT)).replayHeld k
      else w)
    (fun w l =>
      let p := w.spine l
      if w.spineUp l && !p.held.isEmpty && us (w.get (spineBlk l) F.LNK_SP_CFG.ACK_TIMEOUT) ≤ since p.sentAt w.now then
        (w.spineEvent l 0).replayPackets l
      else w)

/-- NO_PROGRESS (R186, R203). -/
def execNoProgress (link : AnyLink) (s : State) : Host.Outcome State Fault Refusal :=
  onLink link s
    (fun w k =>
      let p := w.port k
      if Wafer.carries p && !p.held.isEmpty && 10 * w.portCfg k F.LNK_CFG.NOPROGRESS ≤ since p.ackAt w.now then
        (w.onPortRegs k (fun w b => w.latch b F.LNK_EVT.NO_PROGRESS)).startRetrain k
      else w)
    (fun w l =>
      let p := w.spine l
      if w.spineUp l && !p.held.isEmpty && us (w.get (spineBlk l) F.LNK_SP_CFG.NOPROGRESS) ≤ since p.ackAt w.now then
        (w.spineEvent l 2).startSpineRetrain l
      else w)

/-- FIFO_SLIP (R167): the separation leaves 2 to 6. -/
def execFifoSlip (port : LinkEnd) (separation : Nat) (s : State) : Host.Outcome State Fault Refusal :=
  onEnd port s fun w k =>
    if Wafer.carries (w.port k) && (separation < 2 || 6 < separation) then
      (w.onPortRegs k (fun w b => w.latch b F.LNK_EVT.FIFO_SLIP)).startRetrain k
    else w

/-- RETRAIN (R187, R204): a retrain ends. Each die-edge sender replays from the far ACK + 1; a spine link takes the
width its lanes now give, and keeps what it holds. -/
def execRetrain (link : AnyLink) (lanes : BitVec 16) (s : State) : Host.Outcome State Fault Refusal :=
  onLink link s
    (fun w k =>
      if (w.port k).state = 4 && 40 ≤ since (w.port k).since w.now then
        let finish (w : Wafer) (j : Nat) : Wafer :=
          let p := Wafer.ackHeld (w.port j) (((w.port (Wafer.farKey j)).expect + 4095) % 4096) w.now
          w.setPort j { p with state := if p.reason = 0 then 1 else 5, tries := 0, nak := false, sentAt := w.now,
                               ackAt := w.now, wire := p.wire ++ p.held.map (·.2) }
        finish (finish w k) (Wafer.farKey k)
      else w)
    (fun w l =>
      if w.get (spineBlk l) F.LNK_SP_STAT.STATE = 4 then
        let p := w.spine l
        let w := (w.setWidth l lanes).setSpine l { p with tries := 0, nak := false, sentAt := w.now, ackAt := w.now }
        let w := if w.spineUp l then w.setSpine l { w.spine l with wire := p.wire ++ p.held.map (·.2) } else w
        w.spineChanged
      else w)

/-- RETRAIN_FAIL (R186, R190, R203): RETRAIN_LIMIT has passed. -/
def execRetrainFail (link : AnyLink) (s : State) : Host.Outcome State Fault Refusal :=
  onLink link s
    (fun w k =>
      if (w.port k).state = 4 && us (w.portCfg k F.LNK_CFG.RETRAIN_LIMIT) ≤ since (w.port k).since w.now then
        w.declareFrayed k F.LNK_EVT.RETRAIN_FAIL
      else w)
    (fun w l =>
      if w.get (spineBlk l) F.LNK_SP_STAT.STATE = 4 &&
          us (w.get (spineBlk l) F.LNK_SP_CFG.RETRAIN_LIMIT) ≤ since (w.spine l).since w.now then w.retireSpine l
      else w)

/-- FRAY_WINDOW (R189, R203, R204): the window that ends at a FOL_REFCOUNT multiple of 100,000. -/
def execFrayWindow (link : AnyLink) (s : State) : Host.Outcome State Fault Refusal :=
  onLink link s
    (fun w k =>
      if w.now % 100000 = 0 && ((w.port k).state = 1 || (w.port k).state = 4 || (w.port k).state = 5) then
        let close (w : Wafer) (j : Nat) : Wafer :=
          let p := w.port j
          (w.setPort j { p with winFlits := 0, winReplays := 0 }).onPortRegs j (fun w b =>
            (w.set b F.LNK_WIN.WIN_FLITS (min (2 ^ 32 - 1) p.winFlits)).set b F.LNK_WIN.WIN_REPLAYS (min 65535 p.winReplays))
        let bad (j : Nat) : Bool :=
          decide (max (w.port j).winFlits 1000000 < (w.port j).winReplays * w.portCfg j F.LNK_CFG.FRAY_N)
        let frayed := (w.port k).state = 1 && (bad k || bad (Wafer.farKey k))
        let w := close (close w k) (Wafer.farKey k)
        if frayed then w.declareFrayed k F.LNK_EVT.FRAYED else w
      else w)
    (fun w l =>
      if w.now % 100000 = 0 && w.spineUp l then
        let p := w.spine l
        let bad := decide (max p.winPkts 1000000 < p.winReplays * w.get (spineBlk l) F.LNK_SP_CFG.FRAY_N)
        let again := match p.frayedAt with | some t => decide (since t w.now ≤ ms 1000) | none => false
        let w := w.setSpine l { p with winPkts := 0, winReplays := 0, frayedAt := if bad then some w.now else p.frayedAt }
        if !bad then w
        else if again then (w.spineEvent l 6).retireSpine l
        else (w.spineEvent l 6).startSpineRetrain l
      else w)

/-- LNK_CLEAR (R188): every counter of the port to 0. -/
def execLnkClear (src : Src) (port : LinkEnd) (s : State) : Host.Outcome State Fault Refusal :=
  onEnd port s fun w k =>
    if configSrc src then
      w.onPortRegs k (fun w b =>
        (((w.setReg (b + 0x10) 0).setReg (b + 0x18) 0).setReg (b + 0x20) 0).set b F.LNK_EVT.DISCARDS 0)
    else w

/-- LNK_RETRAIN (R188). -/
def execLnkRetrain (src : Src) (port : LinkEnd) (s : State) : Host.Outcome State Fault Refusal :=
  onEnd port s fun w k => if configSrc src then w.startRetrain k else w

/-- SPINE_TRAINING (R150, R164, R195, R204): the end of a training. -/
def execSpineTraining (link : Fin 32) (signal : Bool) (lanes : BitVec 16) (peer : SpinePeer) (s : State) :
    Host.Outcome State Fault Refusal :=
  .next (s.onWafer fun w =>
    let b := spineBlk link
    let st := w.get b F.LNK_SP_STAT.STATE
    if !w.edgeUp (Fin.ofNat 16 (link / 2)) || st ≠ 0 || w.col.phase < 2 then w
    else
      let sp := w.spine link
      let w := w.setSpine link { sp with uncabled := !signal, since := w.now }
      if !signal || peer.serial = Config.serial then w.spineChanged
      else
        let changed := w.flag b F.LNK_SP_STAT.PEER_VALID &&
          (w.get b F.LNK_SP_STAT.PEER_WAFER != peer.wafer.toNat || w.get b F.LNK_SP_STAT.PEER_LINK != peer.link.toNat)
        let w := ((w.set b F.LNK_SP_STAT.PEER_WAFER peer.wafer.toNat).set b F.LNK_SP_STAT.PEER_LINK peer.link.toNat).set b
          F.LNK_SP_STAT.PEER_VALID 1
        let w := if changed then w.spineEvent link 8 else w
        let w := if peer.wafer.toNat = w.col.wafer then w.set b F.LNK_SP_STAT.STATE 5 else w.setWidth link lanes
        w.spineChanged)

/-- SPINE_RETRY (R195): Unhal starts a training of a DOWN link once every second. -/
def execSpineRetry (link : Fin 32) (s : State) : Host.Outcome State Fault Refusal :=
  .next (s.onWafer fun w =>
    if w.col.boot.running && w.get (spineBlk link) F.LNK_SP_STAT.STATE = 0 && ms 1000 ≤ since (w.spine link).since w.now then
      w.setSpine link { w.spine link with since := w.now }
    else w)

/-- SPINE_PACKET_RECEIVE (R197–R201): decoder counts, then the packet. -/
def execSpinePacketReceive (link : Fin 32) (bytes : List Byte) (corrected : Nat) (uncorrectable : Bool) (s : State) :
    Host.Outcome State Fault Refusal :=
  .next (s.onWafer fun w =>
    if !w.spineUp link then w
    else
      let b := spineBlk link
      let w := w.bumpBy b F.LNK_SP_FEC.CORRECTED corrected
      let w := if uncorrectable then w.bump b F.LNK_SP_FEC.UNCORRECTABLE else w
      if uncorrectable || !Wafer.packetGood bytes then
        (w.setSpine link { w.spine link with nak := true }).bump b F.LNK_SP_RX.CRC_ERRS
      else w.takePacket link bytes)

/-- SPINE_PACKET_SEND (R198–R201): a DATA packet of one class, full or after 50 ns. -/
def execSpinePacketSend (link : Fin 32) (cls : TClass) (waitedNs : Nat) (s : State) : Host.Outcome State Fault Refusal :=
  .next (s.onWafer fun w =>
    match Wafer.spineClass (classIdx cls) with
    | none => w
    | some c =>
      let p := w.spine link
      let all := (p.outq.filter (fun m => m.1 == c)).map (·.2)
      let msgs := Wafer.gatherMsgs 16 all
      let payload := msgs.flatten
      let n := payload.length / 64
      let full := decide (msgs.length < all.length) || n == 16
      let bytesHeld := (p.held.map (fun h => h.2.length)).foldl (· + ·) 0
      if w.spineUp link && !msgs.isEmpty && (full || 50 ≤ waitedNs) && n ≤ p.credits.getD (Wafer.spineCr c) 0 &&
          p.held.length < 16384 && bytesHeld + payload.length + 48 ≤ 8 * 2 ^ 20 then
        let pk := w.mkPacket link true c p.seq payload
        (w.setSpine link { p with
          outq := Wafer.dropClass c msgs.length p.outq, seq := p.seq + 1, held := p.held ++ [(p.seq, pk)], nak := false,
          sentAt := if p.held.isEmpty then w.now else p.sentAt, ackAt := if p.held.isEmpty then w.now else p.ackAt,
          credits := addAt p.credits (Wafer.spineCr c) (2 ^ 20 - n) (2 ^ 20), wire := p.wire ++ [pk],
          winPkts := p.winPkts + 1 }).count (spineBlk link) F.LNK_SP_TX.PACKETS
      else w)

/-- LANE_LOST (R203). -/
def execLaneLost (link : Fin 32) (lane : Fin 16) (s : State) : Host.Outcome State Fault Refusal :=
  .next (s.onWafer fun w =>
    if w.spineUp link && Nat.testBit (w.get (spineBlk link) F.LNK_SP_STAT.LANES) lane then
      (w.spineEvent link 3).startSpineRetrain link
    else w)

/-- SPINE_CLEAR (R202). -/
def execSpineClear (src : Src) (link : Fin 32) (s : State) : Host.Outcome State Fault Refusal :=
  .next (s.onWafer fun w =>
    if configSrc src then
      ((w.setReg (spineBlk link + 0x10) 0).setReg (spineBlk link + 0x18) 0).setReg (spineBlk link + 0x20) 0
    else w)

/-- SPINE_RETRAIN (R202). -/
def execSpineRetrain (src : Src) (link : Fin 32) (s : State) : Host.Outcome State Fault Refusal :=
  .next (s.onWafer fun w => if configSrc src then w.startSpineRetrain link else w)

end Sys2Proof.Machine
end

