-- ==== Sys2Proof/Machine/Memory.lean ====
section
/-! DEFINITION. The address map, what an access may reach, coherent reads and writes of memory, twin ranges, and the
remote-line cache with its home directory (spec file 06: R207–R234; R284, R515). A memory key is a wafer physical address
with the own wafer's number taken as 0, SRAM by its cached offset, HBM by its interleaved view; another wafer's memory lies
above 2^64 by its address. -/

namespace Sys2Proof.Machine

/-- Access status (Table MEM-3). -/
abbrev stOk : Nat := 0
abbrev stAddr : Nat := 1
abbrev stProt : Nat := 2
abbrev stFenced : Nat := 3
abbrev stData : Nat := 4
abbrev stAlign : Nat := 5
abbrev stUnsup : Nat := 6
abbrev stHost : Nat := 7

/-- What an address names (R207–R212). -/
inductive Loc where
  | ram (key : Nat) (atomics : Bool)
  | service (key : Nat)
  | reg (die off : Nat)
  | bank (site off : Nat)
  | record (site off : Nat)
  | queue (site off : Nat)
  | mbx (edge off : Nat)
  | host (key : Nat)
  | far (key : Nat)
  | all (off : Nat)
  | bad (status : Nat)
deriving DecidableEq, Repr

/-- Fields of an address (R5). -/
def adRegion (a : Nat) : Nat := a / 2 ^ 60 % 16
def adWafer (a : Nat) : Nat := a / 2 ^ 56 % 16
def adDie (a : Nat) : Nat := a / 2 ^ 48 % 256
def adOff (a : Nat) : Nat := a % 2 ^ 48

/-- Extents of a site (Table MEM-1). -/
def siteLoc (s o : Nat) : Loc :=
  if o < 0x10000000 then .ram (dieAddr s o) true
  else if 0x000800000000 ≤ o && o < 0x000810000000 then .ram (dieAddr s (o - 0x000800000000)) true
  else if 0x001000000000 ≤ o && o < 0x001000800000 then .bank s (o - 0x001000000000)
  else if 0x002000000000 ≤ o && o < 0x002000400000 then .record s (o - 0x002000000000)
  else if 0x003000000000 ≤ o && o < 0x003000100000 then .queue s (o - 0x003000000000)
  else if 0x004000000000 ≤ o && o < 0x004001800000 then .ram (dieAddr s o) true
  else if 0x005000000000 ≤ o && o < 0x005000600000 then .ram (dieAddr s o) true
  else if 0x00F000000000 ≤ o && o < 0x00F001000000 then
    (if (regAt s o).isSome || (0x00F0000C0000 ≤ o && o < 0x00F0000E0000) then .reg s o else .bad stAddr)
  else .bad stAddr

/-- Extents of an edge die (R209). -/
def edgeLoc (e o : Nat) : Loc :=
  if o < 0x01000000 then .service (dieAddr (128 + e) o)
  else if 0x003000000000 ≤ o && o < 0x003000100000 then .mbx e (o - 0x003000000000)
  else if 0x00F000000000 ≤ o && o < 0x00F001000000 then .reg (128 + e) o
  else .bad stAddr

/-- The interleaved offset of an HBM address (R210), if it lies in an extent. -/
def hbmKey (die o : Nat) : Option Nat :=
  if die < 16 then (if o < 0x900000000 then some (o / 4096 * 65536 + die * 4096 + o % 4096) else none)
  else if die = 16 then (if o < 0x9000000000 then some o else none)
  else none

/-- Memory key of an interleaved HBM offset. -/
def hbmAddr (o : Nat) : Nat := 2 * 2 ^ 60 + 0x10 * 2 ^ 48 + o

/-- Memory key of a bus address behind PCIe port p (R211). -/
def hostAddr (p bus : Nat) : Nat := 4 * 2 ^ 60 + p * 2 ^ 48 + bus % 2 ^ 48

namespace Wafer

/-- A die that answers: a numbered site or an edge die in service. -/
def dieStatus (w : Wafer) (die : Nat) : Nat :=
  if die < 128 && w.col.sites.length ≤ die then stAddr else if w.active die then stOk else stFenced

/-- The stack of edge die e can be reached (R210). -/
def stackUp (w : Wafer) (e : Nat) : Bool := w.active (128 + e) && !(w.dieInfo (144 + e)).hbmBad

/-- Decode an address (R5, R12, R207–R212, R232). A die absent or fenced, a stack not in service and a wafer not in the
shelf give their status. -/
def locate (w : Wafer) (a : Nat) : Loc :=
  let die := adDie a
  let o := adOff a
  let own := adWafer a == w.col.wafer
  match adRegion a with
  | 0 =>
    if die = 0xFF then (if own then .all o else .bad stAddr)
    else if 0x90 ≤ die then .bad stAddr
    else if !own then (if w.col.shelf.contains (adWafer a) then .far (2 ^ 64 + a) else .bad stFenced)
    else if w.dieStatus die ≠ stOk then .bad (w.dieStatus die)
    else if die < 128 then siteLoc die o
    else edgeLoc (die - 128) o
  | 2 =>
    match hbmKey die o with
    | none => .bad stAddr
    | some k =>
      if !own then (if w.col.shelf.contains (adWafer a) then .far (2 ^ 64 + adWafer a * 2 ^ 56 + hbmAddr k) else .bad stFenced)
      else if w.stackUp (k / 4096 % 16) then .ram (hbmAddr k) true else .bad stFenced
  | 4 =>
    if !own || 0x20 ≤ die then .bad stAddr
    else if w.active (128 + die / 2) then .host (hostAddr die o) else .bad stFenced
  | _ => .bad stAddr

/-! ### Volume windows (R283–R287) -/

def volInfo (w : Wafer) (v : Nat) : Vol := Tab.look (fun _ => Vol.init) w.vol v

def setVol (w : Wafer) (v : Nat) (x : Vol) : Wafer := { w with vol := Tab.put (fun _ => Vol.init) w.vol v x }

/-- A field of the profile a volume was made from: word i (Table VOL-2). -/
def volField (w : Wafer) (v i lo n : Nat) : Nat := getF ((w.volInfo v).prof.getD i 0) lo n

def spanFirst (w : Wafer) (v : Nat) : Nat := if v = 0 then 0 else w.volField v 1 0 7
def spanCount (w : Wafer) (v : Nat) : Nat := if v = 0 then w.col.sites.length else w.volField v 1 8 8
def inSpan (w : Wafer) (v s : Nat) : Bool := w.spanFirst v ≤ s && s < w.spanFirst v + w.spanCount v

def volWord (w : Wafer) (v i : Nat) : Nat := (w.reg (volwinKey v i)).toNat
def sramWin (w : Wafer) (v : Nat) : Nat × Nat :=
  if v = 0 then (0x0F000000, 0x01000000) else (w.volWord v 0, w.volWord v 1 % 2 ^ 32)
def hbmWin (w : Wafer) (v : Nat) : Nat × Nat :=
  if v = 0 then (0x8800000000, 0x800000000) else (w.volWord v 2, w.volWord v 3)
def bankWin (w : Wafer) (v : Nat) : Nat × Nat := if v = 0 then (0, 0) else (w.volWord v 1 / 2 ^ 32 % 128, w.volWord v 1 / 2 ^ 40 % 128)

/-- [a, a + n) lies in the window (first, length). -/
def within (win : Nat × Nat) (a n : Nat) : Bool := win.1 ≤ a && a + n ≤ win.1 + win.2

/-- A region-0x4 access of a volume inside one of its host windows (R284, R286). -/
def hostAllowed (w : Wafer) (v port bus n : Nat) (write : Bool) : Bool :=
  (List.range 4).any fun i =>
    let b := hostwinBlk v i
    w.flag b F.VOL_HOSTWIN_BASE.VALID && w.get b F.VOL_HOSTWIN_BASE.PORT == port &&
    within (w.get b F.VOL_HOSTWIN_BASE.BASE * 4096, w.get b F.VOL_HOSTWIN_LEN.LENGTH) bus n &&
    (!write || w.flag b F.VOL_HOSTWIN_LEN.WRITE)

/-- Memory that volume v may reach (R284); volume 0 may reach all but what is Unhal's alone. -/
def ramAllowed (w : Wafer) (v a n : Nat) (write : Bool) : Bool :=
  v = 0 ||
  match adRegion a with
  | 0 =>
    let o := adOff a
    let o' := if 0x000800000000 ≤ o then o - 0x000800000000 else o
    w.inSpan v (adDie a) && o' < 0x10000000 && within (w.sramWin v) o' n
  | 2 => match hbmKey (adDie a) (adOff a) with | some k => within (w.hbmWin v) k (if adDie a = 16 then n else 1) | none => false
  | 4 => w.hostAllowed v (adDie a) (adOff a) n write
  | _ => false

/-! ### Poison and coherent data -/

def lineKey (home line : Nat) : Nat := home * 2 ^ 21 + line
def cacheKey (cache home line : Nat) : Nat := cache * 2 ^ 28 + lineKey home line

def lineAt (w : Wafer) (c h l : Nat) : Option Line :=
  Tab.look (fun _ => none) (w.coh.lines.map (fun e => (e.1, some e.2))) (cacheKey c h l)

def setLine (w : Wafer) (c h l : Nat) (x : Line) : Wafer :=
  { w with coh := { w.coh with lines := Tab.ins (Tab.drop w.coh.lines (cacheKey c h l)) (cacheKey c h l) x } }

def dropLine (w : Wafer) (c h l : Nat) : Wafer :=
  { w with coh := { w.coh with lines := Tab.drop w.coh.lines (cacheKey c h l) } }

def wbackAt (w : Wafer) (c h l : Nat) : Option Line :=
  Tab.look (fun _ => none) (w.coh.wback.map (fun e => (e.1, some e.2))) (cacheKey c h l)

def setWback (w : Wafer) (c h l : Nat) (x : Option Line) : Wafer :=
  { w with coh := { w.coh with wback :=
      match x with
      | some v => Tab.ins (Tab.drop w.coh.wback (cacheKey c h l)) (cacheKey c h l) v
      | none => Tab.drop w.coh.wback (cacheKey c h l) } }

def dirAt (w : Wafer) (h l : Nat) : Option Dir :=
  Tab.look (fun _ => none) (w.coh.dir.map (fun e => (e.1, some e.2))) (lineKey h l)

def setDir (w : Wafer) (h l : Nat) (x : Option Dir) : Wafer :=
  { w with coh := { w.coh with dir :=
      match x with
      | some v => Tab.ins (Tab.drop w.coh.dir (lineKey h l)) (lineKey h l) v
      | none => Tab.drop w.coh.dir (lineKey h l) } }

def txAt (w : Wafer) (h l : Nat) : Option Tx :=
  Tab.look (fun _ => none) (w.coh.tx.map (fun e => (e.1, some e.2))) (lineKey h l)

def setTx (w : Wafer) (h l : Nat) (x : Option Tx) : Wafer :=
  { w with coh := { w.coh with tx :=
      match x with
      | some v => Tab.ins (Tab.drop w.coh.tx (lineKey h l)) (lineKey h l) v
      | none => Tab.drop w.coh.tx (lineKey h l) } }

/-- The SRAM line of a memory key, if it lies in a site's SRAM. -/
def sramLine (k : Nat) : Option (Nat × Nat) :=
  if k < 128 * 2 ^ 48 && adOff k < 2 ^ 28 then some (k / 2 ^ 48, adOff k / 128) else none

/-- Bytes of a line in its slice. -/
def sliceLine (w : Wafer) (h l : Nat) : List Byte := w.bytes (dieAddr h (l * 128)) 128

/-- The newest data of a line that some cache holds dirty, or that is on its way home, if any (R226). -/
def dirtyData (w : Wafer) (h l : Nat) : Option (List Byte) :=
  let cached := w.coh.lines.find? (fun e => e.1 % 2 ^ 28 == lineKey h l && e.2.dirty)
  let owner := match w.dirAt h l with | some (.excl o _) => some o | _ => none
  let back := w.coh.wback.find? (fun e => e.1 % 2 ^ 28 == lineKey h l && e.2.dirty && some (e.1 / 2 ^ 28) == owner)
  let sent := w.net.findSome? (fun m => match m with
    | .coh .fwdAck _ h' l' (some d) => if h' = h && l' = l then some d else none
    | _ => none)
  match cached, back, sent with
  | some e, _, _ => some e.2.data
  | none, some e, _ => some e.2.data
  | none, none, s => s

/-- One byte of memory as every observer sees it (R219). -/
def coherent (w : Wafer) (k : Nat) : Byte :=
  match sramLine k with
  | some (h, l) => match w.dirtyData h l with | some d => d.getD (k % 128) 0 | none => w.byte k
  | none => w.byte k

/-- The lines that [k, k + n) touches: first and count. -/
def linesOf (k n : Nat) : List Nat :=
  if n = 0 then [] else (List.range ((k + n - 1) / 128 - k / 128 + 1)).map (fun i => k / 128 + i)

/-- Replace bytes of a line that a message carries home or grants. -/
def patchMsg (h l i : Nat) (v : List Byte) : Msg → Msg
  | .coh op c h' l' (some d) => if h' = h && l' = l then .coh op c h' l' (some (fit 128 (patch d i v))) else .coh op c h' l' (some d)
  | m => m

/-- A write performed at the home of an SRAM line: dirty data comes home first, every copy is invalidated (Table MEM-5),
and grants and returns in flight carry the new bytes. -/
def homeWrite (w : Wafer) (k : Nat) (v : List Byte) : Wafer :=
  match sramLine k with
  | none => w.store k v
  | some (h, l) =>
    if w.coh.lines.isEmpty && w.coh.dir.isEmpty && w.coh.wback.isEmpty && w.coh.tx.isEmpty then w.store k v
    else
      let w := match w.dirtyData h l with | some d => w.store (dieAddr h (l * 128)) d | none => w
      let w := { w with coh := { w.coh with lines := w.coh.lines.filter (fun e => e.1 % 2 ^ 28 != lineKey h l) },
                        net := w.net.map (patchMsg h l (k % 128) v) }
      let w := if (w.txAt h l).isNone then w.setDir h l none else w
      w.store k v

/-- Store bytes from key k up, line by line. -/
def putBytes : Nat → Wafer → Nat → List Byte → Wafer
  | 0, w, _, _ => w
  | f + 1, w, k, v =>
    if v.isEmpty then w
    else
      let n := 128 - k % 128
      putBytes f (w.homeWrite k (v.take n)) (k + n) (v.drop n)

/-- The valid twin ranges of a site: SRAM offset, length, HBM offset of the copy (R515). -/
def twins (w : Wafer) (s : Nat) : List (Nat × Nat × Nat) :=
  let b := fltBlk s
  ((List.range 64).foldl (fun (acc : List (Nat × Nat × Nat) × Nat) n =>
    let r := w.reg (b + 0x20 + 0x10 * n)
    if getF r 63 1 = 1 then (acc.1 ++ [(getF r 0 32, getF r 32 31, 0x8800000000 + s * 0x4000000 + acc.2)], acc.2 + getF r 32 31)
    else acc) ([], 0)).1

/-- Copy the bytes of a write that fall into twin ranges to the twin store (R515). -/
def twinWrite (w : Wafer) (k : Nat) (v : List Byte) : Wafer :=
  match sramLine k with
  | none => w
  | some (s, _) =>
    if (w.regs.any (fun e => e.1 / 2 ^ 48 == s && adOff e.1 / 0x10000 == 0x00F00014)) then
      (w.twins s).foldl (fun w t =>
        let o := adOff k
        let lo := max o t.1
        let hi := min (o + v.length) (t.1 + t.2.1)
        if lo < hi then w.store (hbmAddr (t.2.2 + (lo - t.1))) ((v.drop (lo - o)).take (hi - lo)) else w) w
    else w

/-- Memory keys of [a, a + n): runs of one canonical range each, at most a 4 KiB granule long. -/
def runs (w : Wafer) : Nat → Nat → Nat → List (Nat × Nat)
  | 0, _, _ => []
  | f + 1, a, n =>
    if n = 0 then []
    else
      let m := min n (4096 - a % 4096)
      let k := match w.locate a with
        | .ram k _ => k
        | .service k => k
        | .host k => k
        | .far k => k
        | _ => 2 ^ 66 + a
      (k, m) :: runs w f (a + m) (n - m)

def runsOf (w : Wafer) (a n : Nat) : List (Nat × Nat) := w.runs (n / 4096 + 2) a n

/-- Read [a, a + n) of memory, coherently. -/
def load (w : Wafer) (a n : Nat) : List Byte :=
  (w.runsOf a n).flatMap (fun r =>
    if w.coh.lines.isEmpty && w.coh.wback.isEmpty && w.net.isEmpty then w.bytes r.1 r.2
    else (List.range r.2).map (fun i => w.coherent (r.1 + i)))

/-- Write a byte list at address a: coherent, with twin copies. -/
def save (w : Wafer) (a : Nat) (v : List Byte) : Wafer :=
  ((w.runsOf a v.length).foldl (fun (x : Wafer × List Byte) r =>
    let piece := x.2.take r.2
    ((putBytes (r.2 / 128 + 2) x.1 r.1 piece).twinWrite r.1 piece, x.2.drop r.2)) (w, v)).1

/-- An access in region 0x4 at its port (R532, R535): in endpoint role the link is up; in root-port role a bridge window
holds the offset and its sub-link is up. -/
def hostStatus (w : Wafer) (k : Nat) : Nat :=
  let port := k / 2 ^ 48 % 256
  let b := pcieBlk (port / 2) (port % 2)
  if getF (Tab.look regReset w.prt.cfg b) 0 1 = 0 then
    (if w.flag b F.PRT_PCIE_STAT.LINK_UP then stOk else stHost)
  else
    match w.prt.bridge.find? (fun x => x.1 == port && decide (x.2.2.1 ≤ adOff k) && decide (adOff k < x.2.2.1 + x.2.2.2)) with
    | some x => if Nat.testBit (w.get b F.PRT_PCIE_STAT.UP) x.2.1 then stOk else stHost
    | none => stAddr

/-- The status an access to address x of memory meets before alignment (R12, R207–R212, R284, R217): decode first, then
authority (DESIGN CHOICE of order, log entry 33). -/
def spot (w : Wafer) (src : Src) (write : Bool) (x : Nat) : Nat :=
  match w.locate x with
  | .bad st => st
  | .ram _ _ | .far _ =>
    match src with
    | .volume v => if w.ramAllowed v x 1 write then stOk else stProt
    | _ => stOk
  | .host k =>
    match src with
    | .volume v => if w.ramAllowed v x 1 write then w.hostStatus k else stProt
    | _ => w.hostStatus k
  | .service _ => match src with | .volume _ => stProt | _ => stOk
  | _ => stProt

/-- Addresses that decide an access to [a, a + n): its first byte, each 4 KiB boundary in it, its last byte. -/
def points (a n : Nat) : List Nat :=
  a :: ((List.range (n / 4096 + 1)).map (fun i => (a / 4096 + i + 1) * 4096)).filter (fun x => x < a + n) ++
    (if n ≤ 1 then [] else [a + n - 1])

/-- The status of an access to [a, a + n) of memory before poison. -/
def ramStatus (w : Wafer) (src : Src) (a n : Nat) (write : Bool) : Nat :=
  ((points a n).map (w.spot src write)).find? (· ≠ stOk) |>.getD stOk

/-- Any word of [a, a + n) is poisoned (Table MEM-7). -/
def rangePoisoned (w : Wafer) (a n : Nat) : Bool := (w.runsOf a n).any (fun r => w.poisoned r.1 r.2)

/-- Status of a read of [a, a + n) by an engine or a call (R217). -/
def readStatus (w : Wafer) (src : Src) (a n : Nat) : Nat :=
  match w.ramStatus src a n false with
  | 0 => if w.rangePoisoned a n then stData else stOk
  | st => st

def writeStatus (w : Wafer) (src : Src) (a n : Nat) : Nat := w.ramStatus src a n true

/-- The address at which an access to [a, a + n) fails: the first failing point, or the first poisoned word. -/
def faultAddr (w : Wafer) (src : Src) (a n : Nat) (write : Bool) : Nat :=
  match (points a n).find? (fun x => w.spot src write x ≠ stOk) with
  | some x => x
  | none =>
    ((w.runsOf a n).foldl (fun (b : Option Nat × Nat) r =>
      let hit := (w.poison.filter (fun p => decide (p < r.1 + r.2) && decide (r.1 < p + 8))).foldl
        (fun (m : Option Nat) p => some (min p (m.getD p))) none
      (b.1.or (hit.map (fun p => b.2 + (p - r.1))), b.2 + r.2)) (none, a)).1.getD a

/-- Record a fault in MEM_FAULT of the requester's site if VALID is clear (R229, R234); a DATA_ERROR counts (Table
MEM-6). -/
def memFault (w : Wafer) (site unit vol st a : Nat) : Wafer :=
  let b := memBlk site
  let w := if st = stData then w.bump b F.MEM_ECC.UNCORRECTED else w
  if 128 ≤ site || w.flag b F.MEM_FAULT.VALID then w
  else (w.setReg (b + 0x38) (BitVec.ofNat 64 (1 + st * 2 + unit % 256 * 2 ^ 5 + vol % 64 * 2 ^ 13))).setReg (b + 0x40)
    (BitVec.ofNat 64 a)

/-! ### Atomic operations (R215) -/

/-- The value an atomic stores, from old value, operands, width in bits. -/
def atomVal (op : Nat) (old a b : Nat) (bits : Nat) : Nat :=
  let m := 2 ^ bits
  let lt (x y : Nat) : Bool := signed bits x < signed bits y
  (match op with
   | 0 => a
   | 1 => if old % m = b % m then a else old
   | 2 => old + a
   | 3 => old &&& a
   | 4 => old ||| a
   | 5 => old ^^^ a
   | 6 => if lt a old then a else old
   | 7 => if lt old a then a else old
   | 8 => if a % m < old % m then a else old
   | _ => if old % m < a % m then a else old) % m

/-! ### The home directory (R222–R227) -/

/-- Dirty data of a line comes home, and to the twin store of its bytes (R515). -/
def lineHome (w : Wafer) (h l : Nat) (d : List Byte) : Wafer :=
  (w.store (dieAddr h (l * 128)) d).twinWrite (dieAddr h (l * 128)) d

def sendCoh (w : Wafer) (op : CohOp) (c h l : Nat) (d : Option (List Byte)) : Wafer := w.send (.coh op c h l d)

/-- Sites a forward goes to for an entry, but for the requester; a coarse vector marks whole groups (R226). -/
def holders (d : Option Dir) (but : Nat) : List Nat :=
  match d with
  | none => []
  | some (.excl o _) => if o = but then [] else [o]
  | some (.shared s _) => s.filter (· ≠ but)
  | some (.coarse g _) => (List.range 128).filter (fun s => g.getLsbD (s / 4) && s != but)

def isExcl : Option Dir → Bool
  | some (.excl _ _) => true
  | _ => false

def dirOrder : Dir → Nat
  | .excl _ o => o
  | .shared _ o => o
  | .coarse _ o => o

/-- Add a sharer (R223): a fifth exact one makes the entry coarse. -/
def addSharer (w : Wafer) (h : Nat) (d : Option Dir) (c : Nat) : Dir × Wafer :=
  let fresh : Nat := w.coh.order
  let bit (s : Nat) : BitVec 32 := BitVec.ofNat 32 (2 ^ (s / 4))
  match d with
  | none => (.shared [c] fresh, { w with coh := { w.coh with order := fresh + 1 } })
  | some (.excl o n) => (.shared (if o = c then [c] else [o, c]) n, w)
  | some (.shared s n) =>
    if s.contains c then (.shared s n, w)
    else if s.length < 4 then (.shared (s ++ [c]) n, w)
    else (.coarse ((c :: s).foldl (fun g x => g ||| bit x) 0) n, w.bump (memBlk h) F.MEM_DIR.COARSE)
  | some (.coarse g n) => (.coarse (g ||| bit c) n, w)

/-- The response of a memory request (R217). -/
def respondTo (w : Wafer) (m : MemOp) (st : Nat) (d : List Byte) : Wafer := w.send (.rsp m.kind m.who m.tag st d)

/-- Perform the part of a memory request that lies in line l of home h (Table MEM-5), and what is left of it. -/
def performMem (w : Wafer) (h l : Nat) (m : MemOp) : Wafer × MemOp :=
  let n := min m.left (128 - m.addr % 128)
  let k := dieAddr h (l * 128) + m.addr % 128
  match m.kind with
  | .read => (w, { m with addr := m.addr + n, left := m.left - n, got := m.got ++ w.bytes k n })
  | .write =>
    let v := m.data.take n
    ((w.store k v).twinWrite k v, { m with addr := m.addr + n, left := m.left - n, data := m.data.drop n })
  | .atomic =>
    let old := w.bytes k n
    let v := toLE n (atomVal m.op (fromLE old) m.a.toNat m.b.toNat (8 * n))
    ((w.store k v).twinWrite k v, { m with addr := m.addr + n, left := m.left - n, got := old })

/-- Directory state after a memory request (Table MEM-5). -/
def memDir (w : Wafer) (h l : Nat) (m : MemOp) : Wafer :=
  match m.kind with
  | .read => match w.dirAt h l with | some (.excl o n) => w.setDir h l (some (.shared [o] n)) | _ => w
  | _ => w.setDir h l none

/-- Evict the least recently allocated entry of a full 16-way directory set (R223): 16,384 sets by the low bits of the
line number (DESIGN CHOICE of the index, log entry 34). The line to evict, if the set is full. -/
def dirVictim (w : Wafer) (h l : Nat) : Option Nat :=
  let set := w.coh.dir.filter (fun e => e.1 / 2 ^ 21 == h && e.1 % 16384 == l % 16384 && e.1 != lineKey h l)
  if set.length < 16 || (w.dirAt h l).isSome then none
  else (set.foldl (fun (b : Option (Nat × Dir)) e =>
    match b with | some x => if dirOrder e.2 < dirOrder x.2 then some e else b | none => some e) none).map (fun e => e.1 % 2 ^ 21)

/-- What the home collects for a request, and from whom (Table MEM-5). -/
def collects (w : Wafer) (h l : Nat) (r : HomeReq) : CohOp × List Nat :=
  let d := w.dirAt h l
  match r with
  | .getS c => if isExcl d then (.downgrade, holders d c) else (.inv, [])
  | .getE c => if isExcl d then (.recall, holders d c) else (.inv, holders d c)
  | .mem m =>
    if m.kind = .read then (if isExcl d then (.downgrade, holders d 256) else (.inv, []))
    else (if isExcl d then (.recall, holders d 256) else (.inv, holders d 256))
  | .evict => (if isExcl d then .recall else .inv, holders d 256)
  | .gone => (.inv, [])

/-- Serve requests at a home, in order (R225): collect, then act; `fuel` bounds the chain of requests that complete at
once. -/
def serve : Nat → Wafer → Nat → Nat → HomeReq → Wafer
  | 0, w, _, _, _ => w
  | f + 1, w, h, l, r =>
    match w.txAt h l with
    | some t => w.setTx h l (some { t with queue := t.queue ++ [r] })
    | none =>
      let w := match r with
        | .getS _ | .getE _ =>
          match w.dirVictim h l with
          | some v => serve f (w.bump (memBlk h) F.MEM_DIR.EVICTIONS) h v .evict
          | none => w
        | _ => w
      let co := w.collects h l r
      let up := co.2.filter w.active
      let t : Tx := { req := r, acks := up, granted := false, queue := [] }
      let w := (w.setTx h l (some t))
      if up.isEmpty then act f w h l t else up.foldl (fun w c => w.sendCoh co.1 c h l none) w
where
  /-- Every FWD_ACK has come: grant, perform or drop (Table MEM-5). -/
  act : Nat → Wafer → Nat → Nat → Tx → Wafer
    | 0, w, _, _, _ => w
    | f + 1, w, h, l, t =>
      match t.req with
      | .getS c =>
        let x := w.addSharer h (w.dirAt h l) c
        ((x.2.setDir h l (some x.1)).setTx h l (some { t with acks := [], granted := true })).sendCoh .dataS c h l
          (some (w.sliceLine h l))
      | .getE c =>
        let n := match w.dirAt h l with | some d => dirOrder d | none => w.coh.order
        let w := { w with coh := { w.coh with order := max w.coh.order (n + 1) } }
        ((w.setDir h l (some (.excl c n))).setTx h l (some { t with acks := [], granted := true })).sendCoh .dataE c h l
          (some (w.sliceLine h l))
      | .mem m =>
        let k := dieAddr h (l * 128) + m.addr % 128
        if m.kind ≠ .write && w.poisoned k (min m.left (128 - m.addr % 128)) then
          next f ((w.memDir h l m).respondTo m stData []) h l t
        else
          let p := (w.memDir h l m).performMem h l m
          let w := next f p.1 h l t
          if p.2.left = 0 then w.respondTo p.2 stOk p.2.got else serve f w h (l + 1) (.mem p.2)
      | .evict => next f (w.setDir h l none) h l t
      | .gone =>
        match w.dirAt h l with
        | some (.excl o n) => next f (w.setDir h l (some (.shared [o] n))) h l t
        | _ => next f w h l t
  /-- Close a transaction and take the next request that waits. -/
  next : Nat → Wafer → Nat → Nat → Tx → Wafer
    | 0, w, h, l, _ => w.setTx h l none
    | f + 1, w, h, l, t =>
      match t.queue with
      | [] => w.setTx h l none
      | r :: q =>
        let w := serve f (w.setTx h l none) h l r
        match w.txAt h l with
        | some t' => w.setTx h l (some { t' with queue := t'.queue ++ q })
        | none => q.foldl (fun w x => serve f w h l x) w

/-- Fuel for a chain of requests on a home. -/
def serveFuel : Nat := 24

/-- A coherence message in flight from cache c to home h, or back, on a line. -/
def isCoh (op : CohOp) (c h l : Nat) : Msg → Bool
  | .coh op' c' h' l' _ => op' == op && c' == c && h' == h && l' == l
  | _ => false

/-- The data of the first such message. -/
def cohData (w : Wafer) (op : CohOp) (c h l : Nat) : Option (Option (List Byte)) :=
  match w.incoming (isCoh op c h l) with
  | some (.coh _ _ _ _ d) => some d
  | _ => none

/-- Set of a line in its cache: offset[19:7] XOR (die << 5), 13 bits (R222). -/
def cacheSet (h l : Nat) : Nat := (l % 8192) ^^^ (h * 32 % 8192)

/-- Evict one line of a cache (R224, R227): PUT_S, or PUT_E with the line kept in the writeback buffer. -/
def evictLine (w : Wafer) (c h l : Nat) : Wafer :=
  match w.lineAt c h l with
  | none => w
  | some x =>
    let w := w.dropLine c h l
    if x.excl then (w.setWback c h l (some x)).sendCoh .putE c h l (if x.dirty then some x.data else none)
    else w.sendCoh .putS c h l none

/-- Room in the set before a line is installed: pseudo-LRU names a victim of the 16 ways, whose choice the spec leaves
open: a free value. -/
def makeRoom (w : Wafer) (c h l : Nat) : Wafer :=
  let set := w.coh.lines.filter (fun e => e.1 / 2 ^ 28 == c && cacheSet (e.1 / 2 ^ 21 % 128) (e.1 % 2 ^ 21) == cacheSet h l &&
    e.1 != cacheKey c h l)
  if set.length < 16 then w
  else
    let x := w.fresh
    match set[x.1.toNat % 16]? with
    | some e => x.2.evictLine c (e.1 / 2 ^ 21 % 128) (e.1 % 2 ^ 21)
    | none => x.2

/-- Install a grant and answer COMPLETE (R224, R227). -/
def install (w : Wafer) (c h l : Nat) (excl : Bool) (d : List Byte) : Wafer :=
  ((w.makeRoom c h l).setLine c h l { excl := excl, dirty := false, data := d }).sendCoh .complete c h l none

/-- Answer a forward at a cache (R227): data if dirty, from the line or its writeback buffer; then drop or downgrade. -/
def answerFwd (w : Wafer) (c h l : Nat) (keep : Bool) : Wafer :=
  match w.lineAt c h l, w.wbackAt c h l with
  | some x, _ =>
    let w := if keep then w.setLine c h l { x with excl := false, dirty := false } else w.dropLine c h l
    w.sendCoh .fwdAck c h l (if x.dirty then some x.data else none)
  | none, some x => w.sendCoh .fwdAck c h l (if x.dirty then some x.data else none)
  | none, none => w.sendCoh .fwdAck c h l none

/-- Start a flush of a site's cache (R230): every line is put back. -/
def startFlush (w : Wafer) (s : Nat) : Wafer :=
  if w.flag (memBlk s) F.MEM_STAT.FLUSH_BUSY then w
  else
    let mine := w.coh.lines.filter (fun e => e.1 / 2 ^ 28 == s)
    let w := mine.foldl (fun w e => w.evictLine s (e.1 / 2 ^ 21 % 128) (e.1 % 2 ^ 21)) w
    w.set (memBlk s) F.MEM_STAT.FLUSH_BUSY 1

/-- Counters of Table MEM-6 to 0. -/
def memClear (w : Wafer) (s : Nat) : Wafer :=
  (((w.setReg (memBlk s + 0x18) 0).setReg (memBlk s + 0x20) 0).setReg (memBlk s + 0x28) 0).setReg (memBlk s + 0x30) 0

/-- A coherence message that waits at its receiver: take it and act. -/
def onCoh (w : Wafer) (op : CohOp) (c h l : Nat) (f : Wafer → Option (List Byte) → Wafer) : Wafer :=
  match w.cohData op c h l with
  | some d => f (w.take (isCoh op c h l)) d
  | none => w

end Wafer

/-- A coherence command: the message it names arrives. -/
def cohStep (op : CohOp) (c h : Fin 128) (l : BitVec 21) (s : State) (f : Wafer → Option (List Byte) → Wafer) :
    Host.Outcome State Fault Refusal :=
  .next (s.onWafer fun w => w.onCoh op c h l.toNat f)

/-! ### Meanings -/

/-- GET_S (R225, R226). -/
def execGetS (cache home : Fin 128) (line : BitVec 21) (s : State) : Host.Outcome State Fault Refusal :=
  cohStep .getS cache home line s fun w _ => Wafer.serve Wafer.serveFuel w home line.toNat (.getS cache)

/-- GET_E (R225, R226). -/
def execGetE (cache home : Fin 128) (line : BitVec 21) (s : State) : Host.Outcome State Fault Refusal :=
  cohStep .getE cache home line s fun w _ => Wafer.serve Wafer.serveFuel w home line.toNat (.getE cache)

/-- PUT_S (Table MEM-5): the exact number goes; no change under a coarse vector. -/
def execPutS (cache home : Fin 128) (line : BitVec 21) (s : State) : Host.Outcome State Fault Refusal :=
  cohStep .putS cache home line s fun w _ =>
    match w.dirAt home line.toNat with
    | some (.shared l n) =>
      let r := l.filter (· ≠ cache.val)
      w.setDir home line.toNat (if r.isEmpty then none else some (.shared r n))
    | _ => w

/-- PUT_E (Table MEM-5): the owner's dirty data is written; every PUT_E gets a PUT_ACK. -/
def execPutE (cache home : Fin 128) (line : BitVec 21) (s : State) : Host.Outcome State Fault Refusal :=
  cohStep .putE cache home line s fun w d =>
    let w := match w.dirAt home line.toNat with
      | some (.excl o _) =>
        if o = cache.val then
          let w := match d with | some x => w.lineHome home line.toNat x | none => w
          if (w.txAt home line.toNat).isNone then w.setDir home line.toNat none else w
        else w
      | _ => w
    w.sendCoh .putAck cache home line.toNat none

/-- FWD_ACK (R225, R226): dirty data is written; with the last answer the transaction goes on. -/
def execFwdAck (cache home : Fin 128) (line : BitVec 21) (s : State) : Host.Outcome State Fault Refusal :=
  cohStep .fwdAck cache home line s fun w d =>
    let w := match d with | some x => w.lineHome home line.toNat x | none => w
    match w.txAt home line.toNat with
    | some t =>
      let t := { t with acks := t.acks.filter (· ≠ cache.val) }
      let w := w.setTx home line.toNat (some t)
      if t.acks.isEmpty && !t.granted then Wafer.serve.act Wafer.serveFuel w home line.toNat t else w
    | none => w

/-- COMPLETE (R225): the transaction closes and the next one begins. -/
def execComplete (cache home : Fin 128) (line : BitVec 21) (s : State) : Host.Outcome State Fault Refusal :=
  cohStep .complete cache home line s fun w _ =>
    match w.txAt home line.toNat with
    | some t => if t.granted then Wafer.serve.next Wafer.serveFuel w home line.toNat t else w
    | none => w

/-- DATA_S (R224, R227). -/
def execDataS (cache home : Fin 128) (line : BitVec 21) (s : State) : Host.Outcome State Fault Refusal :=
  cohStep .dataS cache home line s fun w d => w.install cache home line.toNat false (d.getD [])

/-- DATA_E (R224, R227). -/
def execDataE (cache home : Fin 128) (line : BitVec 21) (s : State) : Host.Outcome State Fault Refusal :=
  cohStep .dataE cache home line s fun w d => w.install cache home line.toNat true (d.getD [])

/-- INV (R227). -/
def execInv (cache home : Fin 128) (line : BitVec 21) (s : State) : Host.Outcome State Fault Refusal :=
  cohStep .inv cache home line s fun w _ => w.answerFwd cache home line.toNat false

/-- DOWNGRADE (R227). -/
def execDowngrade (cache home : Fin 128) (line : BitVec 21) (s : State) : Host.Outcome State Fault Refusal :=
  cohStep .downgrade cache home line s fun w _ => w.answerFwd cache home line.toNat true

/-- RECALL (R227). -/
def execRecall (cache home : Fin 128) (line : BitVec 21) (s : State) : Host.Outcome State Fault Refusal :=
  cohStep .recall cache home line s fun w _ => w.answerFwd cache home line.toNat false

/-- PUT_ACK (R227): the writeback buffer lets the line go. -/
def execPutAck (cache home : Fin 128) (line : BitVec 21) (s : State) : Host.Outcome State Fault Refusal :=
  cohStep .putAck cache home line s fun w _ => w.setWback cache home line.toNat none

/-- FLUSH (R229, R230). -/
def execFlush (src : Src) (site : Fin 128) (s : State) : Host.Outcome State Fault Refusal :=
  .next (s.onWafer fun w => if configSrc src && w.active site then w.startFlush site else w)

/-- RLC_DISABLE (R229). -/
def execRlcDisable (src : Src) (site : Fin 128) (s : State) : Host.Outcome State Fault Refusal :=
  .next (s.onWafer fun w =>
    if configSrc src && w.active site then (w.set (memBlk site) F.MEM_CFG.RLC_EN 0).startFlush site else w)

/-- MEM_CLEAR (R229). -/
def execMemClear (src : Src) (site : Fin 128) (s : State) : Host.Outcome State Fault Refusal :=
  .next (s.onWafer fun w => if configSrc src && w.active site then w.memClear site else w)

end Sys2Proof.Machine
end

