-- ==== Sys2Proof/Machine/Queue.lean ====
section
/-! DEFINITION. Rings, doorbells, sync objects, queue operations and mailboxes (spec file 07: R235–R281), and the MSI-X
raise of R534. Commands and completion records are in Command. -/

namespace Sys2Proof.Machine

/-- QRESULT (R262). -/
abbrev qDone : Nat := 0
abbrev qFull : Nat := 1
abbrev qEmpty : Nat := 2
abbrev qPoisoned : Nat := 3
abbrev qTimeout : Nat := 4
abbrev qOverflow : Nat := 5
abbrev qDisabled : Nat := 6
abbrev qWrongKind : Nat := 7

/-- Poison (R264). -/
def poisonVal : Word := BitVec.allOnes 64

/-- The authority of volume v as a source. -/
def volSrc (v : Nat) : Src := .volume (Fin.ofNat 64 v)

namespace Wafer

/-! ### MSI-X (R528, R534) -/

/-- PRT_PCIE_CFG in force of port p of edge die e (R527). -/
def pcieCfg (w : Wafer) (e p : Nat) (f : Fld) : Nat := getF (Tab.look regReset w.prt.cfg (pcieBlk e p)) f.lo f.w

/-- The endpoint port that offers a VF (R528). -/
def vfPort (w : Wafer) (vf : Nat) : Option (Nat × Nat) :=
  ((List.range 32).map (fun q => (q / 2, q % 2))).find? fun q =>
    w.pcieCfg q.1 q.2 F.PRT_PCIE_CFG.ROLE == 0 &&
    w.pcieCfg q.1 q.2 F.PRT_PCIE_CFG.VF_FIRST ≤ vf &&
    vf < w.pcieCfg q.1 q.2 F.PRT_PCIE_CFG.VF_FIRST + w.pcieCfg q.1 q.2 F.PRT_PCIE_CFG.VF_COUNT

def msixAt (w : Wafer) (vf vec : Nat) : Msix := Tab.look (fun _ => Msix.init) w.prt.msix (vf * 2048 + vec)

def setMsix (w : Wafer) (vf vec : Nat) (m : Msix) : Wafer :=
  { w with prt := { w.prt with msix := Tab.put (fun _ => Msix.init) w.prt.msix (vf * 2048 + vec) m } }

/-- Raise a vector of a volume's function (R534): a masked vector becomes pending; the message leaves by the port that
offers the VF. -/
def raiseMsix (w : Wafer) (v vec : Nat) : Wafer :=
  match (w.volInfo v).vf with
  | none => w
  | some vf =>
    if (w.vfPort vf).isNone then w
    else if (w.msixAt vf vec).mask then w.setMsix vf vec { w.msixAt vf vec with pend := true }
    else { w with prt := { w.prt with raised := w.prt.raised ++ [(vf, vec)] } }

/-- Progress of a volume (R521). -/
def progressed (w : Wafer) (v : Nat) : Wafer :=
  if v = 0 then w else w.setVol v { w.volInfo v with progress := w.now }

/-! ### Sync objects (R264–R269) -/

def syncVal (w : Wafer) (site obj : Nat) : Word := w.reg (syncKey site obj)
def syncLive (w : Wafer) (site obj : Nat) : Bool := w.flag (syncCtlBlk site obj) F.QUE_SYNC_CTL.ALLOCATED
def syncVol (w : Wafer) (site obj : Nat) : Nat := w.get (syncCtlBlk site obj) F.QUE_SYNC_CTL.VOLUME

/-- After a change of a value: every wait it satisfies or poisons wakes, in order of registration (R266). -/
def wakeWaits (w : Wafer) (site obj : Nat) : Wafer :=
  let v := w.syncVal site obj
  let ends (x : Wait) : Bool := x.site == site && x.obj == obj && (v == poisonVal || decide (x.thr ≤ v))
  let woken := w.que.waits.filter ends
  { w with que := { w.que with waits := w.que.waits.filter (fun x => !ends x) },
           net := w.net ++ woken.map (fun x => Msg.wake x.who x.tag (if v = poisonVal then qPoisoned else qDone) v) }

/-- Set a sync object's value with its POISONED bit; waits are evaluated. -/
def setSync (w : Wafer) (site obj : Nat) (v : Word) : Wafer :=
  ((w.setReg (syncKey site obj) v).set (syncCtlBlk site obj) F.QUE_SYNC_CTL.POISONED (if v = poisonVal then 1 else 0)).wakeWaits site obj

/-- SYNC_ADD on an allocated object (R265): result and state. -/
def syncAddAt (w : Wafer) (site obj : Nat) (x : Word) : Nat × Wafer :=
  let v := w.syncVal site obj
  if v = poisonVal then (qPoisoned, w)
  else if v.toNat + x.toNat ≥ 2 ^ 64 - 1 then
    (qOverflow, (w.set (syncCtlBlk site obj) F.QUE_SYNC_CTL.OVERFLOWED 1).setSync site obj (poisonVal - 1))
  else (qDone, w.setSync site obj (v + x))

/-- An add by the device to the object of an ID on this wafer (R8); an object not allocated or a site out of service takes
nothing. -/
def syncSignal (w : Wafer) (id : Nat) (x : Word) : Wafer :=
  let site := id / 2048 % 128
  let obj := id % 2048
  if w.active site && w.syncLive site obj then (w.syncAddAt site obj x).2 else w

/-- An access refused under R236. -/
def quePROT (w : Wafer) (site : Nat) : Wafer := w.latch (queBlk site) F.QUE_EVT.PROT

/-- May the source work on an object or ring of volume v (R236, R120)? -/
def queAllowed (src : Src) (v : Nat) : Bool :=
  match src with
  | .volume x => x.val == v
  | _ => true

/-- An 8-byte write of a sync value (R265): the status and the state. -/
def syncWrite (w : Wafer) (src : Src) (site obj : Nat) (v : Word) : Nat × Wafer :=
  let unhal := decide (src = .unhal)
  if !w.syncLive site obj || !queAllowed src (w.syncVol site obj) then (stProt, w.quePROT site)
  else if (v = poisonVal || w.syncVal site obj = poisonVal) && !unhal then (stProt, w.quePROT site)
  else (stOk, w.setSync site obj v)

/-! ### Rings (R238–R243) -/

def rPI (w : Wafer) (b : Nat) : Nat := w.get b F.QUE_RING_IDX.PI
def rCI (w : Wafer) (b : Nat) : Nat := w.get b F.QUE_RING_IDX.CI
def rKind (w : Wafer) (b : Nat) : Nat := w.get b F.QUE_RING_CTRL.KIND
def rVol (w : Wafer) (b : Nat) : Nat := w.get b F.QUE_RING_CTRL.VOLUME
def rSize (w : Wafer) (b : Nat) : Nat := 2 ^ w.get b F.QUE_RING_CTRL.SIZE_LOG2
def rEsize (w : Wafer) (b : Nat) : Nat := 2 ^ w.get b F.QUE_RING_CTRL.ESIZE_LOG2

/-- Entries held: PI − CI modulo 2^32 (R240). -/
def rHeld (w : Wafer) (b : Nat) : Nat := (w.rPI b + 2 ^ 32 - w.rCI b) % 2 ^ 32

/-- Address of the slot of index x (R240). -/
def rSlot (w : Wafer) (b x : Nat) : Nat := (w.reg b).toNat + x % w.rSize b * w.rEsize b

/-- Kind, entry size, place and alignment within Table QUE-4 and R241. -/
def ringFits (w : Wafer) (b : Nat) : Bool :=
  let base := (w.reg b).toNat
  let e := w.get b F.QUE_RING_CTRL.ESIZE_LOG2
  let n := w.get b F.QUE_RING_CTRL.SIZE_LOG2
  let reg := adRegion base
  let ownSram := reg == 0 && adDie base == keyDie b && adWafer base == w.col.wafer &&
    (adOff base < 0x10000000 || (0x800000000 ≤ adOff base && adOff base < 0x810000000))
  4 ≤ n && n ≤ 20 && base % 2 ^ (n + e) == 0 &&
  (match w.rKind b with
   | 0 => e == 6 && (reg == 2 || reg == 4)
   | 1 => e == 5 && (reg == 2 || reg == 4)
   | 2 => 6 ≤ e && e ≤ 16 && (ownSram || reg == 2)
   | _ => 3 ≤ e && e ≤ 8 && (ownSram || reg == 2))

/-- The ring operates (R239, R243). -/
def ringOn (w : Wafer) (b : Nat) : Bool := w.flag b F.QUE_RING_CTRL.ENABLE && w.ringFits b

/-- Write an index to the ring's shadow (R242). -/
def shadow (w : Wafer) (b i : Nat) : Wafer :=
  let a := (w.reg (b + 0x18)).toNat
  if a = 0 || w.writeStatus (volSrc (w.rVol b)) a 8 ≠ stOk then w else w.save a (toLE 8 (i % 2 ^ 32))

/-- CI moves: a stall ends (R261, log entry 41) and the volume progresses. -/
def setCI (w : Wafer) (b i : Nat) : Wafer :=
  ((w.set b F.QUE_RING_IDX.CI i).set b F.QUE_RING_CTRL.STALLED 0).progressed (w.rVol b)

/-- PI moves. -/
def setPI (w : Wafer) (b i : Nat) : Wafer := (w.set b F.QUE_RING_IDX.PI i).progressed (w.rVol b)

/-- Raise the ring's vector and disarm (R257). -/
def ringVector (w : Wafer) (b : Nat) : Wafer :=
  (w.set b F.QUE_RING_CTRL.ARMED 0).raiseMsix (w.rVol b) (w.get b F.QUE_RING_CTRL.MSIX_VECTOR)

/-- The signals of a produced entry (R257). -/
def produced (w : Wafer) (b : Nat) : Wafer :=
  let w := if w.flag b F.QUE_RING_CTRL.NOTIFY_SYNC_EN then w.syncSignal (w.get b F.QUE_RING_NOTIFY.SYNC) 1 else w
  if w.flag b F.QUE_RING_CTRL.MSIX_EN && w.flag b F.QUE_RING_CTRL.ARMED then w.ringVector b else w

/-- The device produces the entry at PI: bytes, PI, shadow, signals (R242, R250, R257, R539). -/
def produce (w : Wafer) (b : Nat) (l : List Byte) : Wafer :=
  let i := w.rPI b
  let w := (w.save (w.rSlot b i) l).setPI b (i + 1)
  (w.shadow b (i + 1)).produced b

/-- A write of QUE_RING_CTRL (R238, R243, R257): enabling sets ARMED. -/
def ringCtrl (w : Wafer) (site r : Nat) (v : Word) : Wafer :=
  let b := ringBlk site r
  let was := w.flag b F.QUE_RING_CTRL.ENABLE
  let w := w.writeKey (b + 8) v
  if w.flag b F.QUE_RING_CTRL.ENABLE && !was then w.set b F.QUE_RING_CTRL.ARMED 1 else w

/-! ### Doorbells (R253–R257) -/

/-- A doorbell that is ignored: stale or rejected (R255). -/
def staleDb (w : Wafer) (b : Nat) (stale : Bool) : Wafer :=
  let q := queBlk (keyDie b)
  if stale then (w.bump b F.QUE_RING_CNT.STALE_DB).latch q F.QUE_EVT.STALE_DB
  else (w.bump b F.QUE_RING_CNT.REJECT_DB).latch q F.QUE_EVT.REJECT_DB

/-- A producer doorbell (R243, R255). -/
def prodDoorbell (w : Wafer) (site r idx : Nat) : Wafer :=
  let b := ringBlk site r
  let d := (idx + 2 ^ 32 - w.rPI b) % 2 ^ 32
  if !w.ringOn b || w.rKind b ≠ 0 then w.staleDb b false
  else if d = 0 then w.progressed (w.rVol b)
  else if d ≤ w.rSize b - w.rHeld b then w.setPI b idx
  else w.staleDb b (decide (2 ^ 31 ≤ d))

/-- A consumer doorbell (R243, R255, R257). -/
def consDoorbell (w : Wafer) (site r idx : Nat) (arm : Bool) : Wafer :=
  let b := ringBlk site r
  let d := (idx + 2 ^ 32 - w.rCI b) % 2 ^ 32
  if !w.ringOn b || !(w.rKind b == 1 || w.rKind b == 2) || !w.flag b F.QUE_RING_CTRL.CONS_DOORBELL then w.staleDb b false
  else if w.rHeld b < d then w.staleDb b (decide (2 ^ 31 ≤ d))
  else
    let w := if d = 0 then w.progressed (w.rVol b) else w.setCI b idx
    if arm then
      let w := w.set b F.QUE_RING_CTRL.ARMED 1
      if w.rHeld b ≠ 0 && w.flag b F.QUE_RING_CTRL.MSIX_EN then w.ringVector b else w
    else w

/-- A doorbell word (Table QUE-10) at a ring. -/
def doorbellWord (w : Wafer) (site r : Nat) (x : Word) : Wafer :=
  if getF x 31 1 = 0 then w.prodDoorbell site r (getF x 32 32)
  else w.consDoorbell site r (getF x 32 32) (getF x 30 1 == 1)

/-- A doorbell on its path (Table QUE-11): dropped at the port for a foreign volume, refused under R236 on the wafer, gone
at a site out of service (R12). -/
def doorbell (w : Wafer) (path : DbPath) (site r : Nat) (f : Wafer → Wafer) : Wafer :=
  let v := w.rVol (ringBlk site r)
  match path with
  | .vf x =>
    if x.val = v then (if w.active site then f w else w)
    else
      match (w.volInfo x).vf.bind w.vfPort with
      | some q => w.bump (pcieBlk q.1 q.2) F.PRT_PCIE_CNT.DB_DROPS
      | none => w
  | .ring src | .site src =>
    if !w.active site then w else if queAllowed src v then f w else w.quePROT site

/-! ### Requests and responses (R216, R262) -/

/-- A request arrives at its target: a request already on its way must be this command, a tag in use by another takes
nothing; a request from a unit the model does not run is issued now. -/
def arrive (w : Wafer) (o : Out) (c : Instr) : Option Wafer :=
  match w.out.find? (fun x => x.who == o.who && x.tag == o.tag) with
  | none => some { w with out := w.out ++ [o] }
  | some x =>
    if x.need = some c then
      some { w with out := w.out.map (fun y => if y = x then { y with need := none } else y) }
    else none

/-- The outstanding entry of a queue request. -/
def queOut (w : Wafer) (who : Requester) (tag : Nat) (src : Src) (die : Nat) (addr : Nat) (wait : Bool) : Out :=
  { who := who, tag := tag, vol := match src with | .volume v => v | _ => 0, kind := none, die := die,
    addr := BitVec.ofNat 64 addr, since := w.now, acquire := false, isReg := false, isWait := wait, cmd := none, need := none }

/-- Send a queue response (R262). -/
def queRsp (w : Wafer) (who : Requester) (tag st res : Nat) (v : Word) (d : List Byte) : Wafer :=
  w.send (.queueRsp who tag st res v d)

/-- QPUSH at its ring (R263). -/
def qpushAt (w : Wafer) (who : Requester) (tag : Nat) (src : Src) (site r : Nat) (e : List Byte) : Wafer :=
  let b := ringBlk site r
  if w.dieStatus site ≠ stOk then w.queRsp who tag (w.dieStatus site) 0 0 []
  else if !queAllowed src (w.rVol b) then (w.quePROT site).queRsp who tag stProt 0 0 []
  else if !w.ringOn b then w.queRsp who tag stOk qDisabled 0 []
  else if w.rKind b ≠ 3 then w.queRsp who tag stOk qWrongKind 0 []
  else if e.length ≠ w.rEsize b then w.queRsp who tag stUnsup 0 0 []
  else if w.rSize b ≤ w.rHeld b then w.queRsp who tag stOk qFull 0 []
  else
    let i := w.rPI b
    ((w.save (w.rSlot b i) e).setPI b (i + 1)).queRsp who tag stOk qDone (BitVec.ofNat 64 i) []

/-- QPOP at its ring (R263). -/
def qpopAt (w : Wafer) (who : Requester) (tag : Nat) (src : Src) (site r size : Nat) : Wafer :=
  let b := ringBlk site r
  if w.dieStatus site ≠ stOk then w.queRsp who tag (w.dieStatus site) 0 0 []
  else if !queAllowed src (w.rVol b) then (w.quePROT site).queRsp who tag stProt 0 0 []
  else if !w.ringOn b then w.queRsp who tag stOk qDisabled 0 []
  else if !(w.rKind b == 3 || ((w.rKind b == 1 || w.rKind b == 2) && !w.flag b F.QUE_RING_CTRL.CONS_DOORBELL)) then
    w.queRsp who tag stOk qWrongKind 0 []
  else if size ≠ w.get b F.QUE_RING_CTRL.ESIZE_LOG2 then w.queRsp who tag stUnsup 0 0 []
  else if w.rHeld b = 0 then w.queRsp who tag stOk qEmpty 0 []
  else
    let i := w.rCI b
    let a := w.rSlot b i
    if w.rangePoisoned a (w.rEsize b) then w.queRsp who tag stData 0 0 []
    else
      let e := w.load a (w.rEsize b)
      (w.setCI b (i + 1)).queRsp who tag stOk qDone (BitVec.ofNat 64 (if w.rEsize b = 8 then fromLE e else i)) e

/-- Remove an outstanding entry. -/
def retire (w : Wafer) (who : Requester) (tag : Nat) : Wafer :=
  { w with out := dropFirst (fun x => x.who == who && x.tag == tag) w.out }

/-! ### Mailboxes (R270–R278) -/

/-- Channels 0–7 of edge dies 0 and 8 belong to the ribbon ports (R270). -/
def mbxRibbon (edge ch : Nat) : Bool := (edge == 0 || edge == 8) && ch < 8

/-- The actor is the client of the channel (R277). -/
def mbxClient (w : Wafer) (a : MbxActor) (edge ch : Nat) : Bool :=
  match a with
  | .ribbon p =>
    if mbxRibbon edge ch then edge == (match p with | .a => 0 | .b => 8) else ch < 16 && decide (w.rib.holder = some p)
  | .unhal => ch < 16 && !mbxRibbon edge ch
  | .volume v =>
    if v.val = 0 then ch < 16 && !mbxRibbon edge ch
    else 16 ≤ ch && w.flag (chanBlk edge ch) F.QUE_MBX_CFG.BOUND && w.get (chanBlk edge ch) F.QUE_MBX_CFG.VOLUME == v.val

/-- The actor is on the sending side of the direction, or on the receiving side. -/
def mbxSends (w : Wafer) (a : MbxActor) (edge ch : Nat) (reply : Bool) : Bool :=
  if reply then decide (a = .unhal) else w.mbxClient a edge ch
def mbxReceives (w : Wafer) (a : MbxActor) (edge ch : Nat) (reply : Bool) : Bool :=
  if reply then w.mbxClient a edge ch else decide (a = .unhal)

/-- Notify the client (R273): sync add, MSI-X vector, or the ribbon's alert `bit`. -/
def mbxNotify (w : Wafer) (edge ch bit : Nat) : Wafer :=
  let b := chanBlk edge ch
  if mbxRibbon edge ch then w.alertOn (if edge = 0 then .a else .b) bit
  else
    let w := if w.flag b F.QUE_MBX_CFG.NOTIFY_SYNC_EN then w.syncSignal (w.get b F.QUE_MBX_CFG.NOTIFY_SYNC) 1 else w
    if w.flag b F.QUE_MBX_CFG.MSIX_EN then
      w.raiseMsix (w.get b F.QUE_MBX_CFG.VOLUME) (w.get b F.QUE_MBX_CFG.MSIX_VECTOR)
    else w

def mbxState (w : Wafer) (edge ch : Nat) (reply : Bool) : Nat := w.get (dirBlk edge ch reply) F.QUE_MBX_STAT.STATE

def mbxOverrun (w : Wafer) (edge ch : Nat) (reply : Bool) : Wafer := w.latch (dirBlk edge ch reply) F.QUE_MBX_STAT.OVERRUN

/-- The channel is in use, and in this form. -/
def mbxForm (w : Wafer) (edge ch : Nat) (long : Bool) : Bool :=
  if mbxRibbon edge ch then !long
  else w.flag (chanBlk edge ch) F.QUE_MBX_CFG.BOUND && (w.flag (chanBlk edge ch) F.QUE_MBX_CFG.FORM == long)

/-- A message is posted: state, count, notification of the receiver (R271, R273). -/
def mbxPosted (w : Wafer) (edge ch : Nat) (reply : Bool) : Wafer :=
  let b := dirBlk edge ch reply
  let w := (w.set b F.QUE_MBX_STAT.STATE 1).count b F.QUE_MBX_STAT.POSTS
  if reply then w.mbxNotify edge ch 4 else w

/-- Unhal posts a reply in an EMPTY direction (R279): the short form carries COMMAND and the code. -/
def postReply (w : Wafer) (r : Reply) : Wafer :=
  let b := dirBlk r.edge r.ch true
  if w.mbxForm r.edge r.ch true then
    let w := (List.range r.words.length).foldl (fun w i => w.setReg (b + 0x80 + 8 * i) (BitVec.ofNat 64 (r.words.getD i 0))) w
    ((w.set b F.QUE_MBX_HDR.WORDS r.words.length).set b F.QUE_MBX_HDR.COMMAND r.cmd).mbxPosted r.edge r.ch true
  else (w.set b F.QUE_MBX_WORD.WORD (r.cmd * 65536 + r.words.headD 0)).mbxPosted r.edge r.ch true

/-- The next reply that waits for a REPLY direction. -/
def nextReply (w : Wafer) (edge ch : Nat) : Wafer :=
  let p (r : Reply) : Bool := r.edge == edge && r.ch == ch
  match w.que.replies.find? p with
  | none => w
  | some r => ({ w with que := { w.que with replies := dropFirst p w.que.replies } }).postReply r

/-- The direction returns to EMPTY: its sender is notified under NOTIFY_EMPTY (R273); a ribbon channel always sets
MBX_OUT. Unhal, the sender of a REPLY, posts the reply that waits. -/
def mbxEmptied (w : Wafer) (edge ch : Nat) (reply : Bool) : Wafer :=
  let b := dirBlk edge ch reply
  let w := w.set b F.QUE_MBX_STAT.STATE 0
  if reply then w.nextReply edge ch
  else if mbxRibbon edge ch || w.flag b F.QUE_MBX_STAT.NOTIFY_EMPTY then w.mbxNotify edge ch 5 else w

/-- A write of WORD by the sender (R272). -/
def mbxPost (w : Wafer) (edge ch : Nat) (reply : Bool) (x : Word) : Wafer :=
  if w.mbxState edge ch reply ≠ 0 || !w.mbxForm edge ch false then w.mbxOverrun edge ch reply
  else (w.set (dirBlk edge ch reply) F.QUE_MBX_WORD.WORD x.toNat).mbxPosted edge ch reply

/-- A write of GO by the sender (R272, R278). -/
def mbxGo (w : Wafer) (edge ch : Nat) (reply : Bool) (words cmd : Nat) : Wafer :=
  if w.mbxState edge ch reply ≠ 0 || !w.mbxForm edge ch true || words = 0 || 16 < words then w.mbxOverrun edge ch reply
  else
    let b := dirBlk edge ch reply
    ((w.set b F.QUE_MBX_HDR.WORDS words).set b F.QUE_MBX_HDR.COMMAND cmd).mbxPosted edge ch reply

/-- The receiver's take (R271, R274). -/
def mbxTake (w : Wafer) (edge ch : Nat) (reply : Bool) : Wafer :=
  if w.mbxState edge ch reply ≠ 1 then w.mbxOverrun edge ch reply
  else if !reply && !mbxRibbon edge ch && w.flag (chanBlk edge ch) F.QUE_MBX_CFG.ACK_MODE then
    w.set (dirBlk edge ch reply) F.QUE_MBX_STAT.STATE 2
  else w.mbxEmptied edge ch reply

/-- The receiver's ACK under RETURN (R274). -/
def mbxAck (w : Wafer) (edge ch : Nat) (reply : Bool) (code : Nat) : Wafer :=
  if w.mbxState edge ch reply ≠ 2 then w.mbxOverrun edge ch reply
  else (w.set (dirBlk edge ch reply) F.QUE_MBX_STAT.RET_CODE code).mbxEmptied edge ch reply

/-- The sender's WITHDRAW (R275). In the wrong state it has no effect and sets OVERRUN (R278). -/
def mbxWithdraw (w : Wafer) (edge ch : Nat) (reply : Bool) : Wafer :=
  if w.mbxState edge ch reply ≠ 1 then w.mbxOverrun edge ch reply
  else (w.latch (dirBlk edge ch reply) F.QUE_MBX_STAT.WITHDRAWN).mbxEmptied edge ch reply

/-- A mailbox operation by an actor (R277): by the right side `f`; by the channel's other side no effect and OVERRUN
(R278); by anyone else PROT_FAULT, which changes nothing; a fenced edge die's channels are gone (Table QUE-16). -/
def mbxOp (w : Wafer) (a : MbxActor) (edge ch : Nat) (reply sender : Bool) (f : Wafer → Wafer) : Wafer :=
  if !w.active (128 + edge) then w
  else if (if sender then w.mbxSends a edge ch reply else w.mbxReceives a edge ch reply) then f w
  else if (if sender then w.mbxReceives a edge ch reply else w.mbxSends a edge ch reply) then w.mbxOverrun edge ch reply
  else w

/-- A ribbon post needs the lease and finds BUSY on a full direction (R115). -/
def ribbonPostStops (w : Wafer) (a : MbxActor) (edge ch : Nat) : Bool :=
  match a with
  | .ribbon p => decide (w.rib.holder ≠ some p) || (mbxRibbon edge ch && w.mbxState edge ch false != 0)
  | _ => false

/-! ### Ring stall (R261) -/

/-- Completion slots free for new reservations (R258). -/
def complFree (w : Wafer) (b : Nat) : Nat := w.rSize b - w.rHeld b - w.get b F.QUE_RING_RESV.RESERVED

/-- Block of the completion ring of a work ring. -/
def complBlk (w : Wafer) (site r : Nat) : Nat := ringBlk site (w.get (ringBlk site r) F.QUE_RING_CTRL.COMPL_RING)

/-- The ring cannot move now (R261): a WORK ring that lacks completion slots, or another ring full while its producer has
an entry waiting. -/
def ringStuck (w : Wafer) (site r : Nat) : Bool :=
  let b := ringBlk site r
  if w.rKind b = 0 then w.rHeld b != 0 && decide (w.complFree (w.complBlk site r) < 2)
  else w.rSize b ≤ w.rHeld b && w.que.fullWait.contains (site * 2048 + r)

end Wafer

/-! ### Meanings -/

/-- PRODUCER_DOORBELL (R243, R254, R255). -/
def execProducerDoorbell (path : DbPath) (site : Fin 128) (ring : Fin 2048) (index : BitVec 32) (s : State) :
    Host.Outcome State Fault Refusal :=
  .next (s.onWafer fun w => w.doorbell path site ring (fun w => w.prodDoorbell site ring index.toNat))

/-- CONSUMER_DOORBELL (R243, R254, R255, R257). -/
def execConsumerDoorbell (path : DbPath) (site : Fin 128) (ring : Fin 2048) (index : BitVec 32) (arm : Bool) (s : State) :
    Host.Outcome State Fault Refusal :=
  .next (s.onWafer fun w => w.doorbell path site ring (fun w => w.consDoorbell site ring index.toNat arm))

/-- RING_CTRL_WRITE (R236, R238, R243, R257). -/
def execRingCtrlWrite (src : Src) (site : Fin 128) (ring : Fin 2048) (value : BitVec 64) (s : State) :
    Host.Outcome State Fault Refusal :=
  .next (s.onWafer fun w =>
    if !w.active site then w else if configSrc src then w.ringCtrl site ring value else w.quePROT site)

/-- RING_STALL (R261): the condition is first noted, then declared once it has held for STALL_MS. -/
def execRingStall (site : Fin 128) (ring : Fin 2048) (s : State) : Host.Outcome State Fault Refusal :=
  .next (s.onWafer fun w =>
    let b := ringBlk site ring
    let k := site.val * 2048 + ring.val
    let t := Tab.look (fun _ => 0) w.que.stuck k
    let note (x : Nat) (w : Wafer) : Wafer := { w with que := { w.que with stuck := Tab.put (fun _ => 0) w.que.stuck k x } }
    if !w.active site || !w.ringOn b || !w.ringStuck site ring then note 0 w
    else if t = 0 then note (w.refcount site + 1) w
    else if w.flag b F.QUE_RING_CTRL.STALLED || since (t - 1) (w.refcount site) < ms (w.get (queBlk site) F.QUE_CFG.STALL_MS) then w
    else
      let q := queBlk site
      let w := if w.flag q F.QUE_EVT.STALL then w else w.set q F.QUE_EVT.STALL_RING ring
      (w.set b F.QUE_RING_CTRL.STALLED 1).latch q F.QUE_EVT.STALL)

/-- SYNC_ADD (R236, R265, R268). -/
def execSyncAdd (who : Requester) (tag : BitVec 12) (src : Src) (site : Fin 128) (obj : Fin 2048) (addend : BitVec 64)
    (s : State) : Host.Outcome State Fault Refusal :=
  .next (s.onWafer fun w =>
    match w.arrive (w.queOut who tag.toNat src site (syncKey site obj) false) (.syncAdd who tag src site obj addend) with
    | none => w
    | some w =>
      if w.dieStatus site ≠ stOk then w.queRsp who tag.toNat (w.dieStatus site) 0 0 []
      else if !w.syncLive site obj || !Wafer.queAllowed src (w.syncVol site obj) then
        (w.quePROT site).queRsp who tag.toNat stProt 0 0 []
      else
        let r := w.syncAddAt site obj addend
        r.2.queRsp who tag.toNat stOk r.1 (r.2.syncVal site obj) [])

/-- SYNC_WAIT (R266, R267): registered and evaluated at once. -/
def execSyncWait (who : Requester) (tag : BitVec 12) (src : Src) (site : Fin 128) (obj : Fin 2048) (threshold : BitVec 64)
    (waitUs : BitVec 32) (s : State) : Host.Outcome State Fault Refusal :=
  .next (s.onWafer fun w =>
    if w.que.waits.any (fun x => x.who == who) then w
    else
      match w.arrive (w.queOut who tag.toNat src site (syncKey site obj) true) (.syncWait who tag src site obj threshold waitUs) with
      | none => w
      | some w =>
        if w.dieStatus site ≠ stOk then w.queRsp who tag.toNat (w.dieStatus site) 0 0 []
        else if !w.syncLive site obj || !Wafer.queAllowed src (w.syncVol site obj) then
          (w.quePROT site).queRsp who tag.toNat stProt 0 0 []
        else
          let x : Wait := { who := who, tag := tag.toNat, site := site, obj := obj, thr := threshold, since := w.now,
                            waitUs := waitUs.toNat }
          ({ w with que := { w.que with waits := w.que.waits ++ [x] } }).wakeWaits site obj)

/-- SYNC_WAIT_TIMEOUT (R266). -/
def execSyncWaitTimeout (who : Requester) (tag : BitVec 12) (s : State) : Host.Outcome State Fault Refusal :=
  .next (s.onWafer fun w =>
    match w.que.waits.find? (fun x => x.who == who && x.tag == tag.toNat) with
    | none => w
    | some x =>
      if x.waitUs = 0 || since x.since w.now < us x.waitUs then w
      else ({ w with que := { w.que with waits := w.que.waits.filter (fun y => y ≠ x) } }).send
        (.wake who tag.toNat qTimeout (w.syncVal x.site x.obj)))

/-- SYNC_VALUE_WRITE (R265). -/
def execSyncValueWrite (src : Src) (site : Fin 128) (obj : Fin 2048) (value : BitVec 64) (s : State) :
    Host.Outcome State Fault Refusal :=
  .next (s.onWafer fun w => if w.active site then (w.syncWrite src site obj value).2 else w)

/-- QPUSH_OPERATION (R263). -/
def execQpushOperation (who : Requester) (tag : BitVec 12) (src : Src) (site : Fin 128) (ring : Fin 2048) (entry : List Byte)
    (s : State) : Host.Outcome State Fault Refusal :=
  .next (s.onWafer fun w =>
    match w.arrive (w.queOut who tag.toNat src site (ringBlk site ring) false) (.qpushOperation who tag src site ring entry) with
    | none => w
    | some w => w.qpushAt who tag.toNat src site ring entry)

/-- QPOP_OPERATION (R263). -/
def execQpopOperation (who : Requester) (tag : BitVec 12) (src : Src) (site : Fin 128) (ring : Fin 2048) (sizeLog2 : Nat)
    (s : State) : Host.Outcome State Fault Refusal :=
  .next (s.onWafer fun w =>
    match w.arrive (w.queOut who tag.toNat src site (ringBlk site ring) false) (.qpopOperation who tag src site ring sizeLog2) with
    | none => w
    | some w => w.qpopAt who tag.toNat src site ring sizeLog2)

/-- POST (R115, R272, R273, R277). -/
def execPost (actor : MbxActor) (edge : Fin 16) (ch : Fin 64) (reply : Bool) (word : BitVec 32) (s : State) :
    Host.Outcome State Fault Refusal :=
  .next (s.onWafer fun w =>
    if w.ribbonPostStops actor edge ch then w
    else w.mbxOp actor edge ch reply true (fun w => w.mbxPost edge ch reply (word.zeroExtend 64)))

/-- GO (R272, R273, R277, R278). -/
def execGo (actor : MbxActor) (edge : Fin 16) (ch : Fin 64) (reply : Bool) (words : BitVec 5) (command : BitVec 16) (s : State) :
    Host.Outcome State Fault Refusal :=
  .next (s.onWafer fun w =>
    if w.ribbonPostStops actor edge ch then w
    else w.mbxOp actor edge ch reply true (fun w => w.mbxGo edge ch reply words.toNat command.toNat))

/-- TAKE (R271, R274, R278). -/
def execTake (actor : MbxActor) (edge : Fin 16) (ch : Fin 64) (reply : Bool) (s : State) : Host.Outcome State Fault Refusal :=
  .next (s.onWafer fun w => w.mbxOp actor edge ch reply false (fun w => w.mbxTake edge ch reply))

/-- ACK (R274, R278). -/
def execAck (actor : MbxActor) (edge : Fin 16) (ch : Fin 64) (reply : Bool) (code : BitVec 16) (s : State) :
    Host.Outcome State Fault Refusal :=
  .next (s.onWafer fun w => w.mbxOp actor edge ch reply false (fun w => w.mbxAck edge ch reply code.toNat))

/-- WITHDRAW (R275, R278). -/
def execWithdraw (actor : MbxActor) (edge : Fin 16) (ch : Fin 64) (reply : Bool) (s : State) : Host.Outcome State Fault Refusal :=
  .next (s.onWafer fun w => w.mbxOp actor edge ch reply true (fun w => w.mbxWithdraw edge ch reply))

end Sys2Proof.Machine
end

