-- ==== Sys2Proof/Machine/Matrix.lean ====
section
/-! DEFINITION. The matrix engine's arithmetic (spec file 10: R340–R369): the matrix program and its checks, accumulation
in its fixed order, compare-in, counts, row operations, outputs, unit time, the save image and the debug view. Commands
that start, end, halt and preempt units are in Units. -/

namespace Sys2Proof.Machine

/-- What a running unit can meet: a FAILED or fault code, its DETAIL, and whether the device replays it (Table FLT-5). -/
structure Bad where
  code : Nat
  detail : Nat
  replay : Bool
deriving DecidableEq, Repr

/-- The fault of a memory status (Table FLT-5): 0x170 + status; statuses 3, 4 and 7 are replayed. -/
def memBad (st a : Nat) : Bad := { code := 0x170 + st, detail := a, replay := st == 3 || st == 4 || st == 7 }

/-- Bytes whose value the spec leaves open. -/
def openBytes (tag seed n : Nat) : List Byte :=
  (List.range n).map (fun i => BitVec.ofNat 8 (Config.freeOf tag (BitVec.ofNat 64 seed) (BitVec.ofNat 64 i)).toNat)

/-! ### The matrix program (Table MAT-2) -/

def mMode (p : List Byte) : Nat := leAt p 0 1 % 16
def mPreload (p : List Byte) : Nat := leAt p 0 1 / 16 % 4
def mQ (p : List Byte) : Bool := Nat.testBit (leAt p 0 1) 6
def mRowOp (p : List Byte) : Nat := leAt p 1 1 % 8
def mSegLog (p : List Byte) : Nat := leAt p 1 1 / 16
def mA (p : List Byte) : Nat := leAt p 2 1
def mB (p : List Byte) : Nat := leAt p 3 1
def mOut (p : List Byte) : Nat := leAt p 4 1
def mRes (p : List Byte) : Nat := leAt p 5 1
def mShift (p : List Byte) : Nat := leAt p 6 1 % 32
def mK (p : List Byte) : Nat := leAt p 8 4
def mN (p : List Byte) : Nat := leAt p 12 4
def mKB (p : List Byte) : Nat := leAt p 16 2
def mKeys (p : List Byte) : Nat := leAt p 18 2
def mAOff (p : List Byte) : Nat := leAt p 20 2
def mResOff (p : List Byte) : Nat := leAt p 22 2
def mOutOff (p : List Byte) : Nat := leAt p 24 2
def mRowOff (p : List Byte) : Nat := leAt p 26 2
def mScale (p : List Byte) : Nat := leAt p 28 4
def mBAddr (p : List Byte) : Nat := leAt p 32 8
def mBias (p : List Byte) : Nat := leAt p 40 8
def mNode (p : List Byte) : Nat := leAt p 48 8

/-- Reduction length of a tile: KB in block-diagonal form, else K (R346). -/
def mKc (p : List Byte) : Nat := if mKB p = 0 then mK p else mKB p
/-- Columns of a segment. -/
def mSeg (p : List Byte) : Nat := if mSegLog p = 0 then mN p else 2 ^ mSegLog p
/-- The accumulator is FP32 (R348). -/
def mFloat (p : List Byte) : Bool := mMode p == 0 && fmtFloat (mA p)
def mAccFmt (p : List Byte) : Nat := if mFloat p then 0x0C else 6
def mCmp (p : List Byte) : Bool := mMode p == 1 || mMode p == 2
/-- The key format (R353). -/
def mKeyFmt (p : List Byte) : Nat := if fmtWidth (mA p) = 32 then 0x0F else 0x0E

/-- The MAC operand formats (Table MAT-1). -/
def macFmt (c : Nat) : Bool := c ≤ 5 || (8 ≤ c && c ≤ 0x0C)

/-- Bytes of n elements of a format. -/
def packed (c n : Nat) : Nat := (n * fmtWidth c + 7) / 8

/-- Element i of an array packed from byte `off` (R346). -/
def elem (c : Nat) (l : List Byte) (off i : Nat) : Nat :=
  if fmtWidth c = 4 then leAt l (off + i / 2) 1 / (if i % 2 = 0 then 1 else 16) % 16
  else leAt l (off + i * (fmtWidth c / 8)) (fmtWidth c / 8)

/-- Bytes of the column operands, the bias vector and the node table. -/
def mBBytes (p : List Byte) : Nat := packed (mB p) (mN p * mKc p)
def mNodeCount (p : List Byte) : Nat := if mMode p = 1 then mN p else mK p

/-- Fields, formats and modes within Table MAT-2 and the mode rules (R342, R347, R353–R360). -/
def mFormOk (p : List Byte) : Bool :=
  let m := mMode p
  let op := mRowOp p
  let seg := mSegLog p
  let acc := mAccFmt p
  let hasBias := mPreload p == 1 || mPreload p == 3
  let hasRes := mPreload p == 2 || mPreload p == 3
  m ≤ 5 && !Nat.testBit (leAt p 0 1) 7 && op ≤ 5 && !Nat.testBit (leAt p 1 1) 3 && (seg == 0 || (4 ≤ seg && seg ≤ 12)) &&
  leAt p 6 2 < 32 && leAt p 56 8 == 0 &&
  (if m = 1 then
     mK p == 0 && 64 ≤ mN p && mN p ≤ 524288 && mN p % 64 == 0 && mOut p == 0xFF && op == 0 && mPreload p == 0 &&
     mBAddr p == 0 && mKB p == 0
   else 1 ≤ mK p && mK p ≤ 65536 && 16 ≤ mN p && mN p ≤ 16384 && mN p % 16 == 0) &&
  (mKB p == 0 || (mKB p ≤ 4096 && 4 ≤ seg && mK p * 2 ^ seg == mKB p * mN p)) &&
  mN p % mSeg p == 0 &&
  (match m with
   | 0 => macFmt (mA p) && macFmt (mB p) && fmtInt (mA p) == fmtInt (mB p)
   | 1 | 2 =>
     (fmtKey (mA p) || (4 ≤ mA p && mA p ≤ 7) || (0x0A ≤ mA p && mA p ≤ 0x0C)) &&
     1 ≤ mKeys p && mKeys p ≤ (if mKeyFmt p = 0x0F then 512 else 1024) && (m == 1 || mB p ≤ 3)
   | _ => mA p == 7 && mB p == 7 && !hasRes) &&
  (mCmp p || (mKeys p == 0 && mNode p == 0)) &&
  (if hasRes then (if acc = 6 then mRes p == 2 || mRes p == 4 || mRes p == 6 else mRes p == 0x0A || mRes p == 0x0B || mRes p == 0x0C)
   else mRes p == 0xFF) &&
  (hasBias || mBias p == 0) &&
  (mOut p == 0xFF || (if acc = 6 then 2 ≤ mOut p && mOut p ≤ 7 else (8 ≤ mOut p && mOut p ≤ 0x0C) || mOut p == 0x0F)) &&
  (acc == 0x0C || mScale p == 0) && (acc == 6 || mShift p == 0) &&
  mAOff p % 8 == 0 && mResOff p % 8 == 0 && mOutOff p % 8 == 0 && mRowOff p % 8 == 0

/-- Bytes of the column outputs and of the row results in an output record. -/
def mOutBytes (p : List Byte) : Nat :=
  if mMode p = 1 then mN p / 8 else if mOut p = 0xFF then 0 else packed (mOut p) (mN p)
def mRowBytes (p : List Byte) : Nat := if mRowOp p = 0 then 0 else 8 * (mN p / mSeg p)

/-- Everything fits the records, and outputs do not overlap (R347). -/
def mDimOk (p : List Byte) (inBytes outBytes : Nat) : Bool :=
  let need := if mCmp p then packed (mA p) (mKeys p) else packed (mA p) (mK p)
  let o := mOutBytes p
  let r := mRowBytes p
  mAOff p + need ≤ inBytes &&
  (mRes p == 0xFF || mResOff p + packed (mRes p) (mN p) ≤ inBytes) &&
  (o == 0 || mOutOff p + o ≤ outBytes) && (r == 0 || mRowOff p + r ≤ outBytes) &&
  (o == 0 || r == 0 || mOutOff p + o ≤ mRowOff p || mRowOff p + r ≤ mOutOff p)

/-! ### Compare-in (R353–R356) -/

def nThr (e : Nat) : Nat := e % 2 ^ 32
def nFeature (e : Nat) : Nat := e / 2 ^ 32 % 1024
def nOp (e : Nat) : Nat := e / 2 ^ 42 % 4
def nMissTrue (e : Nat) : Bool := Nat.testBit e 44

/-- A node entry is sound (R354). -/
def nodeOk (keyFmt keys e : Nat) : Bool :=
  e / 2 ^ 45 == 0 && nFeature e < keys && nThr e != 0 && (keyFmt == 0x0F || nThr e < 65536)

/-- The predicate of a node on a key (R354). -/
def nodePred (e key : Nat) : Bool :=
  if key = 0 then nMissTrue e
  else
    match nOp e with
    | 0 => nThr e ≤ key
    | 1 => key < nThr e
    | 2 => key == nThr e
    | _ => key != nThr e

/-! ### A unit (R343, R346–R360) -/

/-- A unit's data: program, input records, column operands, bias, node table, FTZ. -/
structure MatIn where
  p : List Byte
  recs : List (List Byte)
  b : List Byte
  bias : List Byte
  nodes : List Byte
  ftz : Bool

namespace MatIn

def record (u : MatIn) (i : Nat) : List Byte := u.recs.getD i []

/-- Key f of record i, with its flags (R353). -/
def key (u : MatIn) (i f : Nat) : Res := toKey (mA u.p) u.ftz (elem (mA u.p) (u.record i) (mAOff u.p) f)

def node (u : MatIn) (n : Nat) : Nat := leAt u.nodes (8 * n) 8

def pred (u : MatIn) (i n : Nat) : Bool := nodePred (u.node n) (u.key i (nFeature (u.node n))).1

/-- Flags raised by loading the keys of record i. -/
def keyFlags (u : MatIn) (i : Nat) : Flags := (List.range (mKeys u.p)).foldl (fun f k => f ||| (u.key i k).2) fNone

/-- The preload of cell (i, j) (R349). -/
def preload (u : MatIn) (i j : Nat) : Res :=
  let acc := mAccFmt u.p
  let bias : Res := convert 0 acc acc u.ftz (leAt u.bias (4 * j) 4)
  let res : Res := convert 0 (mRes u.p) acc u.ftz (elem (mRes u.p) (u.record i) (mResOff u.p) j)
  match mPreload u.p with
  | 0 => (0, fNone)
  | 1 => bias
  | 2 => res
  | _ =>
    let s := if acc = 6 then addI bias.1 (signed 32 res.1) else addF u.ftz bias.1 res.1
    (s.1, s.2 ||| bias.2 ||| res.2)

/-- One reduction step of cell (i, j) (R346, R350, R356, R357). -/
def step (u : MatIn) (i j : Nat) (x : Res) (k : Nat) : Res :=
  let p := u.p
  let row := if mKB p = 0 then k else j / mSeg p * mKB p + k
  let b := elem (mB p) u.b 0 ((j / 16 * mKc p + k) * 16 + j % 16)
  let r : Res := match mMode p with
    | 0 =>
      let a := elem (mA p) (u.record i) (mAOff p) row
      if mFloat p then macF u.ftz x.1 (mA p) a (mB p) b
      else
        let va : Int := if fmtSigned (mA p) then signed (fmtWidth (mA p)) a else a
        let vb : Int := if fmtSigned (mB p) then signed (fmtWidth (mB p)) b else b
        addI x.1 (va * vb)
    | 2 =>
      let q : Int := if u.pred i row then 1 else (if mQ p then -1 else 0)
      addI x.1 (q * (if fmtSigned (mB p) then signed (fmtWidth (mB p)) b else b))
    | m =>
      let a := elem (mA p) (u.record i) (mAOff p) row
      let o := if m = 3 then a &&& b else if m = 4 then a ||| b else a ^^^ b
      addI x.1 (popcount 32 o)
  (r.1, r.2 ||| x.2)

/-- Accumulator and flags of cell (i, j) after `n` steps. -/
def cell (u : MatIn) (n i j : Nat) : Res := (List.range n).foldl (fun x k => u.step i j x k) (u.preload i j)

/-- The converted output of a column (R360). -/
def output (u : MatIn) (acc : Nat) : Res :=
  if mFloat u.p then
    let s := mulF u.ftz acc (mScale u.p)
    let c := convert 0 0x0C (mOut u.p) u.ftz s.1
    (c.1, s.2 ||| c.2)
  else
    let s := shiftRound (signed 32 acc) (mShift u.p)
    let c := clampInt (mOut u.p) s.1
    (c.1, s.2 ||| c.2)

/-- A running row result: best value and index so far (none while all were NaN), first value, running sum. -/
structure RowAcc where
  best : Option (Nat × Nat)
  first : Nat
  sum : Option Nat
  flags : Flags

/-- Take column j of a segment, at index x within it, into a row result (R358, R359). -/
def rowStep (u : MatIn) (r : RowAcc) (x acc : Nat) : RowAcc :=
  let f := mAccFmt u.p
  let nan := fmtFloat f && isNaN f acc
  let wins (old : Nat) : Bool := if mRowOp u.p = 5 then fmtLt f u.ftz acc old else fmtLt f u.ftz old acc
  let best := if nan then r.best else
    match r.best with
    | none => some (acc, x)
    | some (v, _) => if wins v then some (acc, x) else r.best
  let s : Option Res := match r.sum with
    | none => none
    | some y => some (if f = 6 then addI y (signed 32 acc) else addF u.ftz y acc)
  let sums := mRowOp u.p == 3 || mRowOp u.p == 4
  { best := best, first := if x = 0 then acc else r.first,
    sum := some (match s with | none => acc | some y => y.1),
    flags := r.flags ||| (if nan then fNaN else fNone) ||| (match s with | some y => if sums then y.2 else fNone | none => fNone) }

def rowInit : RowAcc := { best := none, first := 0, sum := none, flags := fNone }

/-- The 8-byte row result of a segment (Table MAT-5). -/
def rowResult (u : MatIn) (r : RowAcc) : Nat :=
  let v := match r.best with | some b => b | none => (r.first, 0)
  let sum := r.sum.getD 0
  match mRowOp u.p with
  | 1 => v.1
  | 2 | 5 => v.2 + v.1 * 2 ^ 32
  | 3 => sum
  | _ => v.1 + sum * 2 ^ 32

/-- Write v into `l` at i. -/
def put (l : List Byte) (i n v : Nat) : List Byte := patch l i (toLE n v)

/-- The output record of record i, and its flags (R351, R355, R358, R360). -/
def recordOut (u : MatIn) (i : Nat) (blank : List Byte) : List Byte × Flags :=
  let p := u.p
  if mMode p = 1 then
    let byte (b : Nat) : Nat := (List.range 8).foldl (fun a k => a + (if u.pred i (8 * b + k) then 2 ^ k else 0)) 0
    (patch blank (mOutOff p) ((List.range (mN p / 8)).map (fun b => BitVec.ofNat 8 (byte b))), u.keyFlags i)
  else
    let accs := (List.range (mN p)).map (fun j => u.cell (mKc p) i j)
    let fl := accs.foldl (fun f x => f ||| x.2) (if mMode p = 2 then u.keyFlags i else fNone)
    let o : List Res := if mOut p = 0xFF then [] else accs.map (fun x => u.output x.1)
    let wb := fmtWidth (mOut p) / 8
    let l := if mOut p = 0xFF then blank else patch blank (mOutOff p) (o.flatMap (fun x => toLE wb x.1))
    let fl := o.foldl (fun f x => f ||| x.2) fl
    if mRowOp p = 0 then (l, fl)
    else
      let segs := (List.range (mN p / mSeg p)).map (fun s =>
        (List.range (mSeg p)).foldl (fun r x => u.rowStep r x (accs.getD (s * mSeg p + x) (0, fNone)).1) rowInit)
      (patch l (mRowOff p) (segs.flatMap (fun r => toLE 8 (u.rowResult r))), segs.foldl (fun f r => f ||| r.flags) fl)

end MatIn

namespace Wafer

/-- An address range inside the volume's SRAM window of a site, by its cached offset (R345). -/
def ownSram (w : Wafer) (vol site a n : Nat) : Bool :=
  adRegion a == 0 && adWafer a == w.col.wafer && adDie a == site &&
  (let o := if 0x800000000 ≤ adOff a then adOff a - 0x800000000 else adOff a
   o + n ≤ 0x10000000 && (vol == 0 || (w.inSpan vol site && within (w.sramWin vol) o n)))

end Wafer

namespace MatIn

/-- The output slot of a unit and its flags (R343, R351, R352). Bytes that no rule writes are open values. -/
def unitOut (u : MatIn) (outBytes seed : Nat) : List Byte × Flags :=
  (List.range u.recs.length).foldl (fun (x : List Byte × Flags) i =>
    let r := u.recordOut i (openBytes 10 (seed + i) outBytes)
    (x.1 ++ r.1, x.2 ||| r.2)) ([], fNone)

/-! ### Time (R341, R344) -/

/-- Cycles per step, doubled (Table MAT-1). -/
def step2 (u : MatIn) : Nat :=
  let of (c : Nat) : Nat := match fmtWidth c with | 4 => 1 | 8 => 2 | 16 => 4 | _ => 16
  match mMode u.p with
  | 0 => max (of (mA u.p)) (of (mB u.p))
  | 2 => if mKeyFmt u.p = 0x0F || fmtWidth (mB u.p) = 8 then 2 else 1
  | _ => 8

/-- Cycles of a tile, of the key load of a group, and of a group. -/
def tileCycles (u : MatIn) : Nat := (mKc u.p * u.step2 + 1) / 2 + 40
def keyCycles (u : MatIn) : Nat :=
  if mCmp u.p then (mKeys u.p * (if mKeyFmt u.p = 0x0F then 4 else 2) + 15) / 16 else 0
def groupCycles (u : MatIn) : Nat :=
  u.keyCycles + (if mMode u.p = 1 then mN u.p / 16 + 40 else mN u.p / 16 * u.tileCycles)
def blocks (u : MatIn) : Nat := (u.recs.length + 15) / 16
def groups (u : MatIn) : Nat := (u.blocks + 7) / 8
def cycles (u : MatIn) : Nat := u.groups * u.groupCycles

/-- Where a unit stops after `t` cycles (R361): group, column block, next step, and whether between tiles. -/
structure Stop where
  group : Nat
  col : Nat
  next : Nat
  between : Bool
deriving DecidableEq, Repr

/-- The step boundary reached by a stop `t` cycles after the unit began (R344, R361, R365). -/
def stopAt (u : MatIn) (t : Nat) : Stop :=
  let g := t / u.groupCycles
  let r := t % u.groupCycles - u.keyCycles
  if u.groups ≤ g then { group := u.groups, col := 0, next := 0, between := true }
  else if mMode u.p = 1 then
    let done := if r < 24 then 0 else min (mN u.p / 16) (r - 24 + 1)
    if done = mN u.p / 16 then { group := g + 1, col := 0, next := 0, between := true }
    else { group := g, col := 0, next := done, between := false }
  else
    let c := r / u.tileCycles
    let x := r % u.tileCycles
    let done := if x < 24 then 0 else
      if u.step2 = 1 then (x - 24 + 1) * 2 else (x - 24) * 2 / u.step2 + 1
    if mKc u.p ≤ done then
      (if c + 1 < mN u.p / 16 then { group := g, col := c + 1, next := 0, between := true }
       else { group := g + 1, col := 0, next := 0, between := true })
    else { group := g, col := c, next := done, between := false }

/-- Array steps performed and tiles written by that stop (MAT_STEPS, MAT_TILES). -/
def stepsAt (u : MatIn) (s : Stop) : Nat × Nat :=
  let perGroup := if mMode u.p = 1 then mN u.p / 16 else mN u.p / 16 * mKc u.p
  let last := u.blocks - 8 * s.group
  let nb := min 8 last
  let doneGroups := if s.group = 0 then 0 else u.blocks - last
  (doneGroups * perGroup + nb * ((if mMode u.p = 1 then 0 else s.col * mKc u.p) + s.next),
   if mMode u.p = 1 then doneGroups else doneGroups * (mN u.p / 16) + nb * s.col)

/-! ### The save image and the view (R362, R366) -/

/-- Accumulator and flags of cell (i, j) of array a at a stop. -/
def cellAt (u : MatIn) (s : Stop) (a i j : Nat) : Res :=
  let rec_ := (8 * s.group + a) * 16 + i
  if mMode u.p = 1 || u.recs.length ≤ rec_ || u.groups ≤ s.group then (0, fNone)
  else if s.between then (if s.col = 0 then (0, fNone) else u.cell (mKc u.p) rec_ ((s.col - 1) * 16 + j))
  else u.cell s.next rec_ (s.col * 16 + j)

/-- Flags of a cell or array in the image's order: SAT, IV, OF, UF, NX, NAN_SEEN. -/
def imageFlags (f : Flags) : Nat :=
  f.toNat / 16 % 2 + f.toNat % 2 * 2 + f.toNat / 2 % 2 * 4 + f.toNat / 4 % 2 * 8 + f.toNat / 8 % 2 * 16 + f.toNat / 32 * 32

/-- The running row result of a record over the finished column blocks of the current segment. -/
def rowAt (u : MatIn) (s : Stop) (rec_ : Nat) : RowAcc :=
  let first := s.col * 16 / mSeg u.p * mSeg u.p
  (List.range (s.col * 16 - first)).foldl (fun r x => u.rowStep r x (u.cell (mKc u.p) rec_ (first + x)).1) rowInit

/-- Flags of the tiles that array a has finished in the unit. -/
def arrayFlags (u : MatIn) (s : Stop) (a : Nat) : Flags :=
  (List.range (s.group + 1)).foldl (fun f g =>
    (List.range 16).foldl (fun f i =>
      let r := (8 * g + a) * 16 + i
      if u.recs.length ≤ r then f
      else if g < s.group then f ||| (u.recordOut r []).2
      else (List.range (s.col * 16)).foldl (fun f j =>
        let x := u.cell (mKc u.p) r j
        f ||| x.2 ||| (if mOut u.p = 0xFF then fNone else (u.output x.1).2)) f) f) fNone

/-- The array record of array a (Table MAT-6). -/
def arrayImage (u : MatIn) (s : Stop) (a : Nat) : List Byte :=
  let blk := 8 * s.group + a
  let idle := decide (u.blocks ≤ blk)
  let st := if idle then 0 else if s.between then 2 else 1
  let head := toLE 4 st ++ toLE 2 (if idle then 0 else blk) ++ toLE 2 (if idle then 0 else s.col) ++
    toLE 4 (if idle then 0 else s.next) ++ toLE 4 (imageFlags (u.arrayFlags s a))
  let rows := (List.range 16).flatMap (fun i =>
    if idle || mRowOp u.p = 0 || u.recs.length ≤ blk * 16 + i then List.replicate 12 0
    else
      let r := u.rowAt s (blk * 16 + i)
      let v := r.best.getD (r.first, 0)
      toLE 4 v.1 ++ toLE 4 v.2 ++ toLE 4 (r.sum.getD 0))
  let cells := (List.range 256).flatMap (fun c =>
    let x := u.cellAt s a (c / 16) (c % 16)
    toLE 8 (x.1 + imageFlags x.2 * 2 ^ 32))
  fit 256 (fit 64 head ++ rows) ++ cells

/-- The save image: header words and the eight array records (R362). -/
def image (u : MatIn) (s : Stop) (eng cls vol stage unit pass ring desc : Nat) : List Byte :=
  fit 256 (toLE 4 0x4D415349 ++ toLE 1 eng ++ toLE 1 cls ++ toLE 1 vol ++ toLE 1 stage ++ toLE 4 unit ++ toLE 4 pass ++
    toLE 2 ring ++ toLE 2 0 ++ toLE 4 desc ++ toLE 4 s.group) ++
  (List.range 8).flatMap (fun a => u.arrayImage s a)

end MatIn

/-- Address of the save slot of engine e for class c at a site (R363). -/
def saveSlot (site e c : Nat) : Nat := dieAddr site (0x0FF00000 + (3 * e + c - 1) * 0x4900)

end Sys2Proof.Machine
end

