-- ==== Sys2Proof/Machine/Assoc.lean ====
section
/-! DEFINITION. Associative banks (spec file 12: R394–R418): rows and entries, the thumb index, searches and their output,
writes, paired commits, block moves, scrub; and image references (R456, R457). -/

namespace Sys2Proof.Machine

/-- Memory key of byte `o` of bank b of a site. -/
def bankKey (site b o : Nat) : Nat := dieAddr site (0x001000000000 + b * 0x20000 + o)

/-! ### Rows and entries (R394–R397) -/

/-- The cells of one bank. -/
def bankCells (w : Wafer) (site b : Nat) : Memory :=
  w.mem.filter (fun c => bankKey site b 0 ≤ c.1 && c.1 < bankKey site b 0x20000)

/-- Row r of a bank, from the bank's cells. -/
def rowOf (m : Memory) (site b r : Nat) : List Byte := Memory.readN m (bankKey site b (32 * r)) 32

def rowMeta (l : List Byte) : Nat := leAt l 28 4
def rowValid (l : List Byte) : Bool := rowMeta l % 2 == 1
/-- Units of an entry of WIDTH code c. -/
def widthUnits (c : Nat) : Nat := match c with | 0 => 1 | 1 => 2 | 2 => 4 | _ => 0

/-- Rows whose VALID is 1, ascending. -/
def validRows (m : Memory) (site b : Nat) : List Nat :=
  (m.filter (fun c => (c.1 - bankKey site b 0) % 32 == 28 && c.2.toNat % 2 == 1)).map (fun c => (c.1 - bankKey site b 0) / 32)

/-- Units of the well-formed entry with its head at row h, if there is one (R395). -/
def entryAt (m : Memory) (site b h : Nat) : Option Nat :=
  let w := widthUnits (rowMeta (rowOf m site b h) / 2 % 4)
  if w ≠ 0 && h % w == 0 && h + w ≤ 4096 &&
      (List.range w).all (fun i =>
        let x := rowMeta (rowOf m site b (h + i))
        x % 2 == 1 && widthUnits (x / 2 % 4) == w && x / 8 % 4 == i && x / 32 == 0)
  then some w else none

/-- An entry of `u` units at head h matches a key (R396). -/
def entryMatches (m : Memory) (site b h u key : Nat) : Bool :=
  (List.range u).all (fun i =>
    let l := rowOf m site b (h + i)
    let k := key / 2 ^ (96 * (u - 1 - i)) % 2 ^ 96
    let v := leAt l 0 12
    let c := leAt l 12 12
    v &&& c == k &&& c)

/-! ### Thumb vectors (R399–R402) -/

/-- Leading bytes that a head row admits. -/
def headThumbs (l : List Byte) : List Nat :=
  let v := leAt l 11 1
  let c := leAt l 23 1
  (List.range 256).filter (fun x => x &&& c == v &&& c)

namespace Wafer

def thumbBit (w : Wafer) (site b g x : Nat) : Bool := (w.reg (thumbKey site b g + 8 * (x / 64))).getLsbD (x % 64)

/-- The four words of a thumb vector from a list of leading bytes. -/
def thumbWord (l : List Nat) (i : Nat) : Word :=
  BitVec.ofNat 64 ((l.filter (fun x => x / 64 == i)).foldl (fun a x => a ||| 2 ^ (x % 64)) 0)

/-- OR bits into the vector of row r's group. -/
def orThumb (w : Wafer) (site b r : Nat) (l : List Nat) : Wafer :=
  (List.range 4).foldl (fun w i =>
    let k := thumbKey site b (r / 64) + 8 * i
    w.setReg k (w.reg k ||| thumbWord l i)) w

/-- After a write of row r: if the row, or the entry it now completes, has a head with VALID 1, that head's bits are set
(R400). -/
def thumbAfter (w : Wafer) (site b r : Nat) : Wafer :=
  let m := bankCells w site b
  let heads := [r, r / 2 * 2, r / 4 * 4].dedup
  heads.foldl (fun w h =>
    let l := rowOf m site b h
    if rowValid l && (h = r || (entryAt m site b h).isSome) then w.orThumb site b h (headThumbs l) else w) w

/-- Recompute the vector of group g from its well-formed entries (R400). -/
def thumbExact (w : Wafer) (site b g : Nat) : Wafer :=
  let m := bankCells w site b
  let heads := (validRows m site b).filter (fun r => r / 64 == g && (entryAt m site b r).isSome)
  let bits := heads.flatMap (fun r => headThumbs (rowOf m site b r))
  (List.range 4).foldl (fun w i => w.setReg (thumbKey site b g + 8 * i) (thumbWord bits i)) w

/-! ### Poisoned rows (R416) -/

def rowPoison (site b r : Nat) : Nat := 4096 * (64 * site + b) + r
def bankBad (w : Wafer) (site b : Nat) : List Nat :=
  (w.asc.bad.filter (fun x => x / 4096 == 64 * site + b)).map (· % 4096)

def poisonRow (w : Wafer) (site b r : Nat) : Wafer :=
  let w := { w with asc := { w.asc with bad := w.asc.bad.filter (· ≠ rowPoison site b r) ++ [rowPoison site b r] } }
  w.latch (ascBlk site) F.ASC_EVT.POISON

def cureRow (w : Wafer) (site b r : Nat) : Wafer :=
  { w with asc := { w.asc with bad := w.asc.bad.filter (· ≠ rowPoison site b r) } }

/-- Replace whole rows from row r up, 32 bytes each, with their thumb bits (R398, R400). -/
def putRows (w : Wafer) (site b r : Nat) (l : List Byte) : Wafer :=
  let w := w.store (bankKey site b (32 * r)) l
  (List.range (l.length / 32)).foldl (fun w i => (w.cureRow site b (r + i)).thumbAfter site b (r + i)) w

/-! ### Who may work on a bank (R284, R414) -/

def bankOwner (w : Wafer) (v site b : Nat) : Bool :=
  v == 0 || (w.inSpan v site && (w.bankWin v).1 ≤ b && b < (w.bankWin v).1 + (w.bankWin v).2)

def bankAllowed (w : Wafer) (src : Src) (site b : Nat) : Bool :=
  match src with
  | .volume v => w.bankOwner v site b
  | _ => true

/-- A rotation slot that holds the bank on this site, with the half. -/
def rotOf (w : Wafer) (site b : Nat) : Option (Nat × Bool) :=
  (List.range 16).findSome? (fun g =>
    let k := rotBlk site g
    let n := w.get k F.CMD_ROT_BANKS.BANKS
    let a := w.get k F.CMD_ROT_BANKS.HALF_A
    let h := w.get k F.CMD_ROT_BANKS.HALF_B
    if !w.flag k F.CMD_ROT_CFG.VALID then none
    else if a ≤ b && b < a + n then some (g, false) else if h ≤ b && b < h + n then some (g, true) else none)

/-! ### Writes (R398, R413) -/

def moveAt (w : Wafer) (site b : Nat) : Option Move := tabGet w.asc.moves (64 * site + b)

/-- Rows of a running move, hole included (R412). -/
def moveRows (x : Move) : Nat × Nat :=
  if x.up then (x.first, x.last + 2 * x.width) else (x.first - x.width, x.last + x.width)

/-- A write to the bank window (R398, R413): its status and the state. -/
def bankWrite (w : Wafer) (src : Src) (site b off : Nat) (l : List Byte) : Nat × Wafer :=
  let n := l.length
  let r := off / 32
  let o := off % 32
  let rows := (r, (off + n + 31) / 32)
  let busy := match w.moveAt site b with
    | some x => decide (rows.1 < (moveRows x).2) && decide ((moveRows x).1 < rows.2)
    | none => false
  if !w.bankAllowed src site b then (stProt, w)
  else if busy then (stProt, w.latch (ascBlk site) F.ASC_EVT.MOVE_CONFLICT)
  else if n = 0 || off % n ≠ 0 then (stAlign, w)
  else if n = 32 || n = 64 || n = 128 || n = 256 then (stOk, w.putRows site b r l)
  else if n = 8 && o = 24 then (stOk, (w.store (bankKey site b off) l).thumbAfter site b r)
  else if (n = 8 || n = 16) && o + n ≤ 24 then
    (if rowValid (w.bytes (bankKey site b (32 * r)) 32) then (stProt, w) else (stOk, w.store (bankKey site b off) l))
  else (stUnsup, w)

/-! ### Paired commits and block moves (R411–R413) -/

/-- Staged rows in use, as (staging row, target) (Table ASC-4). -/
def pairTargets (w : Wafer) (site b : Nat) : List (Nat × Nat) :=
  (List.range 8).filterMap (fun i =>
    let x := getF (w.reg (bankBlk site b + 0x1018 + 8 * (i / 4))) (16 * (i % 4)) 16
    if 0x8000 ≤ x then some (i, x % 4096) else none)

/-- Apply a waiting commit, or refuse it (R411). -/
def pairApply (w : Wafer) (site b : Nat) : Wafer :=
  let k := bankBlk site b
  let t := w.pairTargets site b
  let tg := t.map (·.2)
  let inMove := match w.moveAt site b with
    | some x => tg.any (fun r => (moveRows x).1 ≤ r && r < (moveRows x).2)
    | none => false
  let w := w.set k F.ASC_PAIR_STAT.BUSY 0
  let no (c : Nat) : Wafer := (w.set k F.ASC_PAIR_STAT.RESULT c).latch (ascBlk site) F.ASC_EVT.PAIR_REFUSED
  if t.isEmpty then no 3
  else if tg.dedup.length ≠ tg.length then no 2
  else if inMove then no 1
  else if (w.rotOf site b).isSome then no 4
  else
    let row (i : Nat) : List Byte := (List.range 4).flatMap (fun q => toLE 8 (w.reg (stageRowKey site b i + 8 * q)).toNat)
    let w := (t.map (fun x => (x.2, row x.1))).foldl (fun w x => w.putRows site b x.1 x.2) w
    w.set k F.ASC_PAIR_STAT.RESULT 0

/-- Whether every VALID row of [r0, r1) belongs to a well-formed entry of `u` units. -/
def uniformRows (m : Memory) (site b r0 r1 u : Nat) : Bool :=
  ((validRows m site b).filter (fun r => r0 ≤ r && r < r1)).all (fun r => entryAt m site b (r / u * u) == some u)

/-- Start a block move, or end it at once with its error (R412, R413). -/
def moveStart (w : Wafer) (site b first last : Nat) (down : Bool) (width : Nat) : Wafer :=
  let k := bankBlk site b
  let u := widthUnits width
  let no (c : Nat) : Wafer := w.set k F.ASC_MOVE_STAT.RESULT c
  let m := bankCells w site b
  let hole := if down then first - u else last + u
  if (w.moveAt site b).isSome then no 4
  else if (w.rotOf site b).isSome then no 6
  else if u = 0 || first % u ≠ 0 || last % u ≠ 0 || last < first || (if down then first < u else 4096 < last + 2 * u) then no 2
  else if (validRows m site b).any (fun r => hole ≤ r && r < hole + u) then no 1
  else if !uniformRows m site b first (last + u) u then no 3
  else
    let x : Move := { first := first, last := last, next := if down then first else last, width := u, up := !down }
    let w := { w with asc := { w.asc with moves := tabSet w.asc.moves (64 * site + b) (some x) } }
    (w.set k F.ASC_MOVE_STAT.BUSY 1).set k F.ASC_MOVE_STAT.NEXT x.next

/-- End a move. -/
def moveEnd (w : Wafer) (site b result : Nat) : Wafer :=
  let w := { w with asc := { w.asc with moves := tabSet w.asc.moves (64 * site + b) none } }
  ((w.set (bankBlk site b) F.ASC_MOVE_STAT.BUSY 0).set (bankBlk site b) F.ASC_MOVE_STAT.RESULT result)

/-- Positions still to do, in the order of the move. -/
def movePositions (x : Move) : List Nat :=
  let n := (if x.up then x.next - x.first else x.last - x.next) / x.width + 1
  (List.range n).map (fun i => if x.up then x.next - i * x.width else x.next + i * x.width)

/-- One move step (R412): the first position with a VALID row moves into the hole beside it; the rows left behind are
zeroed (DESIGN CHOICE, log entry 44). -/
def moveStep (w : Wafer) (site b : Nat) : Wafer :=
  match w.moveAt site b with
  | none => w
  | some x =>
    let m := bankCells w site b
    let full (p : Nat) : Bool := (validRows m site b).any (fun r => p ≤ r && r < p + x.width)
    match (movePositions x).dropWhile (fun p => !full p) with
    | [] => w.moveEnd site b 0
    | p :: rest =>
      let rows := w.bytes (bankKey site b (32 * p)) (32 * x.width)
      let w := w.putRows site b (if x.up then p + x.width else p - x.width) rows
      let w := w.zero (bankKey site b (32 * p)) (32 * x.width)
      match rest.dropWhile (fun p => !full p) with
      | [] => w.moveEnd site b 0
      | q :: _ =>
        let w := { w with asc := { w.asc with moves := tabSet w.asc.moves (64 * site + b) (some { x with next := q }) } }
        w.set (bankBlk site b) F.ASC_MOVE_STAT.NEXT q

end Wafer

/-! ### Search blocks (Table ASC-2) -/

def sUnits (p : List Byte) : Nat := leAt p 0 1
def sMode (p : List Byte) : Nat := leAt p 1 1
def sThumb (p : List Byte) : Bool := leAt p 2 1 % 2 == 1
def sExc (p : List Byte) : Bool := leAt p 2 1 / 2 % 2 == 1
def sFmt (p : List Byte) : Nat := leAt p 3 1
def sS (p : List Byte) : Nat := leAt p 4 2
def sBanks (p : List Byte) : Nat := leAt p 6 1
def sShift (p : List Byte) : Nat := leAt p 7 1
def sFirst (p : List Byte) : Nat := leAt p 8 1
def sLead (p : List Byte) : Nat := leAt p 9 1
def sField0 (p : List Byte) : Nat := leAt p 20 4
def sFieldBits (p : List Byte) : Nat := leAt p 24 2
def sStride (p : List Byte) : Nat := leAt p 26 2
def sOutOff (p : List Byte) : Nat := leAt p 28 2
def sRank (p : List Byte) (b : Nat) : Nat := leAt p (32 + b / 2) 1 / (if b % 2 = 0 then 1 else 16) % 16

/-- Relative banks that the groups reach (R404). -/
def sReach (p : List Byte) : Nat := sFirst p + ((sS p - 1) / 2 ^ sShift p + 1) * sBanks p

/-- Output bytes of a record (R408). -/
def sOutBytes (p : List Byte) : Nat :=
  match sMode p with
  | 0 => 8 * sS p
  | 1 => 64 * sS p
  | _ => if sExc p then 8 else 4

/-- The block obeys R403, R405 and R408. -/
def searchOk (p : List Byte) (inBytes outBytes : Nat) : Bool :=
  let u := sUnits p
  (u == 1 || u == 2 || u == 4) && sMode p ≤ 2 && leAt p 2 1 < 4 && (!sExc p || sMode p == 2) &&
  (if sMode p = 2 then sFmt p == 6 || sFmt p == 0x0C else sFmt p == 0) &&
  1 ≤ sS p && sS p ≤ 1024 && 1 ≤ sBanks p && sBanks p ≤ 64 && sShift p ≤ 10 && sLead p ≤ 32 &&
  leAt p 10 2 == 0 && leAt p 30 2 == 0 && 1 ≤ sFieldBits p && sFieldBits p + sLead p ≤ 96 * u && sOutOff p % 8 == 0 &&
  sOutOff p + sOutBytes p ≤ outBytes && sField0 p + (sS p - 1) * sStride p + sFieldBits p ≤ 8 * inBytes

/-- The key of search s for a record (R405). -/
def searchKey (p : List Byte) (r : List Byte) (s : Nat) : Nat :=
  let kw := 96 * sUnits p
  let lead := (leAt p 12 4 + s * leAt p 16 4) % 2 ^ sLead p
  let bit (n : Nat) : Bool := (r.getD (n / 8) 0).getLsbD (n % 8)
  let f := (List.range (sFieldBits p)).foldl (fun a j => a + (if bit (sField0 p + s * sStride p + j) then 2 ^ j else 0)) 0
  lead * 2 ^ (kw - sLead p) + f * 2 ^ (kw - sLead p - sFieldBits p)

/-- A match: rank, absolute bank, head row, ASSOC. -/
structure Match where
  rank : Nat
  bank : Nat
  row : Nat
  assoc : Nat
deriving DecidableEq, Repr

/-- Banks as a search finds them: cells, head rows with their widths, and the groups that the thumb index leaves in. -/
structure BankView where
  bank : Nat
  cells : Memory
  heads : List (Nat × Nat)

namespace Wafer

def bankView (w : Wafer) (site b : Nat) : BankView :=
  let m := bankCells w site b
  { bank := b, cells := m,
    heads := (validRows m site b).filterMap (fun r => (entryAt m site b r).map (fun u => (r, u))) }

/-- Every match of a key in the banks of a search's group, in priority order: rank, bank, row (R397, R401, R406). -/
def matchesOf (w : Wafer) (site base : Nat) (p : List Byte) (views : List BankView) (s key : Nat) : List Match :=
  let g0 := sFirst p + s / 2 ^ sShift p * sBanks p
  let x := key / 2 ^ (96 * sUnits p - 8) % 256
  let all := (List.range (sBanks p)).flatMap (fun i =>
    let rel := g0 + i
    match views.find? (fun v => v.bank == base + rel) with
    | none => []
    | some v =>
      (v.heads.filter (fun h => h.2 == sUnits p && (!sThumb p || w.thumbBit site v.bank (h.1 / 64) x) &&
        entryMatches v.cells site v.bank h.1 h.2 key)).map (fun h =>
          ({ rank := sRank p rel, bank := v.bank, row := h.1, assoc := leAt (rowOf v.cells site v.bank h.1) 24 4 } : Match)))
  (List.range 16).flatMap (fun r => all.filter (fun m => m.rank == r))

end Wafer

/-- A result word (Table ASC-3); `count` 0 in the further words of LIST. -/
def matchWord (m : Match) (count : Nat) : Nat :=
  m.assoc + m.row * 2 ^ 32 + m.bank * 2 ^ 44 + 2 ^ 50 + (if 2 ≤ count then 2 ^ 51 else 0) + min 15 count * 2 ^ 52 +
    m.rank * 2 ^ 56

/-- The winning word of a search: COUNT over the winning rank (R406, R407). -/
def bestWord (l : List Match) : Nat :=
  match l with
  | [] => 0
  | m :: _ => matchWord m (l.filter (fun x => x.rank == m.rank)).length

/-- A record's search output (R408), and the flags of SUM. -/
def searchRecord (p : List Byte) (ftz : Bool) (found : List (List Match)) : List Byte × Flags :=
  match sMode p with
  | 0 => (found.flatMap (fun l => toLE 8 (bestWord l)), fNone)
  | 1 =>
    (found.flatMap (fun l => toLE 8 (bestWord l) ++
      (List.range 7).flatMap (fun i => toLE 8 (match l[i + 1]? with | some m => matchWord m 0 | none => 0))), fNone)
  | _ =>
    let add (x : Res) (l : List Match) : Res :=
      match l with
      | [] => x
      | m :: _ =>
        let r := if sFmt p = 6 then addI x.1 (signed 32 m.assoc) else addF ftz x.1 m.assoc
        (r.1, r.2 ||| x.2)
    let s := found.foldl add (0, fNone)
    let miss := min 65535 (found.filter (fun l => l.isEmpty)).length
    let multi := min 65535 (found.filter (fun l => match l with
      | [] => false
      | m :: _ => 2 ≤ (l.filter (fun x => x.rank == m.rank)).length)).length
    (toLE 4 s.1 ++ (if sExc p then toLE 2 miss ++ toLE 2 multi else []), s.2)

namespace Wafer

/-- The output of a SEARCH unit (R404–R409, R416): records in order, searches ascending. A group that reaches a poisoned
bank is a DATA_ERROR. -/
def searchUnit (w : Wafer) (site base stage : Nat) (p : List Byte) (ftz : Bool) (inBytes outBytes seed : Nat)
    (recs : List (List Byte)) : Except Bad (List Byte × Flags × Nat) :=
  let banks := (List.range (sReach p - sFirst p)).map (fun i => base + sFirst p + i)
  if !searchOk p inBytes outBytes || 64 < base + sReach p then .error { code := 0x131, detail := stage, replay := false }
  else
    match banks.findSome? (fun b => (w.bankBad site b).head?.map (fun r => (b, r))) with
    | some x => .error (memBad stData (bankKey site x.1 (32 * x.2)))
    | none =>
      let views := banks.map (fun b => w.bankView site b)
      let r := (List.range recs.length).foldl (fun (x : List Byte × Flags) i =>
        let rec_ := recs.getD i []
        let found := (List.range (sS p)).map (fun s => w.matchesOf site base p views s (searchKey p rec_ s))
        let o := searchRecord p ftz found
        (x.1 ++ patch (openBytes 11 (seed + i) outBytes) (sOutOff p) o.1, x.2 ||| o.2)) ([], fNone)
      .ok (r.1, r.2, recs.length * sS p)

/-! ### Image references (R456, R457) -/

/-- What a unit knows when it resolves addresses: home site (whose addresses a buddy run maps), site it runs on, volume,
stage, rotation slot of the command, half current when the pass began, whether the stage is a PAGE stage, whether the run
is a buddy run. -/
structure Ctx where
  home : Nat
  site : Nat
  vol : Nat
  stage : Nat
  rot : Option Nat
  half : Bool
  page : Bool
  buddy : Bool

/-- Resolve an image reference on the site (R456): an address, or ENS_REF (R457). Other addresses stand as they are. -/
def deref (w : Wafer) (c : Ctx) (a : Nat) : Except Bad Nat :=
  if adRegion a ≠ 8 then .ok a
  else
    let g := a / 2 ^ 52 % 16
    let kind := a / 2 ^ 48 % 16
    let o := a % 2 ^ 32
    let e := ensBlk c.site g
    let no : Except Bad Nat := .error { code := 0x151, detail := c.stage, replay := false }
    let rotated := w.flag e F.ENS_SLOT_CFG.ROTATED
    if !w.flag e F.ENS_SLOT_CFG.VALID || w.get e F.ENS_SLOT_CFG.VOLUME ≠ c.vol || 2 ≤ kind || a / 2 ^ 56 % 16 ≠ 0 ||
        a / 2 ^ 32 % 2 ^ 16 ≠ 0 then no
    else if kind = 1 then
      (if w.get e F.ENS_SLOT_RESLEN.BYTES ≤ o then no else .ok ((w.reg (e + 8)).toNat + o))
    else if w.get e F.ENS_SLOT_RESLEN.PAGE_BYTES ≤ o then no
    else if !rotated then .ok ((w.reg (e + 0x18)).toNat + o)
    else if c.rot ≠ some g || !c.page then no
    else .ok ((w.reg (rotBlk c.site g + (if c.half then 0x18 else 0x10))).toNat + o)

/-- The address a unit reads [a, a + n) at (R517): in a buddy run an address that names the home site is served from its
twin store, or the command fails with REPLAY_SOURCE. -/
def mapRead (w : Wafer) (c : Ctx) (a n : Nat) : Except Bad Nat :=
  if c.buddy && adRegion a == 0 && adWafer a == w.col.wafer && adDie a == c.home && c.home ≠ c.site then
    let o := if 0x800000000 ≤ adOff a && adOff a < 0x810000000 then adOff a - 0x800000000 else adOff a
    match (w.twins c.home).find? (fun t => t.1 ≤ o && o + n ≤ t.1 + t.2.1) with
    | some t => .ok (w.col.wafer * 2 ^ 56 + hbmAddr (t.2.2 + (o - t.1)))
    | none => .error { code := 0x164, detail := a, replay := false }
  else .ok a

/-- Resolve and map in one. -/
def resolve (w : Wafer) (c : Ctx) (a n : Nat) : Except Bad Nat :=
  match w.deref c a with
  | .error b => .error b
  | .ok x => w.mapRead c x n

/-- Read [a, a + n) for a unit: resolved, authorised, sound. -/
def fetch (w : Wafer) (c : Ctx) (a n : Nat) : Except Bad (List Byte) :=
  match w.resolve c a n with
  | .error b => .error b
  | .ok x =>
    let src : Src := if x = a || adRegion a = 8 then volSrc c.vol else .unhal
    let st := w.readStatus src x n
    if n = 0 then .ok [] else if st = stOk then .ok (w.load x n) else .error (memBad st (w.faultAddr src x n false))

/-- First bank of relative bank 0 for a command (R404): the volume's run, or the half current for the pass. -/
def searchBase (w : Wafer) (c : Ctx) : Nat :=
  match c.rot with
  | some g => w.get (rotBlk c.site g) (if c.half then F.CMD_ROT_BANKS.HALF_B else F.CMD_ROT_BANKS.HALF_A)
  | none => (w.bankWin c.vol).1

end Wafer

/-! ### Meanings -/

/-- ASC_ROW_WRITE (R398, R413). -/
def execAscRowWrite (src : Src) (site : Fin 128) (bank : Fin 64) (offset : Nat) (data : List Byte) (s : State) :
    Host.Outcome State Fault Refusal :=
  .next (s.onWafer fun w =>
    if w.active site && offset + data.length ≤ 0x20000 then (w.bankWrite src site bank offset data).2 else w)

/-- PAIR_COMMIT (R411): no effect while a commit is BUSY. -/
def execPairCommit (src : Src) (site : Fin 128) (bank : Fin 64) (s : State) : Host.Outcome State Fault Refusal :=
  .next (s.onWafer fun w =>
    if w.active site && w.bankAllowed src site bank then w.set (bankBlk site bank) F.ASC_PAIR_STAT.BUSY 1 else w)

/-- PAIR_APPLY (R411). -/
def execPairApply (site : Fin 128) (bank : Fin 64) (s : State) : Host.Outcome State Fault Refusal :=
  .next (s.onWafer fun w =>
    if w.active site && w.flag (bankBlk site bank) F.ASC_PAIR_STAT.BUSY then w.pairApply site bank else w)

/-- MOVE_START (R412, R413). -/
def execMoveStart (src : Src) (site : Fin 128) (bank : Fin 64) (first last : BitVec 12) (dir : Bool) (width : BitVec 2)
    (s : State) : Host.Outcome State Fault Refusal :=
  .next (s.onWafer fun w =>
    if w.active site && w.bankAllowed src site bank then w.moveStart site bank first.toNat last.toNat dir width.toNat else w)

/-- MOVE_STEP (R412). -/
def execMoveStep (site : Fin 128) (bank : Fin 64) (s : State) : Host.Outcome State Fault Refusal :=
  .next (s.onWafer fun w => if w.active site then w.moveStep site bank else w)

/-- SCRUB_STEP (R400, R416): one row, and with the last row of a group its thumb vector. -/
def execScrubStep (site : Fin 128) (bank : Fin 64) (finds : RowCheck) (s : State) : Host.Outcome State Fault Refusal :=
  .next (s.onWafer fun w =>
    if !w.active site then w
    else
      let k := 64 * site.val + bank.val
      let r := Tab.look (fun _ => 0) w.asc.scrub k % 4096
      let w := { w with asc := { w.asc with scrub := Tab.put (fun _ => 0) w.asc.scrub k ((r + 1) % 4096) } }
      let w := match finds with
        | .clean => w
        | .corrected => w.latch (ascBlk site) F.ASC_EVT.ECC_FIXED
        | .uncorrectable => w.poisonRow site bank r
      if r % 64 = 63 then w.thumbExact site bank (r / 64) else w)

/-- POISON_REWRITE (R416, R458): Unhal rewrites the first poisoned row of a rotation group's or a loaded image's bank from
the image. The current half holds page PAGE, the other half the page that follows it. -/
def execPoisonRewrite (site : Fin 128) (bank : Fin 64) (s : State) : Host.Outcome State Fault Refusal :=
  .next (s.onWafer fun w =>
    match (w.bankBad site bank).head? with
    | none => w
    | some r =>
      if !w.active site then w
      else
        let src : Option Nat :=
          match w.rotOf site bank with
          | some (g, h) =>
            let k := rotBlk site g
            let cur := w.flag k F.CMD_ROT_CFG.HALF
            let n := w.get k F.CMD_ROT_CFG.MEMBERS
            let page := if h = cur then w.get k F.CMD_ROT_CFG.PAGE else (w.get k F.CMD_ROT_CFG.PAGE + 1) % n
            let first := w.get k (if h then F.CMD_ROT_BANKS.HALF_B else F.CMD_ROT_BANKS.HALF_A)
            some ((w.reg (k + 0x28)).toNat + page * w.get k F.CMD_ROT_SIZE.STRIDE + (bank.val - first) * 0x20000 + 32 * r)
          | none =>
            w.asc.ens.findSome? (fun e =>
              let x := e.2
              if x.first ≤ site.val && site.val < x.first + x.sites && x.bank ≤ bank.val && bank.val < x.bank + x.banks * x.replicas then
                some (x.image + x.page0 + (bank.val - x.bank) % x.banks * 0x20000 + 32 * r)
              else none)
        match src with
        | none => w
        | some a => if w.readStatus .unhal a 32 = stOk then w.putRows site bank r (w.load a 32) else w)

end Sys2Proof.Machine
end

