-- ==== Sys2Proof/Machine/Digest.lean ====
section
/-! DEFINITION. SHA-384 (FIPS 180-4) and ECDSA over P-384 (FIPS 186-4), which R153, R156 and R450 name without restating:
PRESUMED from the standards (log entry 51). -/

namespace Sys2Proof.Machine

def shaK0 : List Nat :=
  [0x428a2f98d728ae22, 0x7137449123ef65cd, 0xb5c0fbcfec4d3b2f, 0xe9b5dba58189dbbc, 0x3956c25bf348b538,
   0x59f111f1b605d019, 0x923f82a4af194f9b, 0xab1c5ed5da6d8118, 0xd807aa98a3030242, 0x12835b0145706fbe,
   0x243185be4ee4b28c, 0x550c7dc3d5ffb4e2, 0x72be5d74f27b896f, 0x80deb1fe3b1696b1, 0x9bdc06a725c71235,
   0xc19bf174cf692694, 0xe49b69c19ef14ad2, 0xefbe4786384f25e3, 0x0fc19dc68b8cd5b5, 0x240ca1cc77ac9c65]

def shaK1 : List Nat :=
  [0x2de92c6f592b0275, 0x4a7484aa6ea6e483, 0x5cb0a9dcbd41fbd4, 0x76f988da831153b5, 0x983e5152ee66dfab,
   0xa831c66d2db43210, 0xb00327c898fb213f, 0xbf597fc7beef0ee4, 0xc6e00bf33da88fc2, 0xd5a79147930aa725,
   0x06ca6351e003826f, 0x142929670a0e6e70, 0x27b70a8546d22ffc, 0x2e1b21385c26c926, 0x4d2c6dfc5ac42aed,
   0x53380d139d95b3df, 0x650a73548baf63de, 0x766a0abb3c77b2a8, 0x81c2c92e47edaee6, 0x92722c851482353b]

def shaK2 : List Nat :=
  [0xa2bfe8a14cf10364, 0xa81a664bbc423001, 0xc24b8b70d0f89791, 0xc76c51a30654be30, 0xd192e819d6ef5218,
   0xd69906245565a910, 0xf40e35855771202a, 0x106aa07032bbd1b8, 0x19a4c116b8d2d0c8, 0x1e376c085141ab53,
   0x2748774cdf8eeb99, 0x34b0bcb5e19b48a8, 0x391c0cb3c5c95a63, 0x4ed8aa4ae3418acb, 0x5b9cca4f7763e373,
   0x682e6ff3d6b2b8a3, 0x748f82ee5defb2fc, 0x78a5636f43172f60, 0x84c87814a1f0ab72, 0x8cc702081a6439ec]

def shaK3 : List Nat :=
  [0x90befffa23631e28, 0xa4506cebde82bde9, 0xbef9a3f7b2c67915, 0xc67178f2e372532b, 0xca273eceea26619c,
   0xd186b8c721c0c207, 0xeada7dd6cde0eb1e, 0xf57d4f7fee6ed178, 0x06f067aa72176fba, 0x0a637dc5a2c898a6,
   0x113f9804bef90dae, 0x1b710b35131c471b, 0x28db77f523047d84, 0x32caab7b40c72493, 0x3c9ebe0a15c9bebc,
   0x431d67c49c100d4c, 0x4cc5d4becb3e42b6, 0x597f299cfc657e2a, 0x5fcb6fab3ad6faec, 0x6c44198c4a475817]

def shaInit : List Nat :=
  [0xcbbb9d5dc1059ed8, 0x629a292a367cd507, 0x9159015a3070dd17, 0x152fecd8f70e5939,
   0x67332667ffc00b31, 0x8eb44a8768581511, 0xdb0c2e0d64f98fa7, 0x47b5481dbefa4fa4]

def shaRot (x n : Nat) : Nat := (x / 2 ^ n + x * 2 ^ (64 - n)) % 2 ^ 64

/-- The 80 schedule words of a block, from its 16 words; newest first while building. -/
def shaSchedule (l : List Nat) : List Nat :=
  ((List.range 64).foldl (fun (r : List Nat) _ =>
    let x := r.getD 14 0
    let y := r.getD 1 0
    let s0 := shaRot x 1 ^^^ shaRot x 8 ^^^ (x / 2 ^ 7)
    let s1 := shaRot y 19 ^^^ shaRot y 61 ^^^ (y / 2 ^ 6)
    ((r.getD 15 0 + s0 + r.getD 6 0 + s1) % 2 ^ 64) :: r) l.reverse).reverse

/-- One round on the working variables a–h. -/
def shaRound (v : List Nat) (k : Nat × Nat) : List Nat :=
  match v with
  | [a, b, c, d, e, f, g, h] =>
    let s1 := shaRot e 14 ^^^ shaRot e 18 ^^^ shaRot e 41
    let ch := (e &&& f) ^^^ ((2 ^ 64 - 1 - e) &&& g)
    let t1 := h + s1 + ch + k.1 + k.2
    let s0 := shaRot a 28 ^^^ shaRot a 34 ^^^ shaRot a 39
    let maj := (a &&& b) ^^^ (a &&& c) ^^^ (b &&& c)
    [(t1 + s0 + maj) % 2 ^ 64, a, b, c, (d + t1) % 2 ^ 64, e, f, g]
  | _ => v

def shaBlock (h : List Nat) (block : List Byte) : List Nat :=
  let w := (List.range 16).map (fun i => fromBE ((block.drop (8 * i)).take 8))
  let r := ((shaK0 ++ shaK1 ++ shaK2 ++ shaK3).zip (shaSchedule w)).foldl shaRound h
  List.zipWith (fun a b => (a + b) % 2 ^ 64) h r

/-- Blocks of a padded message; `n` bounds their number. -/
def shaBlocks : Nat → List Nat → List Byte → List Nat
  | 0, h, _ => h
  | n + 1, h, l => shaBlocks n (shaBlock h (l.take 128)) (l.drop 128)

/-- SHA-384 of a byte list: 48 bytes. -/
def sha384 (l : List Byte) : List Byte :=
  let n := l.length
  let pad := (239 - n % 128) % 128
  let m := l ++ (0x80 :: List.replicate pad 0) ++ toBE 16 (8 * n)
  ((shaBlocks (m.length / 128) shaInit m).flatMap (toBE 8)).take 48

/-! ### P-384 -/

def p384p : Nat := 2 ^ 384 - 2 ^ 128 - 2 ^ 96 + 2 ^ 32 - 1
def p384n : Nat := 0xffffffffffffffffffffffffffffffffffffffffffffffffc7634d81f4372ddf581a0db248b0a77aecec196accc52973
def p384b : Nat := 0xb3312fa7e23ee7e4988e056be3f82d19181d9c6efe8141120314088f5013875ac656398d8a2ed19d2a85c8edd3ec2aef
def p384g : Nat × Nat :=
  (0xaa87ca22be8b05378eb1c71ef320ad746e1d3b628ba79b9859f741e082542a385502f25dbf55296c3a545e3872760ab7,
   0x3617de4a96262c6f5d9e98bf9292dc29f8f41dbd289a147ce9da3113b5f0b8c00a60b1ce1d7e819d7a431d7c90ea0e5f)

/-- x^e mod m, by the e's bits from the top. -/
def powMod (x e m : Nat) : Nat :=
  (List.range 384).reverse.foldl (fun r i => if Nat.testBit e i then r * r % m * x % m else r * r % m) 1

/-- Addition on the curve; none is the point at infinity. -/
def p384Add (a b : Option (Nat × Nat)) : Option (Nat × Nat) :=
  match a, b with
  | none, q => q
  | p, none => p
  | some (x, y), some (u, v) =>
    let p := p384p
    let via (num den : Nat) : Option (Nat × Nat) :=
      let s := num % p * powMod (den % p) (p - 2) p % p
      let t := (s * s + 2 * p - x - u) % p
      some (t, (s * (x + p - t) + p - y) % p)
    if x = u then (if (y + v) % p = 0 then none else via (3 * (x * x + p - 1)) (2 * y)) else via (v + p - y) (u + p - x)

def p384Mul (k : Nat) (q : Option (Nat × Nat)) : Option (Nat × Nat) :=
  (List.range 384).reverse.foldl (fun r i => if Nat.testBit k i then p384Add (p384Add r r) q else p384Add r r) none

/-- The signature (r, s) by the public key (x, y) over a digest is valid. -/
def ecdsaOk (x y r s : Nat) (digest : List Byte) : Bool :=
  let p := p384p
  let n := p384n
  let onCurve := x < p && y < p && y * y % p == (x * x * x + p384b + (p - 3) * x) % p
  if !onCurve || r = 0 || n ≤ r || s = 0 || n ≤ s then false
  else
    let w := powMod s (n - 2) n
    match p384Add (p384Mul (fromBE digest * w % n) (some p384g)) (p384Mul (r * w % n) (some (x, y))) with
    | some q => q.1 % n == r
    | none => false

end Sys2Proof.Machine
end

