-- ==== Sys2Proof/Machine/Ensemble.lean ====
section
/-! DEFINITION. Tree ensembles (spec file 14: R450–R478): the load checks of an image, the gather operator block, the
combine of two operands and the ranking of score entries. Image references are in Assoc; loading is a call of Unhal. -/

namespace Sys2Proof.Machine

/-! ### The image (Tables ENS-1, ENS-2) -/

def iPath (h : List Byte) : Nat := leAt h 6 1
def iLeafFmt (h : List Byte) : Nat := leAt h 7 1
def iTrees (h : List Byte) : Nat := leAt h 8 4
def iKeys (h : List Byte) : Nat := leAt h 12 2
def iKeyFmt (h : List Byte) : Nat := leAt h 14 1
def iUnits (h : List Byte) : Nat := leAt h 15 1
def iDepth (h : List Byte) : Nat := leAt h 18 1
def iFlag (h : List Byte) (b : Nat) : Bool := Nat.testBit (leAt h 19 1) b
def iClasses (h : List Byte) : Nat := leAt h 20 2
def iTransform (h : List Byte) : Nat := leAt h 22 1
def iPages (h : List Byte) : Nat := leAt h 24 4
def iPerPage (h : List Byte) : Nat := leAt h 28 4
def iBanks (h : List Byte) : Nat := leAt h 32 4
def iSram (h : List Byte) : Nat := leAt h 36 4
def iStride (h : List Byte) : Nat := leAt h 40 4
def iResident (h : List Byte) : Nat := leAt h 44 4
def iDir (h : List Byte) : Nat := leAt h 48 8
def iResOff (h : List Byte) : Nat := leAt h 56 8
def iPage0 (h : List Byte) : Nat := leAt h 64 8
def iBytes (h : List Byte) : Nat := leAt h 72 8
def iNodeOff (h : List Byte) : Nat := leAt h 80 4
def iLeafOff (h : List Byte) : Nat := leAt h 84 4
def iBaseOff (h : List Byte) : Nat := leAt h 88 4
def iTableOff (h : List Byte) : Nat := leAt h 92 4
def iFeatOff (h : List Byte) : Nat := leAt h 96 4
def iFeatures (h : List Byte) : Nat := leAt h 100 2

/-- Leaf depth S of an ENTRY tree, FIELD_BITS, trees per bank by KEY_UNITS (R462, Table ENS-6). -/
def entryS (u : Nat) : Nat := match u with | 1 => 6 | 2 => 7 | _ => 8
def entryPerBank (u : Nat) : Nat := match u with | 1 => 64 | 2 => 16 | _ => 4

/-- The header is as in Table ENS-1, in the order of R450. -/
def imageHeaderOk (h : List Byte) : Bool :=
  let entry := iPath h == 0
  let wide := mKeyFmtOf (iKeyFmt h) == 0x0F
  let tabled := iTransform h == 1 || iTransform h == 3
  h.length == 4096 && leAt h 0 4 == 0x534E4556 && leAt h 4 2 == 1 && iPath h ≤ 2 &&
  (iLeafFmt h == 0x0C || iLeafFmt h == 6) && 1 ≤ iTrees h && iTrees h ≤ 65536 &&
  (fmtKey (iKeyFmt h) || (4 ≤ iKeyFmt h && iKeyFmt h ≤ 7) || (0x0A ≤ iKeyFmt h && iKeyFmt h ≤ 0x0C)) &&
  1 ≤ iKeys h && iKeys h ≤ (if wide then 512 else 1024) &&
  (if entry then iUnits h == 1 || iUnits h == 2 || iUnits h == 4 else iUnits h == 0) &&
  leAt h 16 2 % 8 == 0 && iDepth h ≤ 48 && (!entry || iDepth h ≤ entryS (iUnits h)) && leAt h 19 1 < 8 &&
  1 ≤ iClasses h && iClasses h ≤ 16 && iTransform h ≤ 3 &&
  (if iLeafFmt h = 6 then leAt h 23 1 ≤ 31 else leAt h 23 1 == 0) &&
  1 ≤ iPages h && iPages h ≤ 128 && (entry || iPages h == 1) &&
  (if entry then iPerPage h % 64 == 0 && iPerPage h != 0 && iTrees h ≤ iPages h * iPerPage h else iPerPage h == iTrees h) &&
  (if entry then 1 ≤ iBanks h && iBanks h ≤ 32 else iBanks h == 0) &&
  iSram h % 32768 == 0 && iStride h == iBanks h * 131072 + iSram h && iResident h % 4096 == 0 &&
  4096 ≤ iDir h && iDir h + 32 * iTrees h ≤ iResOff h && iResOff h % 4096 == 0 &&
  iResOff h + iResident h ≤ iPage0 h && iPage0 h % 4096 == 0 && iBytes h == iPage0 h + iPages h * iStride h &&
  iNodeOff h ≤ iResident h && (if entry then iLeafOff h == 0 else iLeafOff h ≤ iResident h) &&
  iBaseOff h + 4 * iClasses h ≤ iResident h && (if tabled then iTableOff h + 16 ≤ iResident h else iTableOff h == 0) &&
  (if iFlag h 1 then iFeatOff h + 16 * iFeatures h ≤ iResident h else iFeatOff h == 0) &&
  leAt h 102 2 == 0 && (h.drop 152).all (· == 0)
where
  /-- The key format of a value format (R353). -/
  mKeyFmtOf (c : Nat) : Nat := if fmtWidth c = 32 then 0x0F else 0x0E

/-- The record of tree t. -/
def treeRec (img : List Byte) (t : Nat) : List Byte := (img.drop (iDir img + 32 * t)).take 32

/-- Bytes of a node entry: NSTEP nodes take 16 (R466). -/
def nodeBytes (h : List Byte) : Nat := if iPath h = 2 then 16 else 8

/-- Tree t's record agrees with R452, R462 and R463. -/
def treeOk (img : List Byte) (t : Nat) : Bool :=
  let r := treeRec img t
  let entry := iPath img == 0
  let s := t % iPerPage img
  let u := iUnits img
  let leaves := 2 ^ (if entry then entryS u else iDepth img)
  leAt r 0 1 ≤ iDepth img && leAt r 1 1 ≤ 1 && (!iFlag img 0 || leAt r 1 1 == 1) && leAt r 2 2 == t / iPerPage img &&
  iNodeOff img + (leAt r 4 4 + leAt r 8 4) * nodeBytes img ≤ iResident img &&
  (iPath img == 2 || leAt r 16 4 == leaves) &&
  (entry || iLeafOff img + 4 * iClasses img * (leAt r 12 4 + leAt r 16 4) ≤ iResident img) &&
  (!entry || (leAt r 20 1 == s / entryPerBank u && leAt r 20 1 < iBanks img && leAt r 21 1 == s % 256 &&
    leAt r 22 2 == s % entryPerBank u * (2 ^ entryS u * u))) &&
  (r.drop 24).all (· == 0)

/-- Every node entry of tree t is sound (R354, R441). -/
def treeNodesOk (img : List Byte) (t : Nat) : Bool :=
  let r := treeRec img t
  let wide := imageHeaderOk.mKeyFmtOf (iKeyFmt img) == 0x0F
  (List.range (leAt r 8 4)).all (fun i =>
    let e := leAt img (iResOff img + iNodeOff img + (leAt r 4 4 + i) * nodeBytes img) 8
    if iPath img = 2 then
      e / 2 ^ 46 == 0 && Nat.testBit e 45 == wide && nodeOk (if wide then 0x0F else 0x0E) (iKeys img) (e % 2 ^ 45)
    else nodeOk (if wide then 0x0F else 0x0E) (iKeys img) e)

/-- Every leaf value of tree t agrees with its entry's ASSOC (R463). -/
def treeLeavesOk (img : List Byte) (t : Nat) : Bool :=
  let r := treeRec img t
  let u := iUnits img
  let page := iPage0 img + leAt r 2 2 * iStride img
  let s := t % iPerPage img
  (List.range (leAt r 16 4)).all (fun σ =>
    let row := (img.drop (page + leAt r 20 1 * 131072 + 32 * (leAt r 22 2 + u * σ))).take 32
    let slot := s * 2 ^ entryS u + σ
    let leaf := leAt img (page + iBanks img * 131072 + 512 + slot * iClasses img * 4) 4
    if rowValid row then leAt row 24 4 == (if iClasses img = 1 then leaf else slot)
    else iClasses img != 1 || leaf == 0)

/-- The refusal reason of R451 that the image earns, 0 for none; sites and room are checked by the call. -/
def imageReason (img : List Byte) : Nat :=
  let trees := List.range (iTrees img)
  if !imageHeaderOk (img.take 4096) then 1
  else if (img.drop 104).take 48 ≠ sha384 ((img.take (iBytes img)).drop 4096) then 2
  else if !trees.all (treeOk img) then 3
  else if !trees.all (treeNodesOk img) then 4
  else if iPath img = 0 && !trees.all (treeLeavesOk img) then 5
  else 0

/-! ### Ranking (R475, R476) -/

/-- Group of a score entry: numeric, NaN, EMPTY. -/
def scoreGroup (int : Bool) (e : List Byte) : Nat :=
  if Nat.testBit (leAt e 4 2) 3 then 2 else if !int && isNaN 0x0C (leAt e 0 4) then 1 else 0

/-- Entry a ranks strictly before entry b. -/
def scoreBefore (int : Bool) (a b : List Byte) : Bool :=
  let ga := scoreGroup int a
  let gb := scoreGroup int b
  let c := if int then 6 else 0x0C
  let tie : Bool :=
    let ia := leAt a 8 8
    let ib := leAt b 8 8
    ia < ib || (ia == ib && leAt a 4 4 < leAt b 4 4)
  if ga ≠ gb then ga < gb
  else if ga ≠ 0 then tie
  else if fmtLt c false (leAt b 0 4) (leAt a 0 4) then true
  else if fmtLt c false (leAt a 0 4) (leAt b 0 4) then false
  else tie

/-- Insert an entry in rank order. -/
def rankIns (int : Bool) (e : List Byte) : List (List Byte) → List (List Byte)
  | [] => [e]
  | x :: r => if scoreBefore int e x then e :: x :: r else x :: rankIns int e r

/-- Entries in rank order. -/
def ranked (int : Bool) (l : List (List Byte)) : List (List Byte) := l.foldl (fun r e => rankIns int e r) []

/-- Cut a byte list into n pieces of k bytes. -/
def chunks (k : Nat) : Nat → List Byte → List (List Byte)
  | 0, _ => []
  | n + 1, l => l.take k :: chunks k n (l.drop k)

/-- The EMPTY entry. -/
def emptyScore : List Byte := toLE 4 0x7FC00000 ++ toLE 2 8 ++ toLE 2 0 ++ toLE 8 (2 ^ 64 - 1)

/-- NAN_SCORE is set in an entry whose SCORE is NaN (R475). -/
def markNaN (int : Bool) (e : List Byte) : List Byte :=
  if scoreGroup int e = 1 then patch e 4 (toLE 2 (leAt e 4 2 ||| 4)) else e

/-! ### Gather operators (R474) -/

def gOp (p : List Byte) : Nat := leAt p 0 1
def gK (p : List Byte) : Nat := leAt p 2 2
def gTop (p : List Byte) : Bool := gOp p == 3 || gOp p == 4
def gInt (p : List Byte) : Bool := gOp p == 2 || gOp p == 4

/-- Operand size, or none for a bad block: `records` and `out` of the preceding stage. -/
def gatherSize (p : List Byte) (records out : Nat) : Option Nat :=
  let rest := leAt p 1 1 == 0 && (p.drop 4).all (· == 0)
  match gOp p with
  | 1 | 2 => if rest && gK p == 0 && records * out % 4 == 0 then some (records * out) else none
  | 3 | 4 => if rest && 1 ≤ gK p && gK p ≤ 1024 && out == 16 then some (16 * gK p) else none
  | _ => none

/-- A participant's own operand: SUM as it is, TOPK its first K entries, padded (R476). -/
def gatherOwn (p : List Byte) (input : List Byte) : List Byte :=
  if gTop p then
    let l := (ranked (gInt p) ((chunks 16 (input.length / 16) input).map (markNaN (gInt p)))).take (gK p)
    (l ++ List.replicate (gK p - l.length) emptyScore).flatten
  else input

/-- Combine two operands, left first (R149, R474, R476). -/
def gatherCombine (p : List Byte) (ftz : Bool) (a b : List Byte) : List Byte × Flags :=
  if gTop p then
    ((ranked (gInt p) (chunks 16 (a.length / 16) a ++ chunks 16 (b.length / 16) b)).take (gK p) |>.flatten, fNone)
  else
    let f := if gInt p then 6 else 0x0C
    let r := List.zipWith (fun x y => accOp 1 f ftz (fromLE x) (fromLE y)) (chunks 4 (a.length / 4) a) (chunks 4 (b.length / 4) b)
    (r.flatMap (fun x => toLE 4 x.1), r.foldl (fun f x => f ||| x.2) fNone)

end Sys2Proof.Machine
end

