-- ==== Sys2Proof/Machine/Records.lean ====
section
/-! DEFINITION. Command records and what they hold (R244, R311–R313, R505): fields of descriptors, headers and stage words,
the record bytes, the record store, the resources a command's stages use with their leave (R445, R479), and slack
(R50–R53). -/

namespace Sys2Proof.Machine

/-! ### Stage words (Table CMD-3) -/

def sgKind (g : List Byte) : Nat := leAt g 0 1 % 16
def sgPass (g : List Byte) : Nat := leAt g 0 1 / 16 % 4
def sgEngine (g : List Byte) : Nat := leAt g 1 1
def sgCredits (g : List Byte) : Nat := leAt g 2 1
def sgCores (g : List Byte) : Nat := leAt g 3 1
def sgOut (g : List Byte) : Nat := leAt g 4 4
def sgParam (g : List Byte) : Nat := leAt g 8 8
def sgLeave (g : List Byte) : Nat := leAt g 16 2
def sgAccOp (g : List Byte) : Nat := leAt g 18 1
def sgAccFmt (g : List Byte) : Nat := leAt g 19 1
def sgArgA (g : List Byte) : Nat := leAt g 24 8
def sgArgB (g : List Byte) : Nat := leAt g 32 8

/-- Stage kinds (Table CMD-4). -/
abbrev kFetch : Nat := 0
abbrev kCore : Nat := 1
abbrev kMatrix : Nat := 2
abbrev kSearch : Nat := 3
abbrev kGather : Nat := 4
abbrev kEmit : Nat := 5
abbrev kTransfer : Nat := 6
abbrev kAtomic : Nat := 7

namespace Cmd

/-! ### Descriptor (Table QUE-5), operands (Table CMD-1), header (Table CMD-2) -/

def opcode (c : Cmd) : Nat := leAt c.desc 0 1
def fused (c : Cmd) : Bool := c.opcode == 1
def dlValid (c : Cmd) : Bool := Nat.testBit (leAt c.desc 1 1) 2
def runLate (c : Cmd) : Bool := Nat.testBit (leAt c.desc 1 1) 3
def fenceBefore (c : Cmd) : Bool := Nat.testBit (leAt c.desc 1 1) 4
def ftz (c : Cmd) : Bool := Nat.testBit (leAt c.desc 1 1) 5
def dlCounter (c : Cmd) : Nat := leAt c.desc 2 1
def stageCount (c : Cmd) : Nat := leAt c.desc 3 1
def dlPos (c : Cmd) : Nat := leAt c.desc 8 6
def userTag (c : Cmd) : Nat := leAt c.desc 16 8
def body (c : Cmd) : Nat := leAt c.desc 24 8
def input (c : Cmd) : Nat := leAt c.desc 32 8
def records (c : Cmd) : Nat := leAt c.desc 40 4
def cost (c : Cmd) : Nat := leAt c.desc 44 4
def output (c : Cmd) : Nat := leAt c.desc 48 8
def rotSlot (c : Cmd) : Option Nat :=
  if c.fused && Nat.testBit (leAt c.desc 56 2) 15 then some (leAt c.desc 56 2 % 16) else none
/-- The DATA ring that INPUT names (R311). -/
def dataRing (c : Cmd) : Option Nat := if c.fused && Nat.testBit c.input 63 then some (c.input % 2 ^ 18) else none
/-- COPY operands (Table QUE-6). -/
def copyDest (c : Cmd) : Nat := leAt c.desc 32 8
def copyLen (c : Cmd) : Nat := leAt c.desc 40 8

def recordBytes (c : Cmd) : Nat := leAt c.header 0 2
def mbRecords (c : Cmd) : Nat := leAt c.header 2 2
def staging (c : Cmd) : Nat := leAt c.header 8 8
def stagingBytes (c : Cmd) : Nat := leAt c.header 16 4
def scratch (c : Cmd) : Nat := leAt c.header 24 8
def scratchBytes (c : Cmd) : Nat := leAt c.header 32 4

def stage (c : Cmd) (s : Nat) : List Byte := c.stages.getD s []
def kindOf (c : Cmd) (s : Nat) : Nat := if s < c.stages.length then sgKind (c.stage s) else 15
def passOf (c : Cmd) (s : Nat) : Nat := sgPass (c.stage s)

/-- Pipeline stages come first; the others are commit stages (R313, R314). -/
def pipeline (c : Cmd) : Nat := (c.stages.filter (fun g => sgKind g ≤ 5)).length
/-- Micro-batches, and the records of one (R316). -/
def batches (c : Cmd) : Nat := (c.records + c.mbRecords - 1) / max 1 c.mbRecords
def mbLen (c : Cmd) (k : Nat) : Nat := min c.mbRecords (c.records - k * c.mbRecords)
/-- Input bytes per record of a stage (R432). -/
def inBytes (c : Cmd) (s : Nat) : Nat := if s ≤ 1 then c.recordBytes else sgOut (c.stage (s - 1))
/-- A stage that follows GATHER in the pipeline: its records are the ones the gather delivers (R330, R476). -/
def afterGather (c : Cmd) (s : Nat) : Bool := (List.range s).any (fun t => c.kindOf t == kGather) && c.kindOf s ≤ 5
/-- Records that reach a stage. -/
def recsAt (c : Cmd) (s : Nat) : Nat :=
  if c.afterGather s then ((c.run.bind (·.gathered)).getD c.records) else c.records
def mbLenAt (c : Cmd) (s k : Nat) : Nat := min c.mbRecords (c.recsAt s - k * c.mbRecords)
/-- Micro-batches of a stage; an empty output of GATHER is one empty micro-batch (R330). -/
def batchesAt (c : Cmd) (s : Nat) : Nat := max 1 ((c.recsAt s + c.mbRecords - 1) / max 1 c.mbRecords)
/-- Units of a stage: one for GATHER, COPY and the commit stages (R316). -/
def unitsOf (c : Cmd) (s : Nat) : Nat := if c.fused then (if c.kindOf s = kGather then 1 else c.batchesAt s) else 1
/-- First PAGE stage, last PRE stage and last PAGE stage of a rotating command (R332). -/
def firstPage (c : Cmd) : Nat := ((List.range c.pipeline).find? (fun s => c.passOf s == 2)).getD 0
def lastPage (c : Cmd) : Nat := c.firstPage + ((List.range c.pipeline).filter (fun s => c.passOf s == 2)).length - 1

/-- Bytes of the boundary, and where partial p lies after it (R332). -/
def boundaryBytes (c : Cmd) : Nat := c.records * c.inBytes c.firstPage
def partialOff (c : Cmd) (p : Nat) : Nat :=
  (c.boundaryBytes + 255) / 256 * 256 + p * (c.records * sgOut (c.stage c.lastPage))

/-- Slot bytes taken from the home engine's stage buffer (R317): the output slots, but those of CORE stages. -/
def slotSpace (c : Cmd) : Nat :=
  ((List.range c.pipeline).map (fun s =>
    if c.kindOf s = kCore then 0 else sgCredits (c.stage s) * (c.mbRecords * sgOut (c.stage s)))).foldl (· + ·) 0

/-- STATE of the record (Table FLT-4). -/
def stCode (c : Cmd) : Nat :=
  match c.st with | .accepted => 1 | .running => 2 | .aborted => 3 | .committing => 4 | .final => 5

/-- The record's 1,024 bytes (Table FLT-4). -/
def bytes (wafer : Nat) (c : Cmd) : List Byte :=
  toLE 1 c.stCode ++ toLE 1 c.replays ++ toLE 1 c.vol ++
  toLE 1 (c.cls + (if c.defWritten then 4 else 0) + (if c.buddyRun then 8 else 0)) ++ toLE 2 c.ring ++
  toLE 2 (c.home + wafer * 128) ++ toLE 4 c.descIndex ++ toLE 4 c.complIndex ++ toLE 8 c.acceptRef ++ toLE 8 c.firstStart ++
  toLE 8 (match c.claim with | some x => x.1 + 2 ^ 18 + x.2 % 2 ^ 32 * 2 ^ 32 | none => 0) ++ toLE 2 c.atomics.toNat ++
  toLE 2 c.lastFault ++ toLE 4 0 ++ toLE 8 c.lastDetail.toNat ++ toLE 8 0 ++ fit 64 c.desc ++
  fit 64 c.header ++ fit 512 (c.stages.flatMap (fit 64)) ++ fit 32 c.final ++ List.replicate 288 0

/-- Waiting at admission (R293, R511): accepted and validated, or aborted and to run again; not held by a rebuild (R335),
nor for want of a free own record at a replay site (Table FLT-7). -/
def waiting (c : Cmd) : Bool :=
  decide (c.idx < 1024) && !c.rebuild && ((c.st == .accepted && c.listRead) || (c.st == .aborted && c.aborting.isNone))

/-- Open: no final completion yet (R291). -/
def isOpen (c : Cmd) : Bool := c.st != .final

end Cmd

namespace Wafer

/-! ### The record store (R503–R508) -/

def cmd? (w : Wafer) (site idx : Nat) : Option Cmd := w.cmds.find? (fun c => c.site == site && c.idx == idx)

/-- Replace a command's record; a change of the record has yet to reach the mirror (R506). -/
def setCmd (w : Wafer) (c : Cmd) : Wafer :=
  { w with cmds := w.cmds.map (fun x => if x.site == c.site && x.idx == c.idx then c else x) }

def dropCmd (w : Wafer) (site idx : Nat) : Wafer :=
  { w with cmds := w.cmds.filter (fun x => !(x.site == site && x.idx == idx)) }

/-- A change of a command's record: it has yet to reach the mirror (R506). -/
def recChange (w : Wafer) (c : Cmd) : Wafer := w.setCmd { c with mirrored := false }

def setRun (w : Wafer) (c : Cmd) (r : Run) : Wafer := w.setCmd { c with run := some r }

def siteCmds (w : Wafer) (site : Nat) : List Cmd := w.cmds.filter (fun c => c.site == site)

/-- Open commands of a volume on a site (Table VOL-7, R291). -/
def openCmds (w : Wafer) (site vol : Nat) : Nat :=
  (w.cmds.filter (fun c => c.site == site && c.vol == vol && c.isOpen)).length

/-- Free own records (R504). -/
def freeIdx (w : Wafer) (site : Nat) : Option Nat :=
  let used := (w.siteCmds site).map (·.idx)
  (List.range 1024).find? (fun i => !used.contains i)

/-- The mirror record number of an own record at the buddy (R503). -/
def mirrorIdx (w : Wafer) (site idx : Nat) : Nat :=
  1024 + ((w.mirrored (w.buddy site)).findIdx (· == site)) * 1024 + idx

/-- Bytes of record r of a site's record store (R503). -/
def recordAt (w : Wafer) (site r : Nat) : List Byte :=
  if r < 1024 then
    match w.cmd? site r with
    | some c => c.bytes w.col.wafer
    | none => List.replicate 1024 0
  else
    match (w.mirrored site)[r / 1024 - 1]? with
    | none => List.replicate 1024 0
    | some s =>
      match w.cmd? s (r % 1024) with
      | some c => fit 1024 c.mir
      | none => List.replicate 1024 0

/-! ### Resources and leave -/

/-- What a unit of stage s knows (R456, R517). -/
def ctxOf (_w : Wafer) (c : Cmd) (s : Nat) : Ctx :=
  { home := c.home, site := c.site, vol := c.vol, stage := s, rot := c.rotSlot,
    half := (match c.run with | some r => r.half | none => false), page := c.passOf s == 2, buddy := c.buddyRun }

/-- The address of an offset of an own site, and of a memory key of the own wafer. -/
def ownAddr (w : Wafer) (k : Nat) : Nat := k + w.col.wafer * 2 ^ 56

/-- Where a command's boundary and partials lie, and its staging area (R332, R517). -/
def scratchAt (w : Wafer) (c : Cmd) : Nat :=
  match c.run with
  | some r => if c.buddyRun then w.ownAddr (dieAddr c.site (r.reloc + c.stagingBytes)) else c.scratch
  | none => c.scratch
def stagingAt (w : Wafer) (c : Cmd) : Nat :=
  match c.run with
  | some r => if c.buddyRun then w.ownAddr (dieAddr c.site r.reloc) else c.staging
  | none => c.staging

/-- The authority over a command's own areas: its volume's, or the device's in the replay area (R517). -/
def areaSrc (c : Cmd) : Src := if c.buddyRun then .unhal else volSrc c.vol

/-- A stage names the own wafer no more. -/
def farAddr (w : Wafer) (a : Nat) : Bool := (adRegion a == 0 || adRegion a == 2) && adWafer a != w.col.wafer

/-- LU of moving n bytes between addresses (Table LVE-1): SPINE, HBM, or TRANSFER within die space. -/
def moveLu (w : Wafer) (n : Nat) (l : List Nat) (transfer : Bool) : Option Nat :=
  if n ≤ 2 ^ 20 then none
  else if l.any w.farAddr then some 32
  else if l.any (fun a => adRegion a == 2) then some 24
  else if transfer && l.all (fun a => adRegion a == 0) then some 16
  else none

/-- Full-rate figure of a matrix program (Table LVE-1), by its wider operand (log entry 52). -/
def matrixLu (p : List Byte) : Nat :=
  match mMode p with
  | 0 => (match max (fmtWidth (mA p)) (fmtWidth (mB p)) with | 4 => 57 | 8 => 57 | 16 => 52 | _ => 40)
  | 1 => 62
  | 2 => 57
  | _ => 48

/-- Where the records of a command come from. -/
def inputBase (w : Wafer) (c : Cmd) : Nat :=
  match c.dataRing with | some id => (w.reg (ringBlk (id / 2048) (id % 2048))).toNat | none => c.input

/-- The resource of stage s under home engine e, and the LU it asks when it is heavy (R445, R479, R484; log entry 53). -/
def heavy (w : Wafer) (c : Cmd) (e s : Nat) : Option (Nat × Nat) :=
  let g := c.stage s
  let x := w.ctxOf c s
  let ask (res lu : Nat) : Option (Nat × Nat) := some (res, if sgLeave g = 0 then lu else sgLeave g)
  let cluster := if sgEngine g = 0xFF then 11 else sgEngine g
  if c.opcode = 2 then (w.moveLu c.copyLen [c.body, c.copyDest] true).map (fun lu => (104 + 11, lu))
  else if !c.fused then none
  else
    match c.kindOf s with
    | 0 => (w.moveLu (c.records * c.recordBytes) [w.inputBase c] false).bind (ask (96 + e))
    | 2 => match w.fetch x (sgParam g) 64 with | .ok p => ask e (matrixLu p) | .error _ => none
    | 3 =>
      match w.fetch x (sgParam g) 64 with
      | .ok p =>
        let b := sReach p - sFirst p
        if b ≤ 8 then none else ask (16 + (w.searchBase { x with half := false } + sFirst p) % 64) ((35 * b + 1) / 2)
      | .error _ => none
    | 6 => (w.moveLu (sgArgB g) [sgParam g, sgArgA g] true).bind (ask (104 + cluster))
    | _ => none

/-- The heavy stages of a command under home engine e: stage, resource, LU. -/
def heavies (w : Wafer) (c : Cmd) (e : Nat) : List (Nat × Nat × Nat) :=
  (List.range (if c.fused then c.stages.length else 1)).filterMap (fun s => (w.heavy c e s).map (fun x => (s, x)))

/-- Free bytes of engine e's stage buffer at a site (R317), and commands homed on it. -/
def sbufFree (w : Wafer) (site e : Nat) : Nat :=
  2 ^ 21 - ((w.siteCmds site).map (fun c => match c.run with
    | some r => if r.eng = e then r.space else 0 | none => 0)).foldl (· + ·) 0
def sbufHomed (w : Wafer) (site e : Nat) : Nat :=
  ((w.siteCmds site).filter (fun c => match c.run with | some r => c.fused && r.eng == e | none => false)).length

/-- The home engine a FUSED command is bound to (R317): named by its first MATRIX stage, else the one with the most free
stage buffer, the lowest on a tie. -/
def homeEngine (w : Wafer) (c : Cmd) : Nat :=
  let free := (List.range 8).foldl (fun b e => if w.sbufFree c.site b < w.sbufFree c.site e then e else b) 0
  match c.stages.find? (fun g => sgKind g == kMatrix) with
  | some g => if sgEngine g = 0xFF then free else sgEngine g
  | none => free

/-- The engine of a command: bound, or the one it would be bound to now. -/
def engOf (w : Wafer) (c : Cmd) : Nat := match c.run with | some r => r.eng | none => w.homeEngine c

/-- A unit of the command runs on a resource now; a unit on a preempted engine does not run. -/
def runsOn (w : Wafer) (c : Cmd) (res : Nat) : Bool :=
  match c.run with
  | none => false
  | some r => r.units.any (fun u => u.res == res &&
      (8 ≤ res || ((Tab.look (fun _ => Eng.init) w.eng (8 * c.site + res)).on.any (fun o => o.idx == c.idx))))

/-! ### Slack (R50–R53) -/

/-- Image position used for slack, prediction and judgement (R53): extrapolated from the held rate while STALE, rounded up
to a whole ft. -/
def imgPos (w : Wafer) (site ctr : Nat) : Nat :=
  let i := imgKey site ctr
  let p := w.get i F.FOL_IMG.POSITION
  if w.flag i F.FOL_IMG.STALE then
    let age := since (w.lastSeen site (ctr / 16)) (w.refcount site)
    (p + ((w.reg (imgHeldKey site ctr)).toNat * age + (100 * 2 ^ 32 - 1)) / (100 * 2 ^ 32)) % 2 ^ 48
  else p

/-- The position `us` microseconds on, by the held rate, rounded up to a whole ft (R296). -/
def posAfter (w : Wafer) (site ctr us : Nat) : Nat :=
  (w.imgPos site ctr + ((w.reg (imgHeldKey site ctr)).toNat * us + (2 ^ 32 - 1)) / 2 ^ 32) % 2 ^ 48

/-- The effective deadline (R50). -/
def deadline (w : Wafer) (c : Cmd) : Nat :=
  pos48 ((c.dlPos : Int) - w.get (cntBlk c.dlCounter) F.FOL_CNT_GUARD.VAL)

/-- Slack in ft (R50). -/
def slackFt (w : Wafer) (c : Cmd) : Int := diff48 (w.deadline c) (w.imgPos c.site c.dlCounter)

/-- Slack in µs (R51); without a deadline 2^31 − 1 (R293). -/
def slackUs (w : Wafer) (c : Cmd) : Int :=
  let top : Int := 2 ^ 31 - 1
  if !c.dlValid then top
  else
    let d := w.slackFt c
    let h := (w.reg (imgHeldKey c.site c.dlCounter)).toNat
    if h = 0 then (if 0 < d then top else if d = 0 then 0 else -top)
    else max (-top) (min top (Int.tdiv (d * 2 ^ 32) h))

end Wafer
end Sys2Proof.Machine
end

