-- ==== Sys2Proof/Machine/Leave.lean ====
section
/-! DEFINITION. Leave and heat (spec file 15: R479–R497): the pool, the conditions of a grant, recalls, tails, the ramp,
thermal steps, and the stewards' registers. Pacing (R481) and the order of array starts (R491) change timing only. -/

namespace Sys2Proof.Machine

/-- Denial reasons (Table LVE-2). -/
abbrev dEnvelope : Nat := 1
abbrev dClass : Nat := 2
abbrev dSite : Nat := 3
abbrev dThermal : Nat := 4
abbrev dVolSite : Nat := 5
abbrev dVolWafer : Nat := 6
abbrev dBad : Nat := 8

def sumOf (l : List Nat) : Nat := l.foldl (· + ·) 0

/-- Insertion sort by a strict order, stable. -/
def sortBy {α : Type} (lt : α → α → Bool) (l : List α) : List α :=
  l.foldl (fun acc x => ins x acc) []
where
  ins : α → List α → List α
    | x, [] => [x]
    | x, y :: r => if lt x y then x :: y :: r else y :: ins x r

namespace Wafer

/-! ### Policy and pool (R488, R489) -/

def siteMax (w : Wafer) : Nat := (w.rib32 0x49).toNat % 2 ^ 10
def grantMax (w : Wafer) : Nat := (w.rib32 0x4B).toNat % 2 ^ 12
def rampLu (w : Wafer) : Nat := 40 * ((w.rib32 0x4C).toNat % 2 ^ 16)
def share (w : Wafer) (c : Nat) : Nat := (w.rib32 0x4A).toNat / 2 ^ (8 * c) % 256

/-- The envelope E in W (R488). -/
def envelope (w : Wafer) : Nat := min (10 * ((w.rib32 0x48).toNat % 2 ^ 16)) (1000 * w.capKw)

/-- P in LU, from the envelope in force (R488). -/
def pool (w : Wafer) : Nat := 32 * w.lve.env / 10 - 140 * w.activeSites.length

def setLve (w : Wafer) (f : Lve → Lve) : Wafer := { w with lve := f w.lve }

/-- LU of the grants that satisfy `p`. -/
def luOf (w : Wafer) (p : Grant → Bool) : Nat := sumOf ((w.lve.grants.filter p).map (·.lu))

/-- LU asked by waiting requests of a class (R489). -/
def waitingLu (w : Wafer) (c : Nat) : Nat := sumOf ((w.lve.waits.filter (fun r => r.cls == c)).map (·.lu))

/-- Charge of a site: the floor and, per resource, its largest grant (R480). -/
def charge (w : Wafer) (site : Nat) (p : Grant → Bool) (extra : List (Nat × Nat)) : Nat :=
  let l := (w.lve.grants.filter (fun g => g.site == site && p g)).map (fun g => (g.res, g.lu)) ++ extra
  let t : Tab Nat := l.foldl (fun t x => Tab.put (fun _ => 0) t x.1 (max x.2 (Tab.look (fun _ => 0) t x.1))) []
  140 + sumOf (t.map (·.2))

/-! ### Steps (R492, R493) -/

def measStep (w : Wafer) (site : Nat) : Nat := Tab.look (fun _ => 0) w.lve.meas site

/-- The thermal step in force: measured, or forced higher (ASC_STEP). -/
def thermStep (w : Wafer) (site : Nat) : Nat :=
  max (w.measStep site) (if w.flag (lveBlk site) F.LVE_SITE_CFG.FORCE_EN then w.get (lveBlk site) F.LVE_SITE_CFG.FORCE_STEP else 0)

/-- The compute-die clock step: the thermal step, or 4 under EMERGENCY (R490). -/
def clkStep (w : Wafer) (site : Nat) : Nat := max (w.thermStep site) (if w.lve.emergency then 4 else 0)

/-- The thermal ceiling of Table LVE-3. -/
def ceiling (w : Wafer) (site : Nat) : Nat := if w.thermStep site = 4 then min w.siteMax 500 else w.siteMax

/-- A time of full rate stretched by the clock step, rounded up (R296, Table LVE-3). -/
def stretched (step d : Nat) : Nat :=
  let rate := match step with | 0 => 10 | 1 => 9 | 2 => 8 | 3 => 7 | _ => 5
  (d * 10 + rate - 1) / rate

/-- Note a change of the thermal step in force (Table LVE-4, RIB-11). -/
def stepChanged (w : Wafer) (site old : Nat) : Wafer :=
  let new := w.thermStep site
  if old < new then (w.latch (lveBlk site) F.LVE_SITE_EVT.STEP_UP).alert 12
  else if new < old then (w.latch (lveBlk site) F.LVE_SITE_EVT.STEP_DOWN).alert 12
  else w

/-! ### The conditions of a grant (R483) -/

/-- The first condition a request fails, with the LU over it; 0 if none. Grants in `skip` are taken as gone. LU held for
other requests count against it (R486). -/
def leaveFails (w : Wafer) (r : LWait) (skip : Grant → Bool) : Nat × Nat :=
  let on (g : Grant) : Bool := !skip g
  let p := w.pool
  let c := w.charge r.site on [(r.res, r.lu)]
  let others := sumOf ((w.lve.waits.filter (fun x => x.id != r.id)).map (·.hold))
  let g := w.luOf on
  let weaker := w.luOf (fun x => on x && decide (r.cls ≤ x.cls))
  let back := sumOf ((List.range r.cls).map (fun s =>
    min (w.share s * p) (100 * (w.luOf (fun x => on x && x.cls == s) + w.waitingLu s))))
  if r.lu = 0 || 600 < r.lu || r.dur = 0 || 2000 < r.dur then (dBad, 0)
  else if w.ceiling r.site < w.siteMax && w.ceiling r.site < c then (dThermal, 0)
  else if w.siteMax < c then (dSite, 0)
  else if r.vol ≠ 0 && w.volField r.vol 3 20 10 < w.luOf (fun x => on x && x.site == r.site && x.vol == r.vol) + r.lu then
    (dVolSite, 0)
  else if r.vol ≠ 0 && 40 * w.volField r.vol 3 32 11 < w.luOf (fun x => on x && x.vol == r.vol) + r.lu then (dVolWafer, 0)
  else if p < g + r.lu + others then (dEnvelope, g + r.lu + others - p)
  else if 100 * p < 100 * (weaker + r.lu + others) + back then (dClass, (100 * (weaker + r.lu + others) + back - 100 * p + 99) / 100)
  else (0, 0)

/-- AVAIL_US (R483): from now to the first expiry, in expiry order, after which the request would be granted. -/
def availUs (w : Wafer) (r : LWait) : Option Nat :=
  let live := sortBy (fun a b : Grant => decide (a.expiry < b.expiry)) (w.lve.grants.filter (fun g => !g.tail))
  (List.range live.length).findSome? (fun i =>
    let gone := live.take (i + 1)
    if (w.leaveFails r (fun g => gone.contains g)).1 = 0 then
      (live[i]?).map (fun g => (since w.now g.expiry + 99) / 100)
    else none)

/-! ### Grants end (R485–R487, R490) -/

/-- G no longer exceeds P: the force is lifted (R490). -/
def leaveSettle (w : Wafer) : Wafer :=
  if w.granted ≤ w.pool then w.setLve (fun l => { l with excess := none, emergency := false }) else w

/-- A grant ends; LU freed by a recall are held for the request that caused it (R486). -/
def freeGrant (w : Wafer) (g : Grant) : Wafer :=
  (w.setLve (fun l =>
    { l with grants := l.grants.filter (fun x => x ≠ g),
             waits := l.waits.map (fun r => if g.forReq = some r.id then { r with hold := r.hold + g.lu } else r) })).leaveSettle

def setGrant (w : Wafer) (g g' : Grant) : Wafer :=
  w.setLve (fun l => { l with grants := l.grants.map (fun x => if x = g then g' else x) })

def grantOf (w : Wafer) (site h : Nat) : Option Grant := w.lve.grants.find? (fun g => g.site == site && g.handle == h)

/-- A unit runs on the resource for the grant's command. -/
def grantBusy (w : Wafer) (g : Grant) : Bool :=
  match g.owner with
  | some i => (w.cmd? g.site i).any (fun c => w.runsOn c g.res)
  | none => false

/-- A grant enters its tail; with no unit running on its resource it ends (R485, R486). -/
def enterTail (w : Wafer) (g : Grant) : Wafer :=
  if w.grantBusy g then w.setGrant g { g with tail := true } else w.freeGrant g

/-- The unit on a resource has ended: a grant in its tail ends (R485). -/
def tailEnds (w : Wafer) (site res idx : Nat) : Wafer :=
  (w.lve.grants.filter (fun g => g.site == site && g.res == res && g.tail && g.owner == some idx)).foldl freeGrant w

/-- Everything the site holds or asks that satisfies the tests is returned or withdrawn (R487). -/
def dropLeave (w : Wafer) (p : Grant → Bool) (q : LWait → Bool) : Wafer :=
  let w := w.setLve (fun l => { l with waits := l.waits.filter (fun r => !q r) })
  (w.lve.grants.filter p).foldl freeGrant w

/-- A command's leave for one resource, or for all. -/
def returnLeave (w : Wafer) (site idx : Nat) (p : Nat → Bool) : Wafer :=
  w.dropLeave (fun g => g.site == site && g.owner == some idx && p g.res) (fun r => r.site == site && r.owner == some idx && p r.res)

/-! ### Decisions (R482–R491) -/

/-- Start recalls of at least `need` LU among the grants that satisfy `p`, in the order of R486. -/
def startRecalls (w : Wafer) (need : Nat) (id : Option Nat) (p : Grant → Bool) : Wafer :=
  let order := sortBy (fun a b : Grant =>
    decide (b.cls < a.cls) || (a.cls == b.cls && (decide (b.lu < a.lu) || (a.lu == b.lu &&
      (decide (b.decided < a.decided) || (a.decided == b.decided && decide (b.site < a.site)))))))
    (w.lve.grants.filter (fun g => !g.tail && p g))
  (order.foldl (fun (x : Nat × Wafer) g =>
    if need ≤ x.1 then x
    else
      (x.1 + g.lu, ((x.2.setGrant g { g with tail := true, forReq := id }).bump lveWBlk F.LVE_W_CNT.RECALLS).send
        (.leaveRecall g.site g.handle))) (0, w)).2

/-- LU of recalls under way for a request. -/
def recalling (w : Wafer) (id : Nat) : Nat := w.luOf (fun g => g.tail && g.forReq == some id)

/-- A handle for a new grant (R482): the spec leaves its number open. -/
def newHandle (w : Wafer) (site : Nat) : Nat × Wafer :=
  let f := w.fresh
  let used (h : Nat) : Bool := h == 0 || (w.lve.grants.any (fun g => g.site == site && g.handle == h))
  let h := f.1.toNat % 65536
  (if used h then ((List.range 65536).find? (fun x => !used x)).getD h else h, f.2)

/-- Grant a waiting request (R482, R491). -/
def grantLeave (w : Wafer) (r : LWait) : Wafer :=
  let h := w.newHandle r.site
  let d := min r.dur w.grantMax
  let g : Grant := { site := r.site, res := r.res, handle := h.1, cls := r.cls, vol := r.vol, lu := r.lu, decided := w.now,
                     expiry := w.now + us d, dur := us d, tail := false, arrived := false, asked := false,
                     owner := r.owner, forReq := none }
  (((h.2.setLve (fun l => { l with grants := l.grants ++ [g], waits := l.waits.filter (fun x => x.id != r.id),
                                   win := w.now / 1000,
                                   spent := (if l.win = w.now / 1000 then l.spent else 0) + r.lu })).count lveWBlk
    F.LVE_W_CNT.GRANTS)).send (.leaveGrant r.site r.res h.1 g.expiry r.lu)

/-- A denial reaches the wafer's count, and its message leaves (R483). -/
def sendDenial (w : Wafer) (site res reason avail : Nat) : Wafer :=
  (w.bump lveWBlk F.LVE_W_CNT.DENIALS).send (.leaveDenial site res reason avail w.now)

def setTold (w : Wafer) (site res : Nat) (x : Option (Nat × Nat)) : Wafer :=
  w.setLve (fun l => { l with told := tabSet l.told (1024 * site + res) x })

/-- Decide the waiting request of an id (R483, R486, R491). -/
def decideLeave (w : Wafer) (id : Nat) : Wafer :=
  match w.lve.waits.find? (fun r => r.id == id) with
  | none => w
  | some r =>
    let upd (w : Wafer) (r' : LWait) : Wafer :=
      w.setLve (fun l => { l with waits := l.waits.map (fun x => if x.id == id then r' else x) })
    let f := w.leaveFails r (fun _ => false)
    if f.1 = 0 then
      let spent := if w.lve.win = w.now / 1000 then w.lve.spent else 0
      if w.rampLu < spent + r.lu then
        let w := (w.latch lveWBlk F.LVE_W_EVT.RAMP_HELD).latch (lveBlk r.site) F.LVE_SITE_EVT.RAMP_HELD
        (upd w { r with held := true }).setTold r.site r.res (some (0, (w.now / 1000 + 1) * 1000))
      else w.grantLeave r
    else if f.1 = dBad then
      (w.setLve (fun l => { l with waits := l.waits.filter (fun x => x.id != id) })).sendDenial r.site r.res dBad 0
    else
      let short := (f.1 == dEnvelope || f.1 == dClass) &&
        decide (100 * w.luOf (fun g => g.cls == r.cls) < w.share r.cls * w.pool) && r.cls != 3
      let need := f.2 - w.recalling id
      let w := if short && decide (w.recalling id < f.2) then w.startRecalls need (some id) (fun g => decide (r.cls < g.cls)) else w
      if r.denied then w
      else
        let w := upd w { r with denied := true }
        if 0 < w.recalling id then w.sendDenial r.site r.res f.1 0
        else
          match w.availUs r with
          | some a => w.sendDenial r.site r.res f.1 a
          | none => let x := w.fresh; x.2.sendDenial r.site r.res f.1 x.1.toNat

/-- Slack of the command a request serves (R487). -/
def waitSlack (w : Wafer) (r : LWait) : Int :=
  match r.owner.bind (w.cmd? r.site) with
  | some c => w.slackUs c
  | none => 2 ^ 31 - 1

/-- Waiting requests in the order of R487. -/
def waitOrder (w : Wafer) : List LWait :=
  sortBy (fun a b : LWait =>
    decide (a.cls < b.cls) || (a.cls == b.cls && (decide (w.waitSlack a < w.waitSlack b) ||
      (w.waitSlack a == w.waitSlack b && (decide (a.site < b.site) || (a.site == b.site && decide (a.res < b.res))))))) w.lve.waits

/-- The command a request serves: the first of that class and volume on the site that needs this leave and neither holds
nor asks it. -/
def leaveClient (w : Wafer) (rq : LeaveReq) : Option Nat :=
  ((w.siteCmds rq.site).find? (fun c =>
    c.isOpen && c.vol == rq.vol.val && c.cls == rq.cls.val && (c.waiting || c.run.isSome) &&
    (w.heavies c (w.engOf c)).any (fun h => h.2.1 == rq.res && h.2.2 == rq.lu) &&
    !(w.lve.grants.any (fun g => g.site == c.site && g.owner == some c.idx && g.res == rq.res && !g.tail)) &&
    !(w.lve.waits.any (fun g => g.site == c.site && g.owner == some c.idx && g.res == rq.res)))).map (·.idx)

/-- Put a request before the steward and decide it. -/
def askLeave (w : Wafer) (site res cls vol lu dur : Nat) (owner : Option Nat) : Wafer :=
  let id := w.lve.next
  let r : LWait := { id := id, site := site, res := res, cls := cls, vol := vol, lu := lu, dur := dur, owner := owner,
                     denied := false, held := false, hold := 0 }
  (w.setLve (fun l => { l with waits := l.waits ++ [r], next := id + 1 })).decideLeave id

/-- Decide a renewal (R485): a request for the grant's own LU. -/
def renewLeave (w : Wafer) (g : Grant) (durUs : Nat) : Wafer :=
  let r : LWait := { id := w.lve.next, site := g.site, res := g.res, cls := g.cls, vol := g.vol, lu := g.lu, dur := durUs,
                     owner := g.owner, denied := false, held := false, hold := 0 }
  if g.expiry ≤ w.now && !g.tail then
    (w.enterTail g).askLeave g.site g.res g.cls g.vol g.lu durUs g.owner
  else
    let f := if g.tail then (dEnvelope, 0) else w.leaveFails r (fun x => x == g)
    let d := us (min durUs w.grantMax)
    if f.1 = 0 then w.setGrant g { g with expiry := w.now + d, dur := d, asked := false }
    else (w.setGrant g { g with asked := false }).sendDenial g.site g.res f.1 0

/-- E is taken, and grants are recalled while G exceeds P (R490). -/
def envelopeNow (w : Wafer) : Wafer :=
  let e := w.envelope
  let w := if e = w.lve.env then w else (w.setLve (fun l => { l with env := e })).latch lveWBlk F.LVE_W_EVT.POOL_CHANGE
  if w.granted ≤ w.pool then w.leaveSettle
  else
    let w := w.setLve (fun l => { l with excess := some (l.excess.getD w.now) })
    let coming := w.luOf (fun g => g.tail && g.cls != 0)
    w.startRecalls (w.granted - w.pool - coming) none (fun g => g.cls != 0)

/-! ### Registers (R495) -/

/-- LVE_SITE_STAT as read; BASE_MAX and COMPUTE_MAX are kept in its stored word. -/
def siteStat (w : Wafer) (site : Nat) : Word :=
  let v := w.reg (lveBlk site)
  let v := putF v 0 10 (w.charge site (fun g => g.arrived) [])
  let v := putF v 10 10 (w.ceiling site)
  let v := putF v 20 3 (w.thermStep site)
  let v := putF v 23 3 (w.clkStep site)
  putF v 26 1 (if w.lve.emergency then 1 else 0)

def wPoolWord (w : Wafer) : Word :=
  BitVec.ofNat 64 (w.pool % 2 ^ 17 + w.granted % 2 ^ 17 * 2 ^ 17 + 140 * w.activeSites.length % 2 ^ 17 * 2 ^ 34 +
    (if w.lve.emergency then 2 ^ 51 else 0))

def wClassWord (f : Nat → Nat) : Word :=
  BitVec.ofNat 64 (sumOf ((List.range 4).map (fun c => f c % 2 ^ 16 * 2 ^ (16 * c))))

def wHeldWord (w : Wafer) : Word := wClassWord (fun c => w.luOf (fun g => g.cls == c))
def wWaitWord (w : Wafer) : Word := wClassWord w.waitingLu

end Wafer

/-- The band of Table LVE-3 of a base-die reading in 1/16 °C. -/
def thermBand (t : Int) : Nat :=
  if t ≤ 85 * 16 then 0 else if t ≤ 88 * 16 then 1 else if t ≤ 91 * 16 then 2 else if t ≤ 95 * 16 then 3 else 4

/-- A reading from which the step may fall: the band's lower bound less 2 °C. -/
def thermCool (step : Nat) : Int :=
  (match step with | 1 => 83 | 2 => 86 | 3 => 89 | _ => 93) * 16

/-- The hottest of a list of readings; no reading counts as the lowest. -/
def hottest (l : List (BitVec 16)) : Int := l.foldl (fun m x => max m x.toInt) (-32768)

/-! ### Meanings -/

/-- LEAVE_REQUEST (R482, R483, R486, R491). -/
def execLeaveRequest (rq : LeaveReq) (s : State) : Host.Outcome State Fault Refusal :=
  .next (s.onWafer fun w =>
    if !w.active rq.site then w
    else w.askLeave rq.site rq.res rq.cls rq.vol rq.lu rq.durationUs (w.leaveClient rq))

/-- LEAVE_RECALL (R486): the recall reaches its site; with no unit running the leave is returned at once. -/
def execLeaveRecall (site : Fin 128) (handle : BitVec 16) (s : State) : Host.Outcome State Fault Refusal :=
  .next (s.onWafer fun w =>
    let p (m : Msg) : Bool := m == .leaveRecall site handle.toNat
    if (w.incoming p).isNone then w
    else
      let b := lveBlk site
      let w := ((w.take p).bump b F.LVE_SITE_CNT.RECALLS).latch b F.LVE_SITE_EVT.RECALLED
      match w.grantOf site handle.toNat with
      | some g => if g.tail && !w.grantBusy g then w.freeGrant g else w
      | none => w)

/-- LEAVE_REDECIDE (R483, R487). -/
def execLeaveRedecide (s : State) : Host.Outcome State Fault Refusal :=
  .next (s.onWafer fun w => w.waitOrder.foldl (fun w r => w.decideLeave r.id) w)

/-- LEAVE_RENEW (R485). -/
def execLeaveRenew (site : Fin 128) (handle : BitVec 16) (durationUs : Nat) (s : State) : Host.Outcome State Fault Refusal :=
  .next (s.onWafer fun w =>
    if !w.active site then w
    else
      match w.grantOf site handle.toNat with
      | some g => w.renewLeave g durationUs
      | none => w.send (.leaveDenial site 1023 dBad 0 w.now))

/-- RENEW_DUE (R485): a quarter of the duration remains and units remain; the renewal is on its way. -/
def execRenewDue (site : Fin 128) (handle : BitVec 16) (s : State) : Host.Outcome State Fault Refusal :=
  .next (s.onWafer fun w =>
    match w.grantOf site handle.toNat with
    | some g =>
      let more := g.owner.any (fun i => (w.cmd? site i).any (fun c => c.run.isSome))
      if g.arrived && !g.tail && more && decide (4 * since w.now g.expiry ≤ g.dur) then w.setGrant g { g with asked := true } else w
    | none => w)

/-- LEAVE_RETURN (R487): a handle that is not live answers BAD_REQUEST. -/
def execLeaveReturn (site : Fin 128) (handle : BitVec 16) (s : State) : Host.Outcome State Fault Refusal :=
  .next (s.onWafer fun w =>
    if !w.active site then w
    else
      match w.grantOf site handle.toNat with
      | some g => w.freeGrant g
      | none => w.send (.leaveDenial site 1023 dBad 0 w.now))

/-- LEAVE_EXPIRY (R485). -/
def execLeaveExpiry (site : Fin 128) (handle : BitVec 16) (s : State) : Host.Outcome State Fault Refusal :=
  .next (s.onWafer fun w =>
    match w.grantOf site handle.toNat with
    | some g => if !g.tail && g.expiry ≤ w.now then w.enterTail g else w
    | none => w)

/-- ENVELOPE_CHANGE (R488, R490). -/
def execEnvelopeChange (s : State) : Host.Outcome State Fault Refusal := .next (s.onWafer Wafer.envelopeNow)

/-- EMERGENCY (R490). -/
def execEmergency (s : State) : Host.Outcome State Fault Refusal :=
  .next (s.onWafer fun w =>
    match w.lve.excess with
    | some t =>
      if w.pool < w.granted && us 100 ≤ since t w.now && !w.lve.emergency then
        let w := (w.setLve (fun l => { l with emergency := true })).latch lveWBlk F.LVE_W_EVT.EMERGENCY
        w.activeSites.foldl (fun w i => w.latch (lveBlk i) F.LVE_SITE_EVT.EMERGENCY) w
      else w
    | none => w)

/-- PACING_WINDOW (R481): a window ends at each multiple of 1,000 of FOL_REFCOUNT; the window is noted. Pacing itself is
timing (log entry 54). -/
def execPacingWindow (site : Fin 128) (s : State) : Host.Outcome State Fault Refusal :=
  .next (s.onWafer fun w =>
    let t := w.refcount site
    if w.active site && t % 1000 = 0 then
      w.setLve (fun l => { l with paced := Tab.put (fun _ => 0) l.paced site (t / 1000) })
    else w)

/-- THERMAL_SAMPLE (R492, R493): sensors as read; a hotter band applies at once; the run of cool samples is kept. -/
def execThermalSample (site : Fin 128) (base compute : List (BitVec 16)) (s : State) : Host.Outcome State Fault Refusal :=
  .next (s.onWafer fun w =>
    if !w.active site then w
    else
      let b := lveBlk site
      let bs := base.take 8
      let cs := compute.take 8
      let w := (List.range 8).foldl (fun w i =>
        let k := b + 0x20 + 8 * i
        let w := match bs[i]? with | some x => w.setReg k (putF (w.reg k) 0 16 x.toNat) | none => w
        match cs[i]? with | some x => w.setReg k (putF (w.reg k) 16 16 x.toNat) | none => w) w
      let deg (x : Int) : Nat := (max 0 (x / 16)).toNat
      let w := if bs.isEmpty then w else w.set b F.LVE_SITE_STAT.BASE_MAX (deg (hottest bs))
      let w := if cs.isEmpty then w else w.set b F.LVE_SITE_STAT.COMPUTE_MAX (deg (hottest cs))
      if bs.isEmpty then w
      else
        let t := hottest bs
        let old := w.thermStep site
        let m := w.measStep site
        if m < thermBand t then
          (w.setLve (fun l => { l with meas := Tab.put (fun _ => 0) l.meas site (thermBand t),
                                       cool := Tab.drop l.cool site })).stepChanged site old
        else if 0 < m && t ≤ thermCool m then
          (if Tab.look (fun _ => 0) w.lve.cool site = 0 then
            w.setLve (fun l => { l with cool := Tab.put (fun _ => 0) l.cool site (w.now + 1) })
          else w)
        else w.setLve (fun l => { l with cool := Tab.drop l.cool site }))

/-- STEP_DOWN (R493): after 1 ms of cool samples the step falls by one. -/
def execStepDown (site : Fin 128) (s : State) : Host.Outcome State Fault Refusal :=
  .next (s.onWafer fun w =>
    let m := w.measStep site
    let c := Tab.look (fun _ => 0) w.lve.cool site
    if m = 0 || c = 0 || since (c - 1) w.now < ms 1 then w
    else
      let old := w.thermStep site
      (w.setLve (fun l => { l with meas := Tab.put (fun _ => 0) l.meas site (m - 1), cool := Tab.drop l.cool site })).stepChanged
        site old)

/-- FORCE_STEP_WRITE (R19, R493, R495): a FORCE_STEP above 4 is refused. -/
def execForceStepWrite (src : Src) (site : Fin 128) (value : BitVec 64) (s : State) : Host.Outcome State Fault Refusal :=
  .next (s.onWafer fun w =>
    if !w.active site || !configSrc src || 4 < getF value 1 3 then w
    else
      let old := w.thermStep site
      (w.writeKey (lveBlk site + 0x18) value).stepChanged site old)

end Sys2Proof.Machine
end

