-- ==== Sys2Proof/Machine/Command.lean ====
section
/-! DEFINITION. Descriptors to final records: fetch, validation, admission, start, preemption, abort, replay, completion
records, and what a beacon sets off (R32, R42–R60, R244–R261, R282–R303, R311–R317, R326–R339, R503–R512, R547–R551). -/

namespace Sys2Proof.Machine

/-- Completion classes (Table QUE-9). -/
abbrev clsOk : Nat := 0
abbrev clsDeferred : Nat := 1
abbrev clsRefused : Nat := 2
abbrev clsLate : Nat := 3
abbrev clsReplayed : Nat := 4
abbrev clsFailed : Nat := 5
abbrev clsWithdrawn : Nat := 6

namespace Wafer

/-! ### Engines and cores, as a command holds them -/

def engAt (w : Wafer) (site e : Nat) : Eng := Tab.look (fun _ => Eng.init) w.eng (8 * site + e)
def setEng (w : Wafer) (site e : Nat) (x : Eng) : Wafer := { w with eng := Tab.put (fun _ => Eng.init) w.eng (8 * site + e) x }

def coreAt (w : Wafer) (site k : Nat) : Core := Tab.look (fun _ => Core.init) w.core (96 * site + k)
def setCore (w : Wafer) (site k : Nat) (x : Core) : Wafer :=
  { w with core := Tab.put (fun _ => Core.init) w.core (96 * site + k) x }

/-- The core stops its unit (R336, R427); one that waits in SYNCWAIT drains until its wake (R444), another's response is
discarded. -/
def stopCore (w : Wafer) (site k : Nat) : Wafer :=
  let c := w.coreAt site k
  let waits := c.wait.isSome && w.out.any (fun o => o.who.die.val == site && o.who.unit.toNat == k && o.isWait)
  w.setCore site k { c with unit := none, mmode := true, resv := none, draining := c.draining || waits,
                            wait := if waits then c.wait else none }

/-- A participant leaves its gather session. An abort breaks the session: it can only end, and replays form a new one
(R330, R513); the operand of a fenced site is supplied anew through replay (R151). -/
def leaveSession (w : Wafer) (site idx : Nat) (breaks : Bool) : Wafer :=
  let mine (s : Sess) : Bool := s.parts.any (fun p => p.site == site && p.idx == idx)
  let lost := w.gat.filter (fun s => mine s && breaks && !s.broken)
  let stale (m : Msg) : Bool :=
    match m with
    | .gather v g sh _ _ _ => lost.any (fun s => s.vol == v && s.gid == g && s.shelf == sh)
    | _ => false
  { w with gat := (w.gat.map (fun s => if mine s then
                     { s with parts := s.parts.filter (fun p => !(p.site == site && p.idx == idx)), broken := s.broken || breaks }
                   else s)).filter (fun s => !s.parts.isEmpty),
           net := if lost.isEmpty then w.net else w.net.filter (fun m => !stale m) }

/-- A run ends: engines, save images, cores and the gather session it holds are released (R336); its leave is returned. -/
def stopRun (w : Wafer) (site idx : Nat) : Wafer :=
  let w := (List.range 8).foldl (fun w e =>
    let x := w.engAt site e
    let mine := match x.on with | some o => o.idx == idx | none => false
    if mine || x.saved.any (fun s => s.unit.idx == idx) then
      w.setEng site e { x with on := if mine then none else x.on,
                               emptied := x.emptied || (mine && x.halted.isSome),
                               saved := x.saved.filter (fun s => s.unit.idx != idx) }
    else w) w
  let ks := (w.core.filter (fun e => e.1 / 96 == site && (match e.2.unit with | some u => u.1 == idx | none => false))).map
    (fun e => e.1 % 96)
  let w := ks.foldl (fun w k => w.stopCore site k) w
  let w := w.leaveSession site idx true
  let w := { w with out := w.out.map (fun (o : Out) => if o.cmd = some (site, idx) then { o with cmd := none } else o) }
  w.returnLeave site idx (fun _ => true)

/-! ### Final records (R248–R252, R507) -/

/-- The FOLIO word of a completion and whether it is valid (R56, R58, R249). -/
def folioWord (w : Wafer) (c : Cmd) : Nat × Bool :=
  match c.srcLost with
  | some v => if c.cls = 0 then (v.toNat, true) else (0, false)
  | none =>
    if c.dlValid then
      (w.imgPos c.site c.dlCounter + c.dlCounter * 2 ^ 48 + w.get (imgKey c.site c.dlCounter) F.FOL_IMG.EPOCH * 2 ^ 56, true)
    else (0, false)

/-- The 32 bytes of a completion record, PHASE not yet set (Table QUE-8). -/
def recordOf (w : Wafer) (c : Cmd) (cls code : Nat) (flags : BitVec 6) (detail : Nat) : List Byte :=
  let f := w.folioWord c
  toLE 8 c.userTag ++ toLE 2 (cls * 4096 + code % 4096) ++ toLE 1 flags.toNat ++
  toLE 1 (c.replays % 8 + (if f.2 then 8 else 0)) ++ toLE 2 (c.site + w.col.wafer * 128) ++ toLE 2 c.ring ++
  toLE 8 f.1 ++ toLE 8 detail

/-- The completion ring of a command. -/
def complRing (w : Wafer) (c : Cmd) : Nat := w.get (ringBlk c.home c.ring) F.QUE_RING_CTRL.COMPL_RING

/-- Put a completion record into the line of its ring. -/
def pendRecord (w : Wafer) (c : Cmd) (bytes : List Byte) (final : Bool) (slots : Nat) : Wafer :=
  { w with que := { w.que with pend := w.que.pend ++
      [{ home := c.home, ring := w.complRing c, bytes := bytes, vol := c.vol, cmd := some (c.site, c.idx), final := final,
         slots := slots, writer := c.handed.getD c.site, retryAt := none, once := false }] } }

/-- Note a service time of a work ring (R296). -/
def noteService (w : Wafer) (c : Cmd) : Wafer :=
  match c.run with
  | some r =>
    let k := 2048 * c.home + c.ring
    let l := (since r.start w.now + 99) / 100 :: Tab.look (fun _ => []) w.que.history k
    { w with que := { w.que with history := Tab.put (fun _ => []) w.que.history k (l.take 16) } }
  | none => w

/-- A command ends with its final record (R507, R508): the run stops, the record reads FINAL, and the completion record
waits for its ring. -/
def finish (w : Wafer) (c : Cmd) (cls code : Nat) (flags : BitVec 6) (detail : Nat) : Wafer :=
  let w := if cls = clsOk || cls = clsReplayed then w.noteService c else w
  let bytes := w.recordOf c cls code flags detail
  let b := ringBlk c.home (w.complRing c)
  let ahead := (w.que.pend.filter (fun p => p.home == c.home && p.ring == w.complRing c)).length
  let w := w.stopRun c.site c.idx
  let w := w.recChange { c with st := .final, final := bytes, complIndex := (w.rPI b + ahead) % 2 ^ 32, run := none,
                                aborting := none, rebuild := false }
  w.pendRecord c bytes true (if c.defWritten then 1 else 2)

/-- FAILED (R550); flags read 0 (R392). -/
def fail (w : Wafer) (c : Cmd) (code detail : Nat) : Wafer := w.finish c clsFailed code 0 detail

/-! ### Abort (R336, R500, R509) -/

/-- A fault aborts a running command; the abort completes by a later step. -/
def faultCmd (w : Wafer) (c : Cmd) (b : Bad) : Wafer :=
  let k := cmdBlk c.site
  let w := (w.latch k F.CMD_EVT.ABORT).bump k F.CMD_EVT.ABORTS
  let w := if c.st = .committing then w.latch k F.CMD_EVT.COMMIT_FAULT else w
  let w := if 0x171 ≤ b.code && b.code ≤ 0x177 then w.memFault c.site (0x60 + (match c.run with | some r => r.eng | none => 0)) c.vol (b.code - 0x170) b.detail else w
  (w.stopRun c.site c.idx).recChange { c with run := none, aborting := some (w.now), lastFault := 0x5000 + b.code,
                                              lastDetail := BitVec.ofNat 64 b.detail, noReplay := !b.replay }

/-- An abort that ends the command at once, without a record kept for replay (R55, R58, R60). -/
def abortFinish (w : Wafer) (c : Cmd) (cls code detail : Nat) : Wafer :=
  let k := cmdBlk c.site
  ((w.latch k F.CMD_EVT.ABORT).bump k F.CMD_EVT.ABORTS).finish c cls code 0 detail

/-! ### What a command needs to start (R294, R317, R328, R432) -/

/-- The predicted duration in reference cycles (R296). -/
def predicted (w : Wafer) (c : Cmd) (step : Nat) : Nat :=
  let h := Tab.look (fun _ => []) w.que.history (2048 * c.home + c.ring)
  stretched step (us (if c.fused && c.cost ≠ 0 then c.cost else h.foldl max 0))

def usesMatrix (c : Cmd) : Bool := c.fused && c.stages.any (fun g => sgKind g == kMatrix)

/-- Waiting commands of a site in rank order (R293). -/
def ranking (w : Wafer) (site : Nat) : List Cmd :=
  sortBy (fun a b : Cmd =>
    decide (a.cls < b.cls) || (a.cls == b.cls && (decide (w.slackUs a < w.slackUs b) ||
      (w.slackUs a == w.slackUs b && decide (a.order < b.order))))) ((w.siteCmds site).filter Cmd.waiting)

/-- Held before admission by FENCE_BEFORE or BARRIER (R245, R247): an earlier descriptor of its ring is not final yet. -/
def fenced (w : Wafer) (c : Cmd) : Bool :=
  (c.fenceBefore || c.opcode == 4) &&
  w.cmds.any (fun x => x.home == c.home && x.ring == c.ring && x.order < c.order)

/-- Finish of a running command, as predicted. -/
def runEnds (w : Wafer) (c : Cmd) (step : Nat) : Nat :=
  match c.run with | some r => max w.now (r.start + w.predicted c step) | none => w.now

/-- The entry of a DATA ring where the next claim begins (R328). -/
def claimNext (w : Wafer) (ring : Nat) : Nat :=
  (w.rCI (ringBlk (ring / 2048) (ring % 2048)) +
    sumOf ((w.que.claims.filter (fun c => c.ring == ring)).map (·.count))) % 2 ^ 32

/-- The ring holds the whole claim of a command (R328). -/
def claimReady (w : Wafer) (c : Cmd) : Bool :=
  match c.dataRing with
  | none => true
  | some id =>
    c.claim.isSome ||
    (let b := ringBlk (id / 2048) (id % 2048)
     w.ringOn b && !w.flag b F.QUE_RING_CTRL.CONS_DOORBELL &&
     decide (c.records ≤ (w.rPI b + 2 ^ 32 - w.claimNext id) % 2 ^ 32))

/-- The least power of two that is at least n. -/
def pow2 (n : Nat) : Nat := if n ≤ 1 then 1 else 2 ^ (Nat.log2 (n - 1) + 1)

/-- Stage area buffers of all running commands in a cluster (R432). -/
def areasOf (w : Wafer) (site cluster : Nat) : List Area :=
  (w.siteCmds site).flatMap (fun c => match c.run with | some r => r.areas.filter (fun a => a.cluster == cluster) | none => [])

/-- The lowest free place of a buffer aligned to its size in a stage area of 1,920 KiB (DESIGN CHOICE of place, log entry
55). -/
def placeArea (used : List Area) (size : Nat) : Option Nat :=
  ((List.range (0x1E0000 / size)).map (· * size)).find? (fun o => used.all (fun a => o + size ≤ a.off || a.off + a.size ≤ o))

/-- Place a CORE stage's buffers, the larger first: CORES input buffers, CREDITS output slots (R432). -/
def coreAreas (c : Cmd) (s cluster : Nat) (used : List Area) : Option (List Area) :=
  let g := c.stage s
  let want := List.replicate (sgCores g) (pow2 (c.mbRecords * c.inBytes s), false) ++
    List.replicate (sgCredits g) (pow2 (c.mbRecords * sgOut g), true)
  (sortBy (fun a b : Nat × Bool => decide (b.1 < a.1)) want).foldl (fun acc x =>
    match acc with
    | none => none
    | some l => (placeArea (used ++ l) x.1).map (fun o =>
        l ++ [{ stage := s, cluster := cluster, off := o, size := x.1, out := x.2 }])) (some [])

/-- Units of a cluster that run: how many of its cores are taken. -/
def clusterBusy (w : Wafer) (site cluster : Nat) : Nat :=
  ((List.range 8).filter (fun j => (w.coreAt site (8 * cluster + j)).unit.isSome)).length

/-- The cluster of a CORE stage (R317, R447): named, or the one with the fewest units, the lowest on a tie; 8 CORES never
bind cluster 11. -/
def clusterFor (w : Wafer) (c : Cmd) (s : Nat) : Nat :=
  let g := c.stage s
  if sgEngine g ≠ 0xFF then sgEngine g
  else (List.range (if sgCores g = 8 then 11 else 12)).foldl (fun b k => if w.clusterBusy c.site k < w.clusterBusy c.site b then k else b) 0

/-- All stage area buffers of a command with the clusters bound; none when some cluster is short. -/
def bindCores (w : Wafer) (c : Cmd) : Option (Tab Nat × List Area) :=
  (List.range c.stages.length).foldl (fun acc s =>
    match acc with
    | none => none
    | some (t, l) =>
      if c.kindOf s ≠ kCore then some (t, l)
      else
        let k := w.clusterFor c s
        (coreAreas c s k (w.areasOf c.site k ++ l.filter (fun a => a.cluster == k))).map (fun m => (t ++ [(s, k)], l ++ m)))
    (some ([], []))

/-- The replay area of a buddy run (R517): the lowest free place for STAGING and SCRATCH in volume 0's replay area. -/
def relocSize (c : Cmd) : Nat := (c.stagingBytes + c.scratchBytes + 255) / 256 * 256
def relocPlace (w : Wafer) (c : Cmd) : Option Nat :=
  if !c.buddyRun then some 0
  else
    let used := (w.siteCmds c.site).filterMap (fun x => match x.run with
      | some r => if x.buddyRun && x.fused then some (r.reloc, relocSize x) else none | none => none)
    let n := relocSize c
    ((0x0F000000 :: used.map (fun u => u.1 + u.2)).filter (fun o => o + n ≤ 0x0FC00000 &&
      used.all (fun u => o + n ≤ u.1 || u.1 + u.2 ≤ o))).foldl (fun b o => match b with | none => some o | some x => some (min x o)) none

/-- What holds a command back: DEFERRED code, resource, instant at which it is predicted free (none: not predictable). -/
structure Hold where
  code : Nat
  token : Nat
  free : Option Nat

abbrev tokEngine : Nat := 0
abbrev tokLeave : Nat := 1000
abbrev tokSlots : Nat := 3000
abbrev tokArea : Nat := 3100
abbrev tokReplay : Nat := 3200
abbrev tokSync : Nat := 3300
abbrev tokRing : Nat := 4000

/-- The engine is kept for a saved unit of this class or a stronger one (R303). -/
def restoreFirst (w : Wafer) (site e cls : Nat) : Bool := (w.engAt site e).saved.any (fun s => s.cls ≤ cls)

/-- Volume's matrix work may be preempted (R301); volume 0 has no profile and is not (log entry 56). -/
def preemptible (w : Wafer) (v : Nat) : Bool := v != 0 && w.volField v 3 2 1 == 1

/-- The command whose unit is on an engine. -/
def onEngine (w : Wafer) (site e : Nat) : Option Cmd := (w.engAt site e).on.bind (fun o => w.cmd? site o.idx)

/-- Commands of a site ranked ahead of c. -/
def ahead (w : Wafer) (c : Cmd) : List Cmd := (w.ranking c.site).takeWhile (fun x => x.idx != c.idx)

/-- The class and volume tests under which c would take the engine from the command on it (R301). -/
def mayPreempt (w : Wafer) (c : Cmd) (e : Nat) : Bool :=
  match w.onEngine c.site e with
  | some v =>
    decide (c.cls < v.cls) && w.preemptible v.vol && (w.engAt c.site e).halted.isNone &&
    !(w.engAt c.site e).saved.any (fun s => s.cls == v.cls) &&
    !((w.ahead c).any (fun x => usesMatrix x && w.engOf x == e && !w.fenced x))
  | none => false

/-- The home-engine hold, other than by preemption. -/
def engineHold (w : Wafer) (c : Cmd) (step : Nat) : List Hold :=
  if !usesMatrix c then []
  else
    let e := w.engOf c
    let rivals := (w.ahead c).filter (fun x => usesMatrix x && w.engOf x == e && !w.fenced x)
    let after := sumOf (rivals.map (fun x => w.predicted x step))
    let held := match w.onEngine c.site e with
      | some v => if w.mayPreempt c e then none else some (w.runEnds v step)
      | none =>
        if w.restoreFirst c.site e c.cls then
          some (((w.engAt c.site e).saved.filterMap (fun s => w.cmd? c.site s.unit.idx)).foldl (fun m v => max m (w.runEnds v step)) w.now)
        else if (w.engAt c.site e).halted.isSome then some w.now else none
    match held with
    | some t => [{ code := 3, token := tokEngine + e, free := some (t + after) }]
    | none => if w.now < w.now + after then [{ code := 3, token := tokEngine + e, free := some (w.now + after) }] else []

/-- An arrived grant not in its tail for a resource. -/
def hasLeave (w : Wafer) (c : Cmd) (res : Nat) : Bool :=
  w.lve.grants.any (fun g => g.site == c.site && g.owner == some c.idx && g.res == res && g.arrived && !g.tail)

/-- Leave not yet held for heavy stages (R294, R323, R496). -/
def leaveHold (w : Wafer) (c : Cmd) : List Hold :=
  (w.heavies c (w.engOf c)).filterMap (fun h =>
    if w.hasLeave c h.2.1 then none
    else
      match tabGet w.lve.told (1024 * c.site + h.2.1) with
      | some t => some { code := if t.1 = dThermal then 4 else 1, token := tokLeave + h.2.1, free := some (max w.now t.2) }
      | none => some { code := 1, token := tokLeave + h.2.1, free := some w.now })

/-- A fetch engine without a wait outstanding, which sends a SYNC descriptor's operation (R267; log entry 58). -/
def syncUnit (w : Wafer) (site : Nat) : Option Nat :=
  ((List.range 8).map (96 + ·)).find? (fun u => !w.out.any (fun o => o.who.die.val == site && o.who.unit.toNat == u && o.isWait))

/-- Slot space, stage areas, claims and the replay area (R317, R328, R432, R517). -/
def creditHold (w : Wafer) (c : Cmd) (step : Nat) : List Hold :=
  if c.opcode = 3 then
    (if leAt c.desc 35 1 % 4 = 1 && (w.syncUnit c.site).isNone then [{ code := 2, token := tokSync, free := none }] else [])
  else if !c.fused then []
  else
    let e := w.engOf c
    let homed := sortBy (fun a b : Nat × Nat => decide (a.1 < b.1)) ((w.siteCmds c.site).filterMap (fun x => match x.run with
      | some r => if x.fused && r.eng = e then some (w.runEnds x step, r.space) else none | none => none))
    let short := w.sbufFree c.site e < c.slotSpace
    let freed : Option Nat := (homed.foldl (fun (acc : Nat × Option Nat) x =>
      if acc.2.isSome then acc
      else if c.slotSpace ≤ acc.1 + x.2 then (acc.1 + x.2, some x.1) else (acc.1 + x.2, none)) (w.sbufFree c.site e, none)).2
    let lastEnd := ((w.siteCmds c.site).filter (fun x => x.run.isSome)).foldl (fun m x => max m (w.runEnds x step)) w.now
    (if short then [({ code := 2, token := tokSlots + e, free := freed } : Hold)] else []) ++
    (if (w.bindCores c).isNone then [({ code := 2, token := tokArea, free := some lastEnd } : Hold)] else []) ++
    (if (w.relocPlace c).isNone then [({ code := 2, token := tokReplay, free := some lastEnd } : Hold)] else []) ++
    (if w.claimReady c then [] else [({ code := 2, token := tokRing + c.input % 2 ^ 18, free := none } : Hold)])

def holds (w : Wafer) (c : Cmd) (step : Nat) : List Hold := w.leaveHold c ++ w.engineHold c step ++ w.creditHold c step

/-- Every resource a command uses that another may hold back. -/
def tokens (w : Wafer) (c : Cmd) : List Nat :=
  let e := w.engOf c
  (if usesMatrix c then [tokEngine + e] else []) ++ (w.heavies c e).map (fun h => tokLeave + h.2.1) ++
  (if c.fused then [tokSlots + e] else []) ++
  (if c.stages.any (fun g => sgKind g == kCore) then [tokArea] else []) ++
  (match c.dataRing with | some id => [tokRing + id] | none => [])

/-- The predicted start (R296): none when some resource has no predictable instant. -/
def startAt (w : Wafer) (c : Cmd) (step : Nat) : Option Nat :=
  (w.holds c step).foldl (fun acc h => match acc, h.free with | some a, some b => some (max a b) | _, _ => none) (some w.now)

/-- DEFERRED reason (R298): the resource free latest, ties in the order of Table VOL-6; THERMAL when only the step delays
the start (R496). -/
def deferCode (w : Wafer) (c : Cmd) : Nat :=
  let step := w.clkStep c.site
  let hs := w.holds c step
  let late (h : Hold) : Nat := match h.free with | some t => t + 1 | none => 2 ^ 80
  let m := hs.foldl (fun m h => max m (late h)) 0
  let best := (hs.filter (fun h => late h == m)).map (·.code)
  if w.startAt c 0 = some w.now && step ≠ 0 && w.startAt c step ≠ some w.now then 4
  else if best.contains 4 then 4 else if best.contains 1 then 1 else if best.contains 3 then 3 else 2

/-- The command may start now (R294, R506): nothing holds it, and it takes nothing from a command ranked higher. -/
def canStart (w : Wafer) (c : Cmd) : Bool :=
  let step := w.clkStep c.site
  c.waiting && c.mirrored && !w.fenced c && !w.que.copying.contains c.site && w.active c.site &&
  (w.holds c step).isEmpty && (!usesMatrix c || (w.onEngine c.site (w.engOf c)).isNone) &&
  (w.ahead c).all (fun x =>
    w.fenced x ||
    (let t := w.tokens c
     (w.holds x step).all (fun h => !t.contains h.token) &&
     ((w.tokens x).all (fun k => !t.contains k) ||
       (match w.startAt x step with | some s => decide (w.now + w.predicted c step ≤ s) && !(w.holds x step).isEmpty | none => false))))

/-! ### Admission (R292–R299, R496) -/

/-- The die or stack an address names is fenced or absent. -/
def namesDead (w : Wafer) (a : Nat) : Bool :=
  let die := adDie a
  match adRegion a with
  | 0 => adWafer a == w.col.wafer && die < 144 && w.dieStatus die != stOk
  | 2 => adWafer a == w.col.wafer && die < 16 && !w.stackUp die
  | 4 => die < 32 && !w.active (128 + die / 2)
  | _ => false

/-- Addresses a command's stages name. -/
def namedAddrs (c : Cmd) : List Nat :=
  if c.opcode = 2 then [c.body, c.copyDest]
  else if !c.fused then []
  else
    (match c.dataRing with | some _ => [] | none => [c.input]) ++ [c.output] ++
    (List.range c.stages.length).flatMap (fun s =>
      let g := c.stage s
      match sgKind g with
      | 1 | 2 | 3 | 4 => [sgParam g]
      | 6 => [sgParam g, sgArgA g]
      | 7 => [sgParam g]
      | _ => [])

/-- FENCED (R52, R292): a lost deadline counter of FOLIO work, or a named die or stack out of service. -/
def refusedFenced (w : Wafer) (c : Cmd) : Bool :=
  (c.cls == 0 && c.dlValid && !w.active (128 + c.dlCounter / 16)) || (namedAddrs c).any w.namesDead

/-- POLICY (R52, R292). -/
def refusedPolicy (w : Wafer) (c : Cmd) : Bool :=
  (c.vol != 0 && decide (c.cls < w.volField c.vol 3 0 2)) ||
  (c.cls == 0 && (!c.dlValid || w.flag (imgKey c.site c.dlCounter) F.FOL_IMG.SOURCE_OFF))

/-- QUOTA (R292, R404, R484). -/
def refusedQuota (w : Wafer) (c : Cmd) : Bool :=
  (w.heavies c (w.engOf c)).any (fun h =>
    decide (w.siteMax - 140 < h.2.2) ||
    (c.vol != 0 && (decide (w.volField c.vol 3 20 10 < h.2.2) || decide (40 * w.volField c.vol 3 32 11 < h.2.2)))) ||
  (c.fused && (List.range c.stages.length).any (fun s =>
    c.kindOf s == kSearch &&
    (match w.fetch (w.ctxOf c s) (sgParam (c.stage s)) 64 with
     | .ok p => decide ((match c.rotSlot with
         | some g => w.get (rotBlk c.site g) F.CMD_ROT_BANKS.BANKS
         | none => (w.bankWin c.vol).2) < sReach p)
     | .error _ => false)))

/-- The predicted finish position, when the start can be predicted (R54, R296). -/
def finishPos (w : Wafer) (c : Cmd) : Option Nat :=
  let step := w.clkStep c.site
  (w.startAt c step).map (fun s => w.posAfter c.site c.dlCounter ((s - w.now + w.predicted c step + 99) / 100))

/-- The deadline cannot be met (R54): the predicted finish position, if so. -/
def unmeetable (w : Wafer) (c : Cmd) : Option Nat :=
  if c.cls ≠ 0 || !c.dlValid || c.runLate then none
  else (w.finishPos c).bind (fun p => if diff48 (w.deadline c) p ≤ 0 then some p else none)

/-- NOTICE_US; volume 0 has no profile: 100, profile 0's value (DESIGN CHOICE, log entry 57). -/
def noticeUs (w : Wafer) (v : Nat) : Nat := if v = 0 then 100 else w.volField v 3 4 16

/-- Refuse a command (R292, R300). -/
def refuse (w : Wafer) (c : Cmd) (code detail : Nat) : Wafer :=
  let b := admBlk c.site
  let w := w.bump (b + 8 * c.cls) F.VOL_ADM_CNT.REFUSED
  let w := if w.flag b F.VOL_ADM_LAST.VALID then w
    else w.setReg (b + 0x20) (BitVec.ofNat 64 (code + c.vol * 2 ^ 12 + c.cls * 2 ^ 18 + c.ring * 2 ^ 20 + 2 ^ 31))
  w.finish c clsRefused code 0 detail

/-- Write the DEFERRED record (R251, R298). -/
def defer (w : Wafer) (c : Cmd) : Wafer :=
  let step := w.clkStep c.site
  let st := w.startAt c step
  let held := (w.reg (imgHeldKey c.site c.dlCounter)).toNat
  let code := w.deferCode c
  let open_ := w.fresh
  let x : Nat × Wafer := match st with
    | some s =>
      if c.dlValid && held ≠ 0 then (w.posAfter c.site c.dlCounter ((s - w.now + 99) / 100), w)
      else (2 ^ 63 + ((s - w.now + 99) / 100) % 2 ^ 48, w)
    | none =>
      if c.dlValid && held ≠ 0 then (open_.1.toNat % 2 ^ 48, open_.2) else (2 ^ 63 + open_.1.toNat % 2 ^ 48, open_.2)
  let w := x.2.bump (admBlk c.site + 8 * c.cls) F.VOL_ADM_CNT.DEFERRED
  let c' := { c with defWritten := true }
  (w.recChange c').pendRecord c (w.recordOf c clsDeferred code 0 x.1) false 1

/-- Preempt: stop the unit on the engine, write its image to the save slot, return its leave (R302, R361). -/
def preempt (w : Wafer) (c : Cmd) (e : Nat) (image : Wafer → Cmd → OnEng → Wafer) : Wafer :=
  let x := w.engAt c.site e
  match x.on, w.onEngine c.site e with
  | some o, some v =>
    let o := { o with done := o.done + since o.start w.now }
    let w := image w v o
    let w := w.setEng c.site e { x with on := none, saved := x.saved ++ [{ cls := v.cls, unit := o, by_ := c.idx }] }
    ((w.returnLeave c.site v.idx (fun r => r == e)).latch (matBlk c.site e) F.MAT_EVT.SAVED).count (admBlk c.site) F.VOL_ADM_PREEMPT.PREEMPTS
  | _, _ => w

/-- The image of a preempted unit is written (R302, R363): its bytes are an engine's record of the stop. -/
def saveImage (w : Wafer) (v : Cmd) (e : Nat) (bytes : List Byte) : Wafer := w.store (saveSlot v.site e v.cls) bytes

/-- The matrix input of a unit, if its program and tables can be read (R345, R347, R354, R369, R456). -/
def matIn (w : Wafer) (x : Ctx) (addr inBytes outBytes : Nat) (ftz : Bool) (recs : List (List Byte)) : Except Bad MatIn :=
  let bad (c d : Nat) : Except Bad MatIn := .error { code := c, detail := d, replay := false }
  match w.fetch x addr 64 with
  | .error b => .error b
  | .ok p =>
    if !mFormOk p then bad 0x121 x.stage
    else
      let bN := if mMode p = 1 then 0 else mBBytes p
      let biasN := if mPreload p = 1 || mPreload p = 3 then 4 * mN p else 0
      let nodeN := if mCmp p then 8 * mNodeCount p else 0
      let here (a n : Nat) : Bool := n == 0 || (match w.deref x a with
        | .ok y => x.buddy || adRegion a == 8 || w.ownSram x.vol x.site y n
        | .error _ => true)
      if !(here (mBAddr p) bN && here (mBias p) biasN && here (mNode p) nodeN) then bad 0x121 x.stage
      else if !mDimOk p inBytes outBytes then bad 0x122 x.stage
      else
        match w.fetch x (mBAddr p) bN, w.fetch x (mBias p) biasN, w.fetch x (mNode p) nodeN with
        | .ok b, .ok bias, .ok nodes =>
          let u : MatIn := { p := p, recs := recs, b := b, bias := bias, nodes := nodes, ftz := ftz }
          if mCmp p then
            match (List.range (mNodeCount p)).find? (fun n => !nodeOk (mKeyFmt p) (mKeys p) (u.node n)) with
            | some n => bad 0x123 (x.stage + n * 256)
            | none => .ok u
          else .ok u
        | .error e, _, _ => .error e
        | _, .error e, _ => .error e
        | _, _, .error e => .error e

/-- Split the bytes of a slot into records. -/
def split (n size : Nat) (l : List Byte) : List (List Byte) := (List.range n).map (fun i => fit size (l.drop (i * size)))

/-- Input bytes of a unit: the slot before it (R318), the boundary (R332), or what GATHER or the combine delivered. -/
def unitInput (w : Wafer) (c : Cmd) (r : Run) (s k : Nat) : Except Bad (List Byte) :=
  let n := c.mbLenAt s k * c.inBytes s
  if s = 0 then .ok []
  else if c.rotSlot.isSome && s = c.firstPage then
    let a := w.scratchAt { c with run := some r } + k * (c.mbRecords * c.inBytes s)
    let st := w.readStatus (areaSrc c) a n
    if st = stOk then .ok (w.load a n) else .error (memBad st (w.faultAddr (areaSrc c) a n false))
  else if c.rotSlot.isSome && s = c.lastPage + 1 then
    .ok ((r.delivered.getD []).drop (k * (c.mbRecords * c.inBytes s)) |>.take n)
  else if c.kindOf (s - 1) = kGather then .ok ((r.operand.drop (k * (c.mbRecords * c.inBytes s))).take n)
  else .ok (((r.slots.find? (fun x => x.stage == s - 1 && x.mb == k)).map (·.data)).getD [])

/-- The save image of the unit on a matrix engine after it has run for `o.done` cycles (R362). -/
def engineImage (w : Wafer) (v : Cmd) (e : Nat) (o : OnEng) : Wafer :=
  match v.run with
  | none => w
  | some r =>
    let g := v.stage o.stage
    match w.unitInput v r o.stage o.mb with
    | .error _ => w
    | .ok l =>
      match w.matIn (w.ctxOf v o.stage) (sgParam g) (v.inBytes o.stage) (sgOut g) v.ftz (split (v.mbLenAt o.stage o.mb) (v.inBytes o.stage) l) with
      | .error _ => w
      | .ok u => w.saveImage v e (u.image (u.stopAt (o.done * 14)) e v.cls v.vol o.stage o.mb o.pass v.ring v.descIndex)

/-- Evaluate a waiting command (R292, R297, R298, R301): refuse, defer, or preempt for it. -/
def evaluate (w : Wafer) (site idx : Nat) : Wafer :=
  match w.cmd? site idx with
  | none => w
  | some c =>
    if !c.waiting || w.fenced c || !w.active site then w
    else
      let first := !c.seen
      let replay := decide (c.st = .aborted)
      let step := w.clkStep site
      if w.refusedFenced c then w.refuse c 3 0
      else if first && !replay && w.refusedPolicy c then w.refuse c 4 0
      else if first && !replay && w.refusedQuota c then w.refuse c 1 0
      else
        match w.unmeetable c with
        | some p => if replay then w.finish c clsLate 2 0 0 else w.refuse c 2 p
        | none =>
          let c := { c with seen := true }
          let w := w.setCmd c
          let e := w.engOf c
          let hs := w.holds c step
          if hs.isEmpty && usesMatrix c && w.mayPreempt c e then
            w.preempt c e (fun w v o => w.engineImage v e o)
          else if hs.isEmpty || c.defWritten || replay then w
          else
            let waited := since c.acceptRef (w.refcount site)
            let due := match w.startAt c step with
              | some s => decide (us (w.noticeUs c.vol) ≤ (s - w.now) + waited)
              | none => true
            if due then w.defer c else w

/-- Evaluate every waiting command of a site in rank order. -/
def evaluateSite (w : Wafer) (site : Nat) : Wafer := (w.ranking site).foldl (fun w c => w.evaluate site c.idx) w

end Wafer
end Sys2Proof.Machine
end

