-- ==== Sys2Proof/Machine/Beacons.lean ====
section
/-! DEFINITION. A beacon at a site (R30–R34): the image, the alarms it fires (R42–R48), jumps that pass a deadline
(Table FOL-7), and the waiting commands it re-evaluates (R297). -/

namespace Sys2Proof.Machine
namespace Wafer

/-- The target check of an alarm (R44): a live object, or a ring, of the alarm's volume on a site in service. -/
def almTargetOk (w : Wafer) (action id v : Nat) : Bool :=
  let site := id / 2048 % 128
  let n := id % 2048
  w.active site &&
  (if action = 1 then w.syncLive site n && w.syncVol site n == v else w.rVol (ringBlk site n) == v)

/-- Deliver an alarm's action (R44): ACTION 0 and the reserved 3 deliver nothing. -/
def almDeliver (w : Wafer) (site a action id value : Nat) : Wafer :=
  let b := almBlk site a
  if action ≠ 1 && action ≠ 2 then w
  else if !w.almTargetOk action id (w.get b F.FOL_ALM_CFG.VOLUME) then w.latch b F.FOL_ALM_STAT.TARGET_FAULT
  else if action = 1 then w.syncSignal id (BitVec.ofNat 64 value)
  else w.prodDoorbell (id / 2048 % 128) (id % 2048) value

/-- An image entry without STALE and SOURCE_OFF. -/
def imgLive (x : Word) : Bool := getF x 48 1 == 0 && getF x 51 1 == 0

/-- Whether an alarm fires, and whether a jump fired it (R42, R47, R48): DIR, its POSITION, the entries before and after
the update. After STALE or SOURCE_OFF the first evaluation applies R42 alone. -/
def almFires (dir pos : Nat) (old new : Word) : Bool × Bool :=
  let p := getF new 0 48
  let q := getF old 0 48
  let d := diff48 pos p
  let before := diff48 pos q
  let moved := diff48 p q
  let jump := imgLive old && getF old 56 8 != getF new 56 8
  let rev := getF new 50 1 == 1
  match dir with
  | 0 =>
    if jump && moved < 0 then (false, false)
    else if jump && 0 < moved && 0 < before && d ≤ 0 then (true, true)
    else (decide (d ≤ 0) && !rev, false)
  | 1 =>
    if jump && 0 < moved then (false, false)
    else if jump && moved < 0 && before < 0 && 0 ≤ d then (true, true)
    else (decide (0 ≤ d) && rev, false)
  | 2 =>
    let fire := d == 0 || (0 < before && d ≤ 0 && 0 < moved) || (before < 0 && 0 ≤ d && moved < 0)
    (fire, fire && jump)
  | _ => (false, false)

/-- Evaluate one alarm of a site after its counter's entry went from `old` to the entry now held (R42–R48). -/
def almEval (w : Wafer) (site a : Nat) (old : Word) : Wafer :=
  let b := almBlk site a
  let new := w.reg (imgKey site (w.get b F.FOL_ALM_CFG.COUNTER))
  let dir := w.get b F.FOL_ALM_CFG.DIR
  let period := w.get b F.FOL_ALM_PERIOD.PERIOD
  let periodic := w.flag b F.FOL_ALM_CFG.PERIODIC
  if !w.flag b F.FOL_ALM_CFG.ENABLE || !imgLive new then w
  else if periodic && (period = 0 || dir = 2) then w.latch b F.FOL_ALM_STAT.TARGET_FAULT
  else
    let pos := w.get b F.FOL_ALM_POS.POSITION
    let f := almFires dir pos old new
    if !f.1 then w
    else
      let p := getF new 0 48
      let value := w.get b F.FOL_ALM_TARGET.VALUE
      let w := (w.latch b F.FOL_ALM_STAT.FIRED).set b F.FOL_ALM_STAT.LAST_FIRE_POS p
      let w := w.set b F.FOL_ALM_STAT.PASSED_BY_JUMP (if f.2 then 1 else 0)
      let w :=
        if periodic then
          let n := (diff48 pos p).natAbs / period + 1
          let next := if dir = 0 then pos48 ((pos : Int) + n * period) else pos48 ((pos : Int) - n * period)
          ((w.set b F.FOL_ALM_POS.POSITION next).bumpBy b F.FOL_ALM_STAT.MISSED (n - 1)).set b F.FOL_ALM_TARGET.VALUE
            (value + w.get b F.FOL_ALM_TARGET.INDEX_STEP * n)
        else w.set b F.FOL_ALM_CFG.ENABLE 0
      w.almDeliver site a (w.get b F.FOL_ALM_CFG.ACTION) (w.get b F.FOL_ALM_TARGET.TARGET_ID) value

/-- The entries of a beacon take the place of the site's (R30–R32, R34): STALE follows the beacon's age. -/
def applyEntries (w : Wafer) (site : Nat) (x : Beacon) (stale : Bool) : Wafer :=
  let w := (List.range 16).foldl (fun w j =>
    w.setReg (imgKey site (16 * x.edge + j)) (putF (x.words.getD j 0) 48 1 (if stale then 1 else 0))) w
  let w := w.setReg (imgHeldKey site (16 * x.edge + x.heldIdx)) x.held
  let k := 16 * site + x.edge
  { w with fol := { w.fol with seen := Tab.put (fun _ => 0) w.fol.seen k x.sample,
                               staleSince := if stale then w.fol.staleSince else Tab.put (fun _ => 1) w.fol.staleSince k 0 } }

/-- The deadline of a running command across an update of its counter (Table FOL-7): passed by a declared jump, or not. -/
def noteJump (before : Wafer) (w : Wafer) (c : Cmd) : Wafer :=
  let key := imgKey c.site c.dlCounter
  let after := w.slackFt c
  let jumped :=
    if 0 < after then false
    else if before.get key F.FOL_IMG.EPOCH ≠ w.get key F.FOL_IMG.EPOCH && 0 < before.slackFt c then true
    else c.jumped
  if jumped = c.jumped then w else w.setCmd { c with jumped := jumped }

/-- BEACON_APPLY's effect (R32): entries, alarms in ascending order (R46), running and waiting commands. -/
def applyBeacon (w : Wafer) (site : Nat) (x : Beacon) : Wafer :=
  let before := w
  let old := (List.range 16).map (fun j => w.reg (imgKey site (16 * x.edge + j)))
  let age := since x.sample (w.refcount site)
  let late := decide (200 < age)
  let w := (if late then w.setStale site x.edge else w).applyEntries site x late
  let w := (List.range 256).foldl (fun w a =>
    let c := w.get (almBlk site a) F.FOL_ALM_CFG.COUNTER
    if w.flag (almBlk site a) F.FOL_ALM_CFG.ENABLE && c / 16 = x.edge then w.almEval site a (old.getD (c % 16) 0) else w) w
  let mine (c : Cmd) : Bool := c.dlValid && c.dlCounter / 16 == x.edge
  let w := ((w.siteCmds site).filter (fun c => c.run.isSome && mine c)).foldl (noteJump before) w
  ((w.ranking site).filter mine).foldl (fun w c => w.evaluate site c.idx) w

end Wafer

/-! ### Meanings -/

/-- BEACON_APPLY (R32–R34, R42–R48, R297): a beacon on its way reaches the site; one older than the entries held is
dropped. -/
def execBeaconApply (site : Fin 128) (edge : Fin 16) (sample : BitVec 64) (s : State) : Host.Outcome State Fault Refusal :=
  .next (s.onWafer fun w =>
    match w.fol.beacons.find? (fun x => x.edge == edge.val && x.sample == sample.toNat && x.sites.contains site.val) with
    | none => w
    | some x =>
      let left := w.fol.beacons.map (fun y => if y = x then { y with sites := y.sites.filter (· ≠ site.val) } else y)
      let w := { w with fol := { w.fol with beacons := left.filter (fun y => !y.sites.isEmpty) } }
      if !w.active site || (w.lastSeen site edge ≠ 0 && x.sample ≤ w.lastSeen site edge) then w else w.applyBeacon site x)

end Sys2Proof.Machine
end

