-- ==== Sys2Proof/Machine/Fetch.lean ====
section
/-! DEFINITION. Descriptors into the machine and completion records out of it: bursts, validation, start, conclusion, abort
and replay, restore, leave that arrives, mirrors (R55–R60, R244–R260, R291, R294, R303, R311–R317, R325–R328, R485, R506–R512,
R547–R551). -/

namespace Sys2Proof.Machine

/-- Bytes [i, j) of a list are 0. -/
def zeros (l : List Byte) (i j : Nat) : Bool := ((l.drop i).take (j - i)).all (· == 0)

/-- Validation of a descriptor (R245, R246): 0, or its FAILED code. -/
def descCode (d : List Byte) : Nat :=
  let op := leAt d 0 1
  let stages := leAt d 3 1
  let flag := leAt d 1 1
  let body := leAt d 24 8
  let quad (x : Nat) : Bool := x % 8 == 0
  let inRange :=
    (if op = 1 then 1 ≤ stages && stages ≤ 8 && body % 64 == 0 else stages == 0) &&
    (op != 2 || (quad body && quad (leAt d 32 8) && quad (leAt d 40 8) && 8 ≤ leAt d 40 8 && leAt d 40 8 ≤ 2 ^ 32)) &&
    (op != 3 || leAt d 35 1 % 4 ≤ 1)
  let clear :=
    flag < 64 && zeros d 4 8 && zeros d 14 16 &&
    (match op with
     | 1 => true
     | 2 => leAt d 48 8 < 2 ^ 23
     | 3 => body == 0 && leAt d 32 8 < 2 ^ 26 && leAt d 34 1 % 256 / 64 == 0 && leAt d 48 8 < 2 ^ 32 && zeros d 56 64
     | _ => body == 0 && zeros d 32 64)
  if 5 ≤ op then 0x101 else if !inRange then 0x102 else if !clear then 0x103 else 0

namespace Wafer

/-! ### Bursts (R258–R260, R291) -/

/-- Work rings of a site that hold something in their registers. -/
def workRings (w : Wafer) (site : Nat) : List Nat :=
  let lo := ringBlk site 0
  ((w.regs.filter (fun e => lo ≤ e.1 && e.1 < lo + 2048 * 64)).map (fun e => (e.1 - lo) / 64)).eraseDups

/-- Descriptors in a site's admission queue, and bursts under way to it (R258). -/
def queueUsed (w : Wafer) (site : Nat) : Nat :=
  ((w.siteCmds site).filter (fun c => c.run.isNone && c.isOpen)).length +
  sumOf ((w.que.bursts.filter (fun b => b.site == site)).map (·.count))

/-- Descriptors the next burst of a ring takes; 0 when the ring is not eligible (R258, R291, R504). Bursts under way have
their places set aside. -/
def burstSize (w : Wafer) (site r : Nat) : Nat :=
  let b := ringBlk site r
  let v := w.rVol b
  let compl (x : Nat) : Nat := w.get (ringBlk site x) F.QUE_RING_CTRL.COMPL_RING
  let under (p : Burst → Bool) : Nat := sumOf ((w.que.bursts.filter (fun x => x.site == site && p x)).map (·.count))
  if !w.ringOn b || w.rKind b ≠ 0 || w.que.bursts.any (fun x => x.site == site && x.ring == r) then 0
  else
    let free := w.complFree (w.complBlk site r) - 2 * under (fun x => compl x.ring == compl r)
    let wrapAt := w.rSize b - w.rCI b % w.rSize b
    let opens := if v = 0 then 32
      else w.volField v 0 45 10 - w.openCmds site v - under (fun x => w.rVol (ringBlk site x.ring) == v)
    let own := 1024 - (w.siteCmds site).length - under (fun _ => true)
    min 32 (min (w.rHeld b) (min wrapAt (min (free / 2) (min (512 - w.queueUsed site) (min opens own)))))

/-- The ring served next (R259): FETCH_PRI order, round robin by local index within one priority. -/
def nextRing (w : Wafer) (site : Nat) : Option Nat :=
  let pri (r : Nat) : Nat := w.get (ringBlk site r) F.QUE_RING_CTRL.FETCH_PRI
  let place (r : Nat) : Nat := (r + 2047 - Tab.look (fun _ => 2047) w.que.lastServed (4 * site + pri r)) % 2048
  ((w.workRings site).filter (fun r => 0 < w.burstSize site r)).foldl (fun b r =>
    match b with
    | none => some r
    | some x => if pri r < pri x || (pri r = pri x && place r < place x) then some r else b) none

/-- Start a burst (R259): at most 4 in flight per site. -/
def startBurst (w : Wafer) (site : Nat) : Wafer :=
  if 4 ≤ (w.que.bursts.filter (fun x => x.site == site)).length then w
  else
    match w.nextRing site with
    | none => w
    | some r =>
      let pri := w.get (ringBlk site r) F.QUE_RING_CTRL.FETCH_PRI
      let x : Burst := { site := site, ring := r, first := w.rCI (ringBlk site r), count := w.burstSize site r }
      { w with que := { w.que with bursts := w.que.bursts ++ [x],
                                   lastServed := Tab.put (fun _ => 2047) w.que.lastServed (4 * site + pri) r } }

/-- A command as accepted (R260, R507). -/
def newCmd (w : Wafer) (site ring idx index : Nat) (d : List Byte) : Cmd :=
  { site := site, idx := idx, st := .accepted, replays := 0, vol := w.rVol (ringBlk site ring), cls := leAt d 1 1 % 4,
    defWritten := false, buddyRun := false, ring := ring, home := site, descIndex := index, complIndex := 0,
    acceptRef := w.refcount site, firstStart := 0, claim := none, atomics := 0, lastFault := 0, lastDetail := 0, desc := d,
    header := [], stages := [], final := [], order := w.order, mirrored := false, mir := [], listRead := leAt d 0 1 != 1,
    seen := false, epoch := 0, jumped := false, srcLost := none, aborting := none, noReplay := false, rebuild := false,
    handed := none, run := none }

/-- Accept the descriptor of an index (R246, R260): unreadable and invalid ones complete FAILED. -/
def acceptDesc (w : Wafer) (site ring index : Nat) : Wafer :=
  match w.freeIdx site with
  | none => w
  | some idx =>
    let b := ringBlk site ring
    let q := queBlk site
    let a := w.rSlot b index
    let add (w : Wafer) (c : Cmd) : Wafer := { w with cmds := w.cmds ++ [c], order := w.order + 1 }
    let st := w.readStatus (volSrc (w.rVol b)) a 64
    if st ≠ stOk then
      let c := w.newCmd site ring idx index (patch (List.replicate 64 0) 16 (List.replicate 8 255))
      (((add w c).latch q F.QUE_EVT.DESC_READ).bump b F.QUE_RING_CNT.BAD_DESC).fail c 0x104 index
    else
      let d := w.load a 64
      let c := w.newCmd site ring idx index d
      let code := descCode d
      if code = 0 then add w c
      else (((add w c).latch q F.QUE_EVT.BAD_DESC).bump b F.QUE_RING_CNT.BAD_DESC).fail c code 0

/-- A burst returns (R260): slots, CI, shadow, acceptance in index order, evaluation. -/
def burstReturn (w : Wafer) (x : Burst) : Wafer :=
  let w := { w with que := { w.que with bursts := w.que.bursts.filter (· ≠ x) } }
  let b := ringBlk x.site x.ring
  let cb := w.complBlk x.site x.ring
  let w := w.set cb F.QUE_RING_RESV.RESERVED (w.get cb F.QUE_RING_RESV.RESERVED + 2 * x.count)
  let w := (w.setCI b (x.first + x.count)).shadow b (x.first + x.count)
  let w := (List.range x.count).foldl (fun w i => w.acceptDesc x.site x.ring ((x.first + i) % 2 ^ 32)) w
  w.evaluateSite x.site

/-! ### Stage lists (R312–R314) -/

/-- Kinds and their positions: the offending stage, if any (R314). -/
def listKind (g : List (List Byte)) : Option Nat :=
  let kind (i : Nat) : Nat := sgKind (g.getD i [])
  let pipe := (g.filter (fun x => sgKind x ≤ 5)).length
  (List.range g.length).find? (fun i =>
    decide (8 ≤ kind i) || (i == 0) != (kind i == kFetch) || (kind i == kEmit && i + 1 != pipe) ||
    (kind i ≤ 5 && pipe ≤ i) || (i + 1 == pipe && kind i != kEmit)) |>.or (if pipe = 0 then some 0 else none)

/-- Fields of the operands and the header (Tables CMD-1, CMD-2). -/
def headFields (w : Wafer) (c : Cmd) : Bool :=
  let d := c.desc
  let h := c.header
  1 ≤ c.records && c.records ≤ 2 ^ 24 &&
  (!Nat.testBit c.input 63 ||
    (c.input % 2 ^ 63 < 2 ^ 18 && c.input % 2 ^ 18 / 2048 == c.home &&
     (let b := ringBlk (c.input % 2 ^ 18 / 2048) (c.input % 2048); w.rKind b == 2 && w.rVol b == c.vol))) &&
  leAt d 56 2 / 16 % 2048 == 0 && zeros d 58 64 &&
  8 ≤ c.recordBytes && c.recordBytes ≤ 4096 && c.recordBytes % 8 == 0 && 1 ≤ c.mbRecords && c.mbRecords ≤ 4096 &&
  zeros h 4 8 && zeros h 20 24 && zeros h 36 64 && c.staging % 256 == 0 && c.stagingBytes % 256 == 0 &&
  c.scratch % 256 == 0 && c.scratchBytes % 256 == 0

/-- Fields of a stage word (Tables CMD-3, CMD-4; R380). -/
def stageFields (g : List Byte) : Bool :=
  let k := sgKind g
  let e := sgEngine g
  let cr := sgCredits g
  let a := sgArgA g
  let b := sgArgB g
  leAt g 0 1 < 64 &&
  (e == 0xFF || (k == kMatrix && e < 8) || ((k == kCore || k == kTransfer) && e < 12)) &&
  (if k ≤ 4 then 2 ≤ cr && cr ≤ 8 else cr == 0) &&
  (if k = kCore then 1 ≤ sgCores g && sgCores g ≤ 8 else sgCores g == 0) &&
  sgOut g ≤ 65536 && sgOut g % 8 == 0 && sgLeave g ≤ 600 && zeros g 20 24 && zeros g 40 64 &&
  sgAccOp g ≤ 3 && (if sgAccOp g = 0 then sgAccFmt g == 0 else accFits (sgAccOp g) (sgAccFmt g)) &&
  (match k with
   | 0 => sgParam g == 0 && a == 0 && b == 0
   | 1 => sgParam g % 64 == 0
   | 2 | 3 => sgParam g % 64 == 0 && a == 0 && b == 0
   | 4 => sgParam g % 64 == 0 && a < 2 ^ 17
   | 5 => sgParam g == 0 && 8 ≤ a && a ≤ 4096 && a % 8 == 0 && b == 0
   | 6 => 8 ≤ b && b ≤ 2 ^ 32 && b % 8 == 0
   | _ => b < 32 && b % 16 ≤ 9 && b % 16 != 1)

/-- PASS values and ACC_OP: the offending stage, if any (R314). -/
def listPass (c : Cmd) : Option Nat :=
  let n := c.pipeline
  if c.rotSlot.isNone then (List.range c.stages.length).find? (fun s => c.passOf s != 0 || sgAccOp (c.stage s) != 0)
  else
    let bad := (List.range c.stages.length).find? (fun s =>
      let p := c.passOf s
      let k := c.kindOf s
      if n ≤ s then sgAccOp (c.stage s) != 0
      else
        p == 0 || (s != 0 && p < c.passOf (s - 1)) || (k == kFetch && p != 1) || ((k == kGather || k == kEmit) && p != 3) ||
        (p == 2 && !(k == kCore || k == kMatrix || k == kSearch)) ||
        (sgAccOp (c.stage s) != 0) != (p == 2 && c.passOf (s + 1) != 2))
    bad.or (if (List.range n).any (fun s => c.passOf s == 2) then none else some 0)

/-- Bytes a CORE stage takes from its cluster's stage area (R432). -/
def coreBytes (c : Cmd) (s : Nat) : Nat :=
  let g := c.stage s
  sgCores g * pow2 (c.mbRecords * c.inBytes s) + sgCredits g * pow2 (c.mbRecords * sgOut g)

/-- SLOT_SPACE: the offending stage, or 255 for the whole (R314, R317, R432, R447). -/
def listSpace (c : Cmd) : Option Nat :=
  let first := c.stages.find? (fun g => sgKind g == kMatrix)
  let stageBad := (List.range c.stages.length).find? (fun s =>
    let g := c.stage s
    (c.kindOf s == kMatrix && first.any (fun f => sgEngine g != 0xFF && sgEngine f != sgEngine g)) ||
    (c.kindOf s == kCore &&
      ((sgEngine g == 11 && sgCores g == 8) ||
       decide (0x1E0000 < sumOf (((List.range (s + 1)).filter (fun t =>
          c.kindOf t == kCore && (t == s || (sgEngine g != 0xFF && sgEngine (c.stage t) == sgEngine g)))).map (coreBytes c))))))
  stageBad.or (if 2 ^ 21 < c.slotSpace then some 255 else none)

/-- The rotation slot serves the command (Table CMD-5, ROT_SLOT). -/
def rotOk (w : Wafer) (c : Cmd) : Bool :=
  match c.rotSlot with
  | none => true
  | some g =>
    let k := rotBlk c.site g
    w.flag k F.CMD_ROT_CFG.VALID && w.get k F.CMD_ROT_CFG.VOLUME == c.vol && w.get k F.CMD_ROT_CFG.STATE != 4

/-- Scratch a rotating command needs (R332). -/
def scratchNeed (w : Wafer) (c : Cmd) : Nat :=
  match c.rotSlot with
  | none => 0
  | some g => c.partialOff (w.get (rotBlk c.site g) F.CMD_ROT_CFG.MEMBERS)

/-- STAGING and SCRATCH (R314). -/
def areasOk (w : Wafer) (c : Cmd) : Bool :=
  w.ownSram c.vol c.home c.staging c.stagingBytes &&
  ((c.scratch == 0 && c.scratchBytes == 0) || w.ownSram c.vol c.home c.scratch c.scratchBytes) &&
  w.scratchNeed c ≤ c.scratchBytes

/-- Validation of a stage list as read (R314): code and DETAIL, if it fails. -/
def listCode (w : Wafer) (c : Cmd) : Option (Nat × Nat) :=
  match listKind c.stages with
  | some s => some (0x112, s)
  | none =>
    if !w.headFields c then some (0x113, 255)
    else
      match (List.range c.stages.length).find? (fun s => !stageFields (c.stage s)) with
      | some s => some (0x113, s)
      | none =>
        match listPass c with
        | some s => some (0x114, s)
        | none =>
          match listSpace c with
          | some s => some (0x115, s)
          | none => if !w.rotOk c then some (0x117, 255) else if !w.areasOk c then some (0x116, 255) else none

/-- A buddy run that names data the lost site alone held (R516, R517): the first such address of its descriptor, header and
stage words. A sync object of the lost site is named by its place in die space (log entry 45). -/
def sourceGone (w : Wafer) (c : Cmd) : Option Nat :=
  let names (a : Nat) : Bool := adRegion a == 0 && adWafer a == w.col.wafer && adDie a == c.home
  let rd (a n : Nat) : Option Nat := match w.mapRead (w.ctxOf c 0) a n with | .ok _ => none | .error _ => some a
  let wr (a : Nat) : Option Nat := if names a then some a else none
  let obj (id : Nat) : Option Nat :=
    if id / 2 ^ 18 % 16 == w.col.wafer && id % 2 ^ 18 / 2048 == c.home then some (syncKey c.home (id % 2048)) else none
  if !c.buddyRun || c.home = c.site then none
  else if c.opcode = 3 then obj (leAt c.desc 32 8)
  else if c.opcode = 2 then
    ((rd c.body c.copyLen).or (wr c.copyDest)).or (if Nat.testBit (leAt c.desc 48 8) 22 then obj (leAt c.desc 48 8) else none)
  else if !c.fused then none
  else
    ((match c.dataRing with
      | some id => if id / 2048 = c.home then some c.input else none
      | none => if c.listRead then rd c.input (c.records * c.recordBytes) else none).or
     (if c.listRead then none else rd c.body (64 * (c.stageCount + 1)))).or
    ((wr c.output).or ((List.range c.stages.length).findSome? (fun s =>
      let g := c.stage s
      match sgKind g with
      | 1 => rd (sgParam g) 128
      | 2 | 3 | 4 => rd (sgParam g) 64
      | 6 => (rd (sgParam g) (sgArgB g)).or (wr (sgArgA g))
      | 7 => wr (sgParam g)
      | _ => none)))

/-- Read and validate the list of an accepted FUSED command (R312, R314). -/
def readList (w : Wafer) (c : Cmd) : Wafer :=
  let at_ (i : Nat) : Nat := c.body + 64 * i
  let piece (i : Nat) : Except Bad (List Byte) :=
    if adRegion (at_ i) == 2 || w.ownSram c.vol c.home (at_ i) 64 then w.fetch (w.ctxOf c 0) (at_ i) 64
    else .error { code := 0x111, detail := 0, replay := false }
  let l := (List.range (c.stageCount + 1)).map piece
  match l.findIdx? (fun x => match x with | .ok _ => false | .error _ => true) with
  | some 0 => w.fail c 0x111 255
  | some (i + 1) => w.fail c 0x111 i
  | none =>
    let got (x : Except Bad (List Byte)) : List Byte := match x with | .ok d => d | .error _ => []
    let c := { c with header := got (l.getD 0 (.ok [])), stages := (l.drop 1).map got, listRead := true }
    match w.listCode c with
    | some x => w.fail c x.1 x.2
    | none =>
      match w.sourceGone c with
      | some a => w.fail c 0x164 a
      | none => (w.recChange c).evaluate c.site c.idx

/-! ### Conclusion (R55–R59, R249, R315, R328) -/

/-- The LATE code a command commits with, if it is late (Table FOL-7). -/
def lateCode (w : Wafer) (c : Cmd) : Option Nat :=
  if c.srcLost.isSome then (if c.cls = 0 then some 4 else none)
  else if !c.dlValid || w.flag (imgKey c.site c.dlCounter) F.FOL_IMG.SOURCE_OFF || 0 < w.slackFt c then none
  else if c.jumped && c.cls = 0 then some 3
  else some 1

/-- A command's work is done and committed: OK, REPLAYED_OK, or LATE (R56, R59). -/
def conclude (w : Wafer) (c : Cmd) (flags : Flags) (detail : Nat) : Wafer :=
  match w.lateCode c with
  | some k => w.finish c clsLate k flags detail
  | none => w.finish c (if 0 < c.replays then clsReplayed else clsOk) 0 flags detail

/-- A claim ends (R328): the ring's CI moves past every claim at its head whose command has ended. -/
def releaseClaim (w : Wafer) (site idx : Nat) : Wafer :=
  let w := { w with que := { w.que with claims := w.que.claims.map (fun x =>
    if x.site == site && x.idx == idx then { x with done := true } else x) } }
  let rec go : Nat → Wafer → Wafer
    | 0, w => w
    | n + 1, w =>
      match w.que.claims.find? (fun x => x.done && (w.que.claims.find? (fun y => y.ring == x.ring)) == some x) with
      | none => w
      | some x =>
        let b := ringBlk (x.ring / 2048) (x.ring % 2048)
        let i := (x.first + x.count) % 2 ^ 32
        let w := { w with que := { w.que with claims := dropFirst (· == x) w.que.claims } }
        go n ((w.setCI b i).shadow b i)
  go w.que.claims.length w

/-! ### Start (R245, R294, R317, R328, R507, R512) -/

/-- The lowest tag a unit does not use. -/
def freeTag (w : Wafer) (who : Requester) : Nat :=
  ((List.range 4096).find? (fun t => !w.out.any (fun o => o.who == who && o.tag == t))).getD 0

/-- A requester by die and unit. -/
def asker (die unit : Nat) : Requester := { die := Fin.ofNat 144 die, unit := BitVec.ofNat 8 unit }

/-- A SYNC descriptor's operation leaves a fetch engine's unit (Table QUE-6): the request waits for the command of its
arrival; one to another wafer of the shelf ends outside, one to a wafer not in the shelf is answered FENCED_TARGET. -/
def sendSync (w : Wafer) (c : Cmd) : Wafer :=
  let d := c.desc
  let id := leAt d 32 8 % 2 ^ 18
  let wafer := leAt d 32 8 / 2 ^ 18 % 16
  let wait := leAt d 35 1 % 4 == 1
  let who := asker c.site ((w.syncUnit c.site).getD 96)
  let tag := w.freeTag who
  let site := id / 2048
  let obj := id % 2048
  let x := BitVec.ofNat 64 (leAt d 40 8)
  let src := volSrc c.vol
  let cmd : Instr :=
    if wait then .syncWait who (BitVec.ofNat 12 tag) src (Fin.ofNat 128 site) (Fin.ofNat 2048 obj) x (BitVec.ofNat 32 (leAt d 48 4))
    else .syncAdd who (BitVec.ofNat 12 tag) src (Fin.ofNat 128 site) (Fin.ofNat 2048 obj) x
  let o : Out := { w.queOut who tag src site (syncKey site obj) wait with cmd := some (c.site, c.idx), need := some cmd }
  if wafer = w.col.wafer then { w with out := w.out ++ [o] }
  else
    let w := { w with out := w.out ++ [{ o with need := none }] }
    if w.col.shelf.contains wafer then
      let f := w.fresh
      let g := f.2.fresh
      if wait then g.2.send (.wake who tag (if f.1.toNat % 2 = 0 then qDone else qPoisoned) g.1)
      else g.2.queRsp who tag stOk (if f.1.toNat % 2 = 0 then qDone else qOverflow) g.1 []
    else w.queRsp who tag stFenced 0 0 []

/-- Start a command (R294, R317, R328, R507): home engine, slots, clusters, areas and claim are taken. -/
def start (w : Wafer) (c : Cmd) : Wafer :=
  let e := w.engOf c
  let bound := (w.bindCores c).getD ([], [])
  let unit : List Unit_ := if c.opcode = 2 then [{ stage := 0, mb := 0, res := 115, start := w.now }] else []
  let r : Run :=
    { start := w.now, eng := e, space := if c.fused then c.slotSpace else 0, clusters := bound.1, areas := bound.2,
      units := unit, next := [], ended := [], slots := [], entries := 0, flags := 0, passes := 0, inPass := false,
      half := false, page := 0, operand := [], delivered := none, asked := false, reloc := (w.relocPlace c).getD 0,
      ready := [], gathered := none }
  let first := decide (c.firstStart = 0)
  let k := fltBlk c.site
  let w := if first then w.count (admBlk c.site + 8 * c.cls) F.VOL_ADM_CNT.SERVED else w
  let w := if c.st = .aborted && !c.noReplay then (w.latch k F.FLT_EVT.REPLAY).bump k F.FLT_EVT.REPLAYS else w
  let claim := match c.dataRing, c.claim with
    | some id, none => some (id, w.claimNext id)
    | _, x => x
  let w := match c.dataRing, c.claim with
    | some id, none =>
      { w with que := { w.que with claims := w.que.claims ++
        [({ ring := id, first := w.claimNext id, count := c.records, site := c.site, idx := c.idx, done := false } : Claim)] } }
    | _, _ => w
  let c := { c with st := .running, firstStart := if first then w.refcount c.site else c.firstStart, claim := claim,
                    epoch := w.get (imgKey c.site c.dlCounter) F.FOL_IMG.EPOCH, jumped := false, noReplay := false,
                    run := some r }
  let w := w.recChange c
  match c.opcode with
  | 3 => w.sendSync c
  | 0 | 4 => w.conclude c 0 0
  | _ => w

/-- What a SYNC operation's end means for its command, or a COPY's signal for its own (R551): result, value. -/
def syncEnds (w : Wafer) (c : Cmd) (res : Nat) (v : Word) (at_ : Nat) (done : Nat) : Wafer :=
  if res = qPoisoned then w.fail c 0x105 at_
  else if res = qTimeout then w.fail c 0x106 at_
  else if res = qOverflow then w.conclude c fSAT (2 ^ 64 - 2)
  else w.conclude c 0 (if c.opcode = 3 then v.toNat else done)

/-- The rotation slot lets a bound command run. -/
def rotRuns (w : Wafer) (c : Cmd) : Bool :=
  match c.rotSlot with
  | none => true
  | some g => let s := w.get (rotBlk c.site g) F.CMD_ROT_CFG.STATE; s == 1 || s == 2

/-! ### Completion records (R250, R251, R257) -/

/-- The first record that waits for a ring. -/
def firstPend (w : Wafer) (site ring : Nat) : Option Pend := w.que.pend.find? (fun p => p.home == site && p.ring == ring)

def setPend (w : Wafer) (p : Pend) (q : Option Pend) : Wafer :=
  { w with que := { w.que with pend := match q with
      | none => dropFirst (· == p) w.que.pend
      | some q => w.que.pend.map (fun x => if x = p then q else x) } }

/-- The record and what it ends have reached the mirror (R507). -/
def pendMirrored (w : Wafer) (p : Pend) : Bool :=
  match p.cmd with
  | none => true
  | some k => match w.cmd? k.1 k.2 with | some c => c.mirrored | none => true

/-- The bytes with PHASE for index x (R250). -/
def withPhase (w : Wafer) (b x : Nat) (l : List Byte) : List Byte :=
  let phase := 1 - x / w.rSize b % 2
  patch l 11 [BitVec.ofNat 8 (leAt l 11 1 % 128 + 128 * phase)]

/-- An own record has become free: the first replay that waits for one at this site takes it (Table FLT-7). -/
def promote (w : Wafer) (site : Nat) : Wafer :=
  match (sortBy (fun a b : Cmd => decide (a.order < b.order)) ((w.siteCmds site).filter (fun c => 1024 ≤ c.idx))).head?, w.freeIdx site with
  | some c, some i =>
    let k := fltBlk site
    let move (p : Pend) : Pend := if p.cmd = some (site, c.idx) then { p with cmd := some (site, i) } else p
    let w := w.latch k F.FLT_EVT.BUDDY_RUN
    { w with cmds := w.cmds.map (fun x => if x = c then { c with idx := i } else x),
             que := { w.que with pend := w.que.pend.map move } }
  | _, _ => w

/-- A completion record that has been written: slots, progress, and with a final one the record, the claim and what waited
(R251, R328, R507, R521). -/
def pendDone (w : Wafer) (p : Pend) (b : Nat) : Wafer :=
  let w := w.setPend p none
  let w := (w.set b F.QUE_RING_RESV.RESERVED (w.get b F.QUE_RING_RESV.RESERVED - p.slots)).progressed p.vol
  match p.cmd with
  | none => w
  | some k =>
    if !p.final then w
    else
      let w := ((w.dropCmd k.1 k.2).releaseClaim k.1 k.2).promote k.1
      let w := w.evaluateSite k.1
      if k.1 = p.home then w else w.evaluateSite p.home

/-- Try to write the first waiting record of a completion ring (R250); a failed write is tried again after 1 ms (R535). -/
def writePend (w : Wafer) (site ring : Nat) : Wafer :=
  match w.firstPend site ring with
  | none => w
  | some p =>
    let b := ringBlk site ring
    if p.retryAt.isSome || !w.pendMirrored p || !w.active p.writer then w
    else
      let st := w.writeStatus (volSrc p.vol) (w.rSlot b (w.rPI b)) 32
      if st = stOk then (w.produce b (w.withPhase b (w.rPI b) p.bytes)).pendDone p b
      else if p.once then
        ((w.setPend p none).set b F.QUE_RING_RESV.RESERVED (w.get b F.QUE_RING_RESV.RESERVED - p.slots)).setVol p.vol
          { w.volInfo p.vol with lost := (w.volInfo p.vol).lost + 1 }
      else w.setPend p (some { p with retryAt := some (w.now + ms 1) })

/-! ### Timeouts, aborts and replay (R55, R325, R500, R511) -/

/-- The deadline has been reached while the command runs (R55). -/
def deadlineHit (w : Wafer) (c : Cmd) : Bool :=
  c.run.isSome && c.st == .running && c.cls == 0 && c.dlValid && !c.runLate && c.srcLost.isNone &&
  !w.flag (imgKey c.site c.dlCounter) F.FOL_IMG.SOURCE_OFF && decide (w.slackFt c ≤ 0)

def deadlineAbort (w : Wafer) (c : Cmd) : Wafer := w.abortFinish c clsLate (if c.jumped then 3 else 2) 0

/-- A fault whose DETAIL the spec leaves open. -/
def openFault (w : Wafer) (c : Cmd) (code : Nat) (replay : Bool) : Wafer :=
  let f := w.fresh
  f.2.faultCmd c { code := code, detail := f.1.toNat, replay := replay }

/-- A unit that runs: not the saved unit of a preempted engine, nor one of a command whose abort is under way. -/
def unitRuns (w : Wafer) (c : Cmd) (u : Unit_) : Bool :=
  8 ≤ u.res || (w.engAt c.site u.res).on.any (fun o => o.idx == c.idx && o.stage == u.stage && o.mb == u.mb)

/-- The group of a rotating command is dissolved (R335). -/
def rotLost (w : Wafer) (c : Cmd) : Bool :=
  match c.rotSlot with | some g => w.get (rotBlk c.site g) F.CMD_ROT_CFG.STATE == 4 | none => false

/-- An abort is complete (R500, R509, R511): replay, FAILED, or a run that counts as no replay after a rebuild (R335). -/
def abortDone (w : Wafer) (c : Cmd) : Wafer :=
  let k := fltBlk c.site
  let c := { c with aborting := none, st := .aborted }
  if c.rebuild then
    (if w.rotLost c then (let f := w.fresh; f.2.fail c 0x119 f.1.toNat)
     else (w.recChange { c with rebuild := false, noReplay := true }).evaluateSite c.site)
  else if c.noReplay then w.fail c (c.lastFault % 4096) c.lastDetail.toNat
  else if c.replays < w.get k F.FLT_CFG.MAX_REPLAYS then
    (w.recChange { c with replays := c.replays + 1 }).evaluateSite c.site
  else (w.latch k F.FLT_EVT.REPLAY_LIMIT).fail c (c.lastFault % 4096) c.lastDetail.toNat

/-! ### Restore (R303, R364) -/

/-- The preempting command has let the engine go: it has ended, been aborted, or has no MATRIX unit left. -/
def letGo (w : Wafer) (site e idx : Nat) : Bool :=
  match w.cmd? site idx with
  | none => true
  | some c =>
    match c.run with
    | none => c.st != .accepted
    | some r =>
      r.eng != e || (List.range c.stages.length).all (fun s =>
        c.kindOf s != kMatrix || (c.unitsOf s ≤ Tab.look (fun _ => 0) r.ended s && (c.rotSlot.isNone || r.delivered.isSome)))

/-- The saved unit to restore: the strongest class. -/
def savedFirst (l : List Saved) : Option Saved :=
  l.foldl (fun b s => match b with | none => some s | some x => if s.cls < x.cls then some s else b) none

def restoreUnit (w : Wafer) (site e : Nat) : Wafer :=
  let x := w.engAt site e
  match savedFirst x.saved with
  | none => w
  | some s =>
    match w.cmd? site s.unit.idx with
    | none => w
    | some v =>
      match v.run with
      | none => w
      | some r =>
        let led := (w.heavies v e).all (fun h => h.2.1 != e || w.hasLeave v e)
        if x.on.isSome || x.halted.isSome || !w.letGo site e s.by_ || !led then w
        else
          let w := w.setEng site e { x with saved := x.saved.filter (· ≠ s) }
          let a := w.ownAddr (saveSlot site e s.cls)
          if w.readStatus .unhal a 0x4900 ≠ stOk then w.faultCmd v (memBad stData a)
          else
            let begun := w.now - s.unit.done
            let w := w.setEng site e { x with on := some { s.unit with start := w.now }, saved := x.saved.filter (· ≠ s) }
            let w := (w.latch (matBlk site e) F.MAT_EVT.RESTORED).count (admBlk site) F.VOL_ADM_PREEMPT.RESTORES
            w.setRun v { r with units := r.units.map (fun u =>
              if u.res = e && u.stage = s.unit.stage && u.mb = s.unit.mb then { u with start := begun } else u) }

end Wafer

/-! ### Meanings -/

/-- FETCH_BURST (R258, R259, R291). -/
def execFetchBurst (site : Fin 128) (s : State) : Host.Outcome State Fault Refusal :=
  .next (s.onWafer fun w => if w.active site then w.startBurst site else w)

/-- FETCH_BURST_RETURN (R246, R251, R260, R297). -/
def execFetchBurstReturn (site : Fin 128) (ring : Fin 2048) (s : State) : Host.Outcome State Fault Refusal :=
  .next (s.onWafer fun w =>
    match w.que.bursts.find? (fun x => x.site == site.val && x.ring == ring.val) with
    | some x => if w.active site then w.burstReturn x else w
    | none => w)

/-- A command over an own record: the machine is unchanged when the record holds no such command. -/
def onRecord (site rec_ : Nat) (s : State) (f : Wafer → Cmd → Wafer) : Host.Outcome State Fault Refusal :=
  .next (s.onWafer fun w => match w.cmd? site rec_ with | some c => if w.active site then f w c else w | none => w)

/-- STAGE_LIST_READ (R312, R314). -/
def execStageListRead (site : Fin 128) (rec_ : Fin 1024) (s : State) : Host.Outcome State Fault Refusal :=
  onRecord site rec_ s fun w c =>
    if c.st == .accepted && c.fused && !c.listRead then w.readList c else w

/-- COMMAND_START (R245, R294, R317, R328, R507, R512). -/
def execCommandStart (site : Fin 128) (rec_ : Fin 1024) (s : State) : Host.Outcome State Fault Refusal :=
  onRecord site rec_ s fun w c => if w.canStart c && w.rotRuns c then w.start c else w

/-- COMPLETION_RECORD (R247–R252, R257, R328, R507). -/
def execCompletionRecord (site : Fin 128) (ring : Fin 2048) (s : State) : Host.Outcome State Fault Refusal :=
  .next (s.onWafer fun w => w.writePend site ring)

/-- COMPLETION_RETRY (R535): a failed write is tried again once 1 ms has passed. -/
def execCompletionRetry (site : Fin 128) (ring : Fin 2048) (s : State) : Host.Outcome State Fault Refusal :=
  .next (s.onWafer fun w =>
    match w.firstPend site ring with
    | some p =>
      match p.retryAt with
      | some t => if t ≤ w.now then (w.setPend p (some { p with retryAt := none })).writePend site ring else w
      | none => w
    | none => w)

/-- DEADLINE_ABORT (R55, R339). -/
def execDeadlineAbort (site : Fin 128) (rec_ : Fin 1024) (s : State) : Host.Outcome State Fault Refusal :=
  onRecord site rec_ s fun w c => if w.deadlineHit c then w.deadlineAbort c else w

/-- COMMAND_TIMEOUT (R60, R325, R510): no replay; at the deadline of a FOLIO command the deadline wins. -/
def execCommandTimeout (site : Fin 128) (rec_ : Fin 1024) (s : State) : Host.Outcome State Fault Refusal :=
  onRecord site rec_ s fun w c =>
    let limit := ms (w.get (cmdBlk site) F.CMD_CFG.CMD_TIMEOUT_MS)
    if !c.isOpen || c.firstStart = 0 || since c.firstStart (w.refcount site) < limit then w
    else if w.deadlineHit c then w.deadlineAbort c
    else if c.run.isSome then w.openFault c 0x163 false
    else if c.aborting.isSome then w.recChange { c with noReplay := true, lastFault := 0x5163 }
    else let f := w.fresh; f.2.abortFinish c clsFailed 0x163 f.1.toNat

/-- STAGE_WATCHDOG (R325, R329, R510, R552): at the root of a gather session it ends the session, every participant of which
is aborted. -/
def execStageWatchdog (site : Fin 128) (rec_ : Fin 1024) (stage : Fin 8) (s : State) : Host.Outcome State Fault Refusal :=
  onRecord site rec_ s fun w c =>
    let limit := us (w.get (cmdBlk site) F.CMD_CFG.STAGE_WD_US)
    match c.run with
    | none => w
    | some r =>
      if r.units.any (fun u => u.stage == stage.val && w.unitRuns c u && decide (limit ≤ since u.start w.now)) then
        let root (p : Part) : Bool := p.slot == 0 && p.site == c.site && p.idx == c.idx
        let all : List Part := if c.kindOf stage = kGather then
            ((w.gat.filter (fun g => g.parts.any root)).flatMap (·.parts)).filter (fun p => !root p) else []
        let w := (w.latch (cmdBlk site) F.CMD_EVT.WATCHDOG).openFault c 0x162 true
        all.foldl (fun w p => match w.cmd? p.site p.idx with
          | some x => (w.latch (cmdBlk p.site) F.CMD_EVT.WATCHDOG).openFault x 0x162 true
          | none => w) w
      else w

/-- ABORT_COMPLETE (R336, R337, R500, R507, R511). -/
def execAbortComplete (site : Fin 128) (rec_ : Fin 1024) (s : State) : Host.Outcome State Fault Refusal :=
  onRecord site rec_ s fun w c => if c.aborting.isSome && c.run.isNone then w.abortDone c else w

/-- RESTORE (R303, R364). -/
def execRestore (site : Fin 128) (engine : Fin 8) (s : State) : Host.Outcome State Fault Refusal :=
  .next (s.onWafer fun w => if w.active site then w.restoreUnit site engine else w)

/-- LEAVE_GRANT (R482, R496): the grant reaches its site, and what waited for it is evaluated. -/
def execLeaveGrant (site : Fin 128) (res : Nat) (s : State) : Host.Outcome State Fault Refusal :=
  .next (s.onWafer fun w =>
    let p (m : Msg) : Bool := match m with | .leaveGrant s r _ _ _ => s == site.val && r == res | _ => false
    match w.incoming p with
    | some (.leaveGrant _ _ h _ _) =>
      let w := ((w.take p).count (lveBlk site) F.LVE_SITE_CNT.GRANTS).setTold site res none
      let w := match w.grantOf site h with | some g => w.setGrant g { g with arrived := true } | none => w
      w.evaluateSite site
    | _ => w)

/-- LEAVE_DENIAL (R483, R496): reason and AVAIL_US feed admission; an answer to a renewal or a return names no resource. -/
def execLeaveDenial (site : Fin 128) (res : Nat) (s : State) : Host.Outcome State Fault Refusal :=
  .next (s.onWafer fun w =>
    let p (m : Msg) : Bool := match m with | .leaveDenial s r _ _ _ => s == site.val && r == res | _ => false
    match w.incoming p with
    | some (.leaveDenial _ _ reason avail t) =>
      let w := w.take p
      if res = 1023 then w
      else
        let b := lveBlk site
        (((w.bump b F.LVE_SITE_CNT.DENIALS).latch b F.LVE_SITE_EVT.DENIED).setTold site res
          (some (reason, t + us avail))).evaluateSite site
    | _ => w)

/-- MIRROR_WRITE (R506): the mirror takes the record as it stands and acknowledges it. -/
def execMirrorWrite (site : Fin 128) (rec_ : Fin 1024) (s : State) : Host.Outcome State Fault Refusal :=
  onRecord site rec_ s fun w c =>
    if c.mirrored then w else w.setCmd { c with mir := c.bytes w.col.wafer, mirrored := true }

/-- REMIRROR_DONE (R506): every own record has reached the new buddy. -/
def execRemirrorDone (site : Fin 128) (s : State) : Host.Outcome State Fault Refusal :=
  .next (s.onWafer fun w =>
    if !w.que.copying.contains site.val then w
    else
      { w with cmds := w.cmds.map (fun c => if c.site == site.val then { c with mir := c.bytes w.col.wafer, mirrored := true } else c),
               que := { w.que with copying := w.que.copying.filter (· ≠ site.val), bare := w.que.bare.filter (· ≠ site.val) } })

end Sys2Proof.Machine
end

