-- ==== Sys2Proof/Machine/Press.lean ====
section
/-! DEFINITION. The press module's supervisor (spec file 02): power sequence, shutdowns, references, coolant and trips,
resets and their pins (R66–R94). -/

namespace Sys2Proof.Machine

/-- Every entry satisfies `p` (10 mV units). -/
def entriesAll (v : Inputs4) (p : Nat → Bool) : Bool := p v.nw.toNat && p v.ne.toNat && p v.se.toNat && p v.sw.toNat

def entriesAny (v : Inputs4) (p : Nat → Bool) : Bool := p v.nw.toNat || p v.ne.toNat || p v.se.toNat || p v.sw.toNat

/-- MOD_PWR_VIN of four entry voltages (R68). -/
def entriesVin (v : Inputs4) : Word := v.sw ++ v.se ++ v.ne ++ v.nw

/-- Memory outside the wafer, which an internal reset does not touch (R78): host memory and other wafers. -/
def outside (c : Host.Cell) : Bool := decide (c.1 / 2 ^ 60 = 4) || decide (2 ^ 64 ≤ c.1)

namespace Sup

/-- The envelope cap of Table MOD-7 for an inlet temperature (1/16 °C) and a flow (0.01 L/min). -/
def capFor (inlet : Int) (flow : Nat) : Nat :=
  min (if inlet ≤ 32 * 16 then 20 else if inlet ≤ 34 * 16 then 17 else if inlet ≤ 36 * 16 then 14
       else if inlet < 40 * 16 then 10 else 7)
      (if 3600 ≤ flow then 20 else if 3000 ≤ flow then 16 else if 2000 ≤ flow then 10 else 7)

/-- The cap in force: the coolant cap, at most 15 while an entry is lost (R77, R84). -/
def capNow (p : Sup) : Nat := if p.entryCap then min p.coolCap 15 else p.coolCap

def entriesOk (p : Sup) : Nat := p.get F.MOD_PWR_STAT.ENTRY_OK

/-- Reference valid (R79): false for REFA, true for REFB. -/
def refOk (p : Sup) (b : Bool) : Bool :=
  if b then p.flag F.MOD_PWR_STAT.REFB_OK else p.flag F.MOD_PWR_STAT.REFA_OK

def refOkFld (b : Bool) : Fld := if b then F.MOD_PWR_STAT.REFB_OK else F.MOD_PWR_STAT.REFA_OK

/-- The reference has been valid for `n` µs. -/
def refValidFor (p : Sup) (b : Bool) (n : Nat) : Bool :=
  p.refOk b && decide ((us n : Int) ≤ (p.clock : Int) - Tab.look (fun _ => 0) p.refSince (if b then 1 else 0))

/-- The coolant conditions of Table MOD-8 that hold now, as cause bits 3 to 6 (R85). -/
def coolantTrips (p : Sup) : Nat :=
  let held (o : Option Nat) (n : Nat) : Bool := match o with | some t => decide (n ≤ since t p.clock) | none => false
  (if 55 * 16 ≤ signed 16 (p.get F.MOD_COOL.OUTLET) then 8 else 0) + (if held p.hotSince (ms 1000) then 16 else 0) +
  (if held p.slowSince (ms 1000) then 32 else 0) + (if held p.wetSince (ms 100) then 64 else 0)

/-- Every coolant condition of Table MOD-8 is clear in the last sample. -/
def coolantClear (p : Sup) : Bool :=
  decide (signed 16 (p.get F.MOD_COOL.OUTLET) < 55 * 16) && p.hotSince.isNone && p.slowSince.isNone && p.wetSince.isNone

/-- All planes up in order, hot-swap stages closed, every entry carrying load, PGOOD (Table MOD-4, steps 2 to 7). -/
def powerUp (p : Sup) : Sup :=
  let p := { p with power := .on, planes := 15, hotSwap := true, inReset := true }
  (((p.set F.MOD_PWR_STAT.PGOOD 1).set F.MOD_PWR_STAT.ENTRY_OK 15).set F.MOD_PWR_STAT.CAP_KW p.capNow)

/-- The orderly shutdown of Table MOD-5: PGOOD low, internal reset, planes off in order, hot-swap stages open. -/
def powerDown (p : Sup) (why : Power) : Sup :=
  let p := { p with power := why, planes := 0, hotSwap := false, inReset := true, resetDue := none }
  ((p.set F.MOD_PWR_STAT.PGOOD 0).set F.MOD_PWR_STAT.ENTRY_OK 0).setReg 0x10 0

/-- MOD_ALERT_N asserted: an enabled event, or a trip whatever the enables (R70). -/
def modAlert (p : Sup) : Bool :=
  p.reg 0x20 &&& p.reg 0x28 &&& 0x1FFF != 0 || p.power == .tripped

/-- MOD_THERMTRIP_N low (R85). -/
def thermTrip (p : Sup) : Bool := p.power == .tripped

end Sup

namespace State

/-- Internal reset asserted (R78): all on-wafer state is lost; host memory and other wafers keep theirs. -/
def internalReset (s : State) : State :=
  { s with sup := { s.sup with inReset := true, resetDue := none },
           waf := { Wafer.init (s.waf.mem.filter outside) with free := s.waf.free } }

/-- An orderly shutdown with its cause latched (R75). -/
def shutdown (s : State) (f : Fld) (why : Power) : State := ((s.modEvent f).onSup (fun p => p.powerDown why)).internalReset

/-- CAP_KW takes the cap in force; a change latches CAP_CHANGE and reaches the wafer steward at once (R84). -/
def applyCap (s : State) : State :=
  let c := s.sup.capNow
  if s.sup.get F.MOD_PWR_STAT.CAP_KW = c || s.sup.power != .on then s
  else ((s.onSup (fun p => p.set F.MOD_PWR_STAT.CAP_KW c)).modEvent F.MOD_EVENT.CAP_CHANGE).onWafer
    (fun w => { w with capKw := c })

/-- The selected reference changes, with REF_SWITCH (R80, R81). -/
def selectRef (s : State) (b : Bool) : State :=
  (s.onSup (fun p => p.set F.MOD_PWR_STAT.REF_SEL (if b then 1 else 0))).modEvent F.MOD_EVENT.REF_SWITCH

/-- The reference that REF_MODE names, if it names one (R81). -/
def namedRef (s : State) : Option Bool :=
  match s.sup.get F.MOD_CLK_CFG.REF_MODE with
  | 0 => some false
  | 1 => some true
  | _ => none

/-- Under AUTO_A or AUTO_B, the named reference is selected once it has been valid for 1 s (R81). -/
def returnRef (s : State) : State :=
  match s.namedRef with
  | some b => if s.sup.refValidFor b 1000000 && s.sup.flag F.MOD_PWR_STAT.REF_SEL != b then s.selectRef b else s
  | none => s

end State

/-- SUPERVISOR_START (R66): any entry above 20 V; registers take their reset values. Flashes, fuses and the
non-volatile wafer number stay. -/
def execSupervisorStart (vin : Inputs4) (s : State) : Host.Outcome State Fault Refusal :=
  .next (if !s.sup.running && entriesAny vin (fun v => 2000 < v) then
    s.onSup (fun p => ({ Sup.init with running := true, clock := p.clock, waferNum := p.waferNum, flash := p.flash,
                                       blown := p.blown }).setReg 0x08 (entriesVin vin))
  else s)

/-- SUPERVISOR_STOP (R66, R76, R86): every entry below 20 V; clears OV_LATCH and a trip. -/
def execSupervisorStop (vin : Inputs4) (s : State) : Host.Outcome State Fault Refusal :=
  .next (if s.sup.running && entriesAll vin (fun v => v < 2000) then
    (s.onSup (fun p => { Sup.init with clock := p.clock, waferNum := p.waferNum, flash := p.flash,
                                       blown := p.blown })).internalReset
  else s)

/-- POWER_ON (R73): every entry at or above 43 V; the planes come up in order, PGOOD high, CAP_KW set. -/
def execPowerOn (vin : Inputs4) (s : State) : Host.Outcome State Fault Refusal :=
  .next (if s.sup.running && s.sup.power = .off && entriesAll vin (fun v => 4300 ≤ v) then
    s.onSup (fun p => (p.setReg 0x08 (entriesVin vin)).powerUp) else s)

/-- INTERNAL_RESET_RELEASE (R73, R82, R109): power good, MOD_RESET_N high, a reference valid for 1 ms. The wafer starts
from its reset values. -/
def execInternalResetRelease (resetPinHigh : Bool) (s : State) : Host.Outcome State Fault Refusal :=
  .next (if s.sup.power = .on && s.sup.inReset && resetPinHigh &&
      (s.sup.refValidFor false 1000 || s.sup.refValidFor true 1000) then
    { s.internalReset with
      sup := { s.sup with inReset := false, resetDue := none },
      waf := { s.internalReset.waf with capKw := s.sup.get F.MOD_PWR_STAT.CAP_KW } }
  else s)

/-- RAIL_FAULT (R74): a shared plane misses tolerance in the sequence or in its one restart. -/
def execRailFault (group : Fin 4) (s : State) : Host.Outcome State Fault Refusal :=
  let down (p : Power) : State :=
    (s.modEvent F.MOD_EVENT.RAIL_FAULT).onSup (fun q => (q.powerDown p).set F.MOD_PWR_STAT.RAIL_GROUP (group + 1))
  .next (match s.sup.running, s.sup.power with
    | true, .off => down (.railWait s.sup.clock)
    | true, .railWait t => if ms 1000 ≤ since t s.sup.clock then down .railDead else s
    | _, _ => s)

/-- RAIL_RESTART (R74): 1 s after a rail fault the sequence runs once more. -/
def execRailRestart (s : State) : Host.Outcome State Fault Refusal :=
  .next (match s.sup.power with
    | .railWait t => if ms 1000 ≤ since t s.sup.clock then s.onSup Sup.powerUp else s
    | _ => s)

/-- Entries not carrying load. -/
def lostEntries (p : Sup) : Nat := ((List.range 4).filter (fun i => !Nat.testBit p.entriesOk i)).length

/-- POWER_FAIL (R75): bulk below 42 V, or two or more entries lost. -/
def execPowerFail (bulk : BitVec 16) (lost : Fin 5) (s : State) : Host.Outcome State Fault Refusal :=
  .next (if s.sup.power = .on && (bulk.toNat < 4200 || 2 ≤ lost.val || 2 ≤ lostEntries s.sup) then
    s.shutdown F.MOD_EVENT.POWER_FAIL .failed else s)

/-- POWER_FAIL_RESTART (R76): all entries at or above 43 V for 100 ms. -/
def execPowerFailRestart (vin : Inputs4) (heldUs : Nat) (s : State) : Host.Outcome State Fault Refusal :=
  .next (if s.sup.power = .failed && entriesAll vin (fun v => 4300 ≤ v) && 100000 ≤ heldUs then
    s.onSup (fun p => ({ p with entryCap := false }.setReg 0x08 (entriesVin vin)).powerUp) else s)

/-- OVERVOLT (R75, R76): an entry above 59 V for 10 µs. -/
def execOvervolt (_entry : Fin 4) (volts : BitVec 16) (heldUs : Nat) (s : State) : Host.Outcome State Fault Refusal :=
  .next (if s.sup.running && 5900 < volts.toNat && 10 ≤ heldUs then
    let why := if s.sup.power = .tripped then Power.tripped else .overvolt
    (s.shutdown F.MOD_EVENT.OVERVOLT why).onSup (fun p => p.set F.MOD_PWR_STAT.OV_LATCH 1) else s)

/-- ENTRY_LOST (R77): an entry below 40 V or with reversed current is disconnected; the cap is at most 15. -/
def execEntryLost (entry : Fin 4) (volts : BitVec 16) (reversed : Bool) (s : State) :
    Host.Outcome State Fault Refusal :=
  .next (if s.sup.power = .on && Nat.testBit s.sup.entriesOk entry && (volts.toNat < 4000 || reversed) then
    ((s.modEvent F.MOD_EVENT.ENTRY_LOST).onSup (fun p =>
      { p.set F.MOD_PWR_STAT.ENTRY_OK (p.entriesOk - 2 ^ entry.val) with entryCap := true })).applyCap
  else s)

/-- ENTRY_REJOIN (R77): a lost entry within 44–58 V for 1 s carries load again; the cap it imposed is lifted. -/
def execEntryRejoin (entry : Fin 4) (volts : BitVec 16) (heldUs : Nat) (s : State) :
    Host.Outcome State Fault Refusal :=
  .next (if s.sup.power = .on && !Nat.testBit s.sup.entriesOk entry && 4400 ≤ volts.toNat && volts.toNat ≤ 5800 &&
      1000000 ≤ heldUs then
    (s.onSup (fun p =>
      let p := p.set F.MOD_PWR_STAT.ENTRY_OK (p.entriesOk + 2 ^ entry.val)
      { p with entryCap := decide (p.entriesOk ≠ 15) })).applyCap
  else s)

/-- INPUT_LOW (R71): an entry below 44 V for 100 µs. -/
def execInputLow (_entry : Fin 4) (volts : BitVec 16) (heldUs : Nat) (s : State) : Host.Outcome State Fault Refusal :=
  .next (if s.sup.running && volts.toNat < 4400 && 100 ≤ heldUs then s.modEvent F.MOD_EVENT.INPUT_LOW else s)

/-- REF_SWITCH (R80): the selected reference is invalid and the other valid. -/
def execRefSwitch (s : State) : Host.Outcome State Fault Refusal :=
  let sel := s.sup.flag F.MOD_PWR_STAT.REF_SEL
  .next (if s.sup.running && !s.sup.refOk sel && s.sup.refOk (!sel) then
    (s.selectRef (!sel)).modEvent F.MOD_EVENT.REF_DEGRADED else s)

/-- REF_VALID (R79): within ±100 ppm for 1 ms. -/
def execRefValid (refB : Bool) (offPpm heldUs : Nat) (s : State) : Host.Outcome State Fault Refusal :=
  .next (if s.sup.running && offPpm ≤ 100 && 1000 ≤ heldUs && !s.sup.refOk refB then
    s.onSup (fun p =>
      { p.set (Sup.refOkFld refB) 1 with
        refSince := Tab.put (fun _ => 0) p.refSince (if refB then 1 else 0) ((p.clock : Int) - us (heldUs - 1000)) })
  else s)

/-- REF_INVALID (R79): four consecutive missed edges. -/
def execRefInvalid (refB : Bool) (missed : Nat) (s : State) : Host.Outcome State Fault Refusal :=
  .next (if s.sup.running && 4 ≤ missed && s.sup.refOk refB then
    (s.onSup (fun p => p.set (Sup.refOkFld refB) 0)).modEvent F.MOD_EVENT.REF_DEGRADED else s)

/-- REF_RETURN (R81). -/
def execRefReturn (s : State) : Host.Outcome State Fault Refusal :=
  .next (if s.sup.running then s.returnRef else s)

/-- REF_LOST (R82): neither reference valid for 10 µs; reset without taking power down. -/
def execRefLost (heldUs : Nat) (s : State) : Host.Outcome State Fault Refusal :=
  .next (if s.sup.power = .on && !s.sup.refOk false && !s.sup.refOk true && 10 ≤ heldUs then
    (s.modEvent F.MOD_EVENT.REF_LOST).internalReset else s)

/-- REF_MODE_WRITE (R67, R69, R81): REF_MODE 3 is refused; a named reference valid for 1 s is selected. -/
def execRefModeWrite (src : Src) (_via8 : Bool) (value : Word) (s : State) : Host.Outcome State Fault Refusal :=
  .next (match src with
    | .volume _ => s
    | _ => if s.sup.running && getF value 0 2 ≠ 3 then
        (s.onSup (fun p => p.set F.MOD_CLK_CFG.REF_MODE (getF value 0 2))).returnRef else s)

/-- COOLANT_SAMPLE (R69, R84): the 10 ms sample, its warnings, a lower cap at once, and the time a higher one has been
due with 0.5 °C or 1 L/min to spare. -/
def execCoolantSample (inlet outlet flow : BitVec 16) (leak : Bool) (s : State) : Host.Outcome State Fault Refusal :=
  .next (if s.sup.running then
    let t := s.sup.clock
    let hold (c : Bool) (o : Option Nat) : Option Nat := if c then some (o.getD t) else none
    let s := s.onSup (fun p =>
      { (p.setReg 0x18 (BitVec.ofNat 64 (inlet.toNat + outlet.toNat * 2 ^ 16 + flow.toNat * 2 ^ 32 +
          (if leak then 2 ^ 48 else 0)))) with
        hotSince := hold (decide (40 * 16 ≤ inlet.toInt)) p.hotSince
        slowSince := hold (decide (flow.toNat < 2000)) p.slowSince
        wetSince := hold leak p.wetSince })
    let s := if 32 * 16 < inlet.toInt then s.modEvent F.MOD_EVENT.INLET_WARN else s
    let s := if flow.toNat < 3600 then s.modEvent F.MOD_EVENT.FLOW_WARN else s
    let target := Sup.capFor inlet.toInt flow.toNat
    let spare := Sup.capFor (inlet.toInt + 8) (flow.toNat - 100)
    let s := s.onSup (fun p =>
      if target < p.coolCap then { p with coolCap := target, capClear := none }
      else if p.coolCap < spare then
        { p with capClear := some (match p.capClear with | some (t0, m) => (t0, min m spare) | none => (t, spare)) }
      else { p with capClear := none })
    s.applyCap
  else s)

/-- CAP_RAISE (R84): the condition has been clear with margin for 10 s. -/
def execCapRaise (s : State) : Host.Outcome State Fault Refusal :=
  .next (match s.sup.capClear with
    | some (t0, m) =>
      if s.sup.running && ms 10000 ≤ since t0 s.sup.clock then
        (s.onSup (fun p => { p with coolCap := m, capClear := none })).applyCap
      else s
    | none => s)

/-- TRIP (R85): every condition of Table MOD-8 that holds in t0 is recorded, then the shutdown runs. -/
def execTrip (conditions : BitVec 7) (die : BitVec 8) (s : State) : Host.Outcome State Fault Refusal :=
  let dieBits := conditions.toNat % 8
  let cause := dieBits + s.sup.coolantTrips
  .next (if s.sup.running && s.sup.power ≠ .tripped && cause ≠ 0 then
    (s.onSup (fun p => (p.set F.MOD_TRIP_CAUSE.CAUSE cause).set F.MOD_TRIP_CAUSE.DIE
      (if dieBits = 0 then 0xFF else die.toNat))).shutdown F.MOD_EVENT.TRIP .tripped
  else s)

/-- TRIP_CLEAR (R86): MOD_RESET_N low for 10 ms with every condition clear for 10 s; power-on restarts, unless an
overvoltage is latched. -/
def execTripClear (lowUs clearUs : Nat) (s : State) : Host.Outcome State Fault Refusal :=
  .next (if s.sup.power = .tripped && 10000 ≤ lowUs && 10000000 ≤ clearUs && s.sup.coolantClear then
    s.onSup (fun p =>
      let p := p.setReg 0x38 0
      if p.flag F.MOD_PWR_STAT.OV_LATCH then { p with power := .overvolt } else { p with entryCap := false }.powerUp)
  else s)

/-- RESET_PIN (R92): low for 1 µs; while a trip is latched the pin acts only under R86. -/
def execResetPin (lowNs : Nat) (s : State) : Host.Outcome State Fault Refusal :=
  .next (if s.sup.power = .on && 1000 ≤ lowNs then (s.modEvent F.MOD_EVENT.RESET_PIN).internalReset else s)

/-- INTERNAL_RESET (R78, R104, R117, R119): the reset that RIB_RESET.WAFER called for 10 µs after its slot. -/
def execInternalReset (s : State) : Host.Outcome State Fault Refusal :=
  .next (match s.sup.resetDue with
    | some t => if t ≤ s.sup.clock then s.internalReset else s
    | none => s)

end Sys2Proof.Machine
end

