-- ==== Sys2Proof/Machine/Bus.lean ====
section
/-! DEFINITION. Accesses by address: what each register reads as and what a write of it does, and the MEM requests of every
requester (R9, R10, R19, R41, R67, R81, R161–R163, R188, R202, R208–R221, R228, R229, R234–R238, R264, R265, R277, R278,
R285–R287, R300, R325, R366–R368, R398, R414, R448, R495, R502, R515, R522, R527, R533, R537, R545). -/

namespace Sys2Proof.Machine

/-- Volume charged for a source. -/
def srcVol : Src → Nat
  | .volume v => v
  | _ => 0

/-- A size of R213, aligned to itself. -/
def accSize (a n : Nat) : Bool := [1, 2, 4, 8, 16, 32, 64, 128, 256].contains n && a % n == 0

/-- x lies in [a, a + n). -/
def inRange (x a n : Nat) : Bool := decide (a ≤ x) && decide (x < a + n)

/-- Sum of the weights of the set bits of a predicate over 0 … n − 1. -/
def bitsOf (n : Nat) (p : Nat → Bool) : Nat := sumOf ((List.range n).map (fun i => if p i then 2 ^ i else 0))

namespace Wafer

/-- The acting root's edge die. -/
def actingRoot (w : Wafer) : Nat := if w.col.root8 then 136 else 128

/-- Key of the register at a die-space offset, if one lies there; the root's registers answer at the acting root only. -/
def regKey (w : Wafer) (die off : Nat) : Option Nat :=
  if die < 128 then (if (regAt die off).isSome then some (dieAddr die off) else none)
  else if regTable.any (fun r => r.kind == .edge && r.holds die off) then some (dieAddr die off)
  else if die == w.actingRoot && regTable.any (fun r => r.kind == .root && r.holds 128 off) then some (dieAddr 128 off)
  else none

/-! ### The collation report (R162, R163) -/

/-- Link state and guards in use of a port's link. -/
def reportLink (w : Wafer) (node dir : Nat) : Nat × Nat :=
  let k := portKey node dir
  (w.linkState node dir, (w.port k).guards.length + (w.port (farKey k)).guards.length)

/-- SITE[p] (R162). -/
def reportSite (w : Wafer) (p : Nat) : List Byte :=
  let i := w.dieInfo p
  let n := w.logicalOf p
  let l := (List.range 4).map (w.reportLink p)
  toLE 1 i.state ++ toLE 1 (n.getD 255) ++ toLE 1 i.reason ++ toLE 1 (match n with | some s => w.buddy s | none => 255) ++
  l.flatMap (fun x => toLE 1 x.1) ++ l.flatMap (fun x => toLE 1 x.2) ++ toLE 2 i.code ++ toLE 2 0

/-- EDGE[e] (R162). -/
def reportEdge (w : Wafer) (e : Nat) : List Byte :=
  let i := w.dieInfo (144 + e)
  let l := (List.range 2).map (w.reportLink (144 + e))
  let lanes (x : Nat) : Nat := w.get (spineBlk (2 * e + x)) F.LNK_SP_STAT.LANES
  toLE 1 i.state ++ toLE 1 i.reason ++ l.flatMap (fun x => toLE 1 x.1) ++ l.flatMap (fun x => toLE 1 x.2) ++
  toLE 1 (if i.hbmBad then 1 else 0) ++ toLE 1 0 ++ toLE 2 (lanes 0) ++ toLE 2 (lanes 1) ++ toLE 4 0

/-- Bytes 0–63 of the report. -/
def reportHead (w : Wafer) : List Byte :=
  let c := w.col
  fit 64 (toLE 4 0x314C4F43 ++ toLE 4 c.gen ++ toLE 1 c.phase ++ toLE 1 c.halt ++
    toLE 1 ((if c.root8 then 1 else 0) + (if c.crossDown then 2 else 0) + (if c.fallback then 4 else 0)) ++
    toLE 1 c.sites.length ++ toLE 1 c.wafer ++ toLE 1 (c.shelf.findIdx (· == c.wafer)) ++ toLE 1 c.shelf.length ++ toLE 1 0 ++
    toLE 8 c.tCollated)

/-- The 8 bytes of the report at an offset. -/
def reportWord (w : Wafer) (o : Nat) : Word :=
  let from_ (l : List Byte) (i : Nat) : Word := BitVec.ofNat 64 (leAt l i 8)
  if o < 64 then from_ w.reportHead o
  else if o < 2368 then from_ (w.reportSite ((o - 64) / 16)) (o % 16)
  else from_ (w.reportEdge ((o - 2368) / 16)) (o % 16)

/-! ### Views that are computed -/

/-- The unit on an engine with its matrix input, and the step boundary it has reached. -/
def engineMat (w : Wafer) (site e : Nat) : Option (MatIn × MatIn.Stop) :=
  let x := w.engAt site e
  match x.on with
  | none => none
  | some o =>
    match w.cmd? site o.idx with
    | none => none
    | some c =>
      match c.run with
      | none => none
      | some r =>
        let g := c.stage o.stage
        match w.unitInput c r o.stage o.mb with
        | .error _ => none
        | .ok l =>
          match w.matIn (w.ctxOf c o.stage) (sgParam g) (c.inBytes o.stage) (sgOut g) c.ftz (split (c.mbLenAt o.stage o.mb) (c.inBytes o.stage) l) with
          | .error _ => none
          | .ok u => some (u, u.stopAt (14 * (x.halted.getD (o.done + since o.start w.now))))

/-- MAT_STAT (R367, R368). -/
def matStat (w : Wafer) (site e : Nat) : Word :=
  let x := w.engAt site e
  let st := if x.halted.isSome then 4 else if x.on.isSome then 1 else 0
  let busy := match w.engineMat site e with | some m => 2 ^ min 8 (m.1.blocks - 8 * m.2.group) - 1 | none => 0
  let who := match w.onEngine site e with | some c => c.vol * 2 ^ 11 + c.cls * 2 ^ 17 | none => 0
  BitVec.ofNat 64 (st + busy * 8 + who)

/-- A cell of the accumulator view; none while the engine is not HALTED (R366, R367). -/
def viewWord (w : Wafer) (site o : Nat) : Option Word :=
  let e := o / 0x4000
  if (w.engAt site e).halted.isNone then none
  else
    match w.engineMat site e with
    | none => some 0
    | some m =>
      let x := m.1.cellAt m.2 (o % 0x4000 / 0x800) (o % 0x800 / 128) (o % 128 / 8)
      some (BitVec.ofNat 64 (x.1 + MatIn.imageFlags x.2 * 2 ^ 32))

/-- ASC_BANK_STAT (R414, R416). -/
def bankStat (w : Wafer) (site b : Nat) : Word :=
  let bad := w.bankBad site b
  BitVec.ofNat 64 ((if bad.isEmpty then 0 else 1) + bad.headD 0 * 2 + (if (w.moveAt site b).isSome then 2 ^ 13 else 0) +
    (if w.flag (bankBlk site b) F.ASC_PAIR_STAT.BUSY then 2 ^ 14 else 0) +
    (validRows (bankCells w site b) site b).length * 2 ^ 15)

/-- Frames and bytes held in a port's receive buffer (R541). -/
def ethHeld (w : Wafer) (e sub : Nat) : List Held := Tab.look (fun _ => []) w.prt.held (4 * e + sub)
def ethUsed (w : Wafer) (e : Nat) : Nat := sumOf ((List.range 4).flatMap (fun q => (w.ethHeld e q).map (·.bytes)))

/-- LNK_STAT and LNK_GUARD of a port (R188). -/
def linkStat (w : Wafer) (k : Nat) : Word :=
  let p := w.port k
  BitVec.ofNat 64 ((if w.linkState (k / 4) (k % 4) = 3 then 3 else p.state) + p.latency * 8 + p.guards.length * 2 ^ 11)
def guardWord (w : Wafer) (k i : Nat) : Word :=
  BitVec.ofNat 64 (sumOf ((w.port k).guards.map (fun g => if g.1 / 8 = i then (0x80 + g.2 % 32) * 2 ^ (8 * (g.1 % 8)) else 0)))

/-- A register of a site as it reads, computed parts included. -/
def siteWord (w : Wafer) (site off : Nat) : Word :=
  let v := w.reg (dieAddr site off)
  let n (x : Nat) : Word := BitVec.ofNat 64 x
  let o := off - 0x00F000000000
  if off < 0x00F000000000 then
    (if off = 0x0030000F0008 then
      n ((w.que.waits.filter (fun x => x.site == site)).length + (w.que.bursts.filter (fun x => x.site == site)).length * 2 ^ 15 +
        min 512 (w.queueUsed site) * 2 ^ 18)
    else v)
  else if inRange o 0x11000 0x4000 && o % 0x40 == 0x20 then
    let a := (o - 0x11000) / 0x40
    putF (putF v F.FOL_ALM_STAT.ARMED.lo 1 (if w.almArmed site a then 1 else 0)) F.FOL_ALM_STAT.HELD.lo 1
      (if w.almHeld site a then 1 else 0)
  else if inRange o 0x30000 0x400 then
    match w.nodeOf site with
    | none => v
    | some p =>
      let k := portKey p ((o - 0x30000) / 0x100)
      if o % 0x100 = 0 then w.linkStat k else if 0x40 ≤ o % 0x100 then w.guardWord k ((o % 0x100 - 0x40) / 8) else v
  else if o = 0x50010 then
    putF v 9 9 (min 256 (w.out.filter (fun x => x.who.die.val == site && x.kind.isSome)).length)
  else if inRange o 0x60100 0x200 then n (w.openCmds site ((o - 0x60100) / 8))
  else if inRange o 0x70010 0x40 then
    let e := (o - 0x70010) / 8
    n (w.sbufFree site e / 1024 + w.sbufHomed site e * 2 ^ 12)
  else if inRange o 0xA0000 0x8000 && o % 0x1000 == 0 then w.matStat site ((o - 0xA0000) / 0x1000)
  else if o = 0xB0008 then n (w.thermStep site)
  else if inRange o 0xB1000 0x1000 && o % 0x40 == 0 then w.bankStat site ((o - 0xB1000) / 0x40)
  else if inRange o 0xE0100 0x180 && o % 0x20 == 0 then
    let c := (o - 0xE0100) / 0x20
    n (bitsOf 8 (fun j => (w.coreAt site (8 * c + j)).unit.isSome) + 2 ^ 8 * bitsOf 8 (fun j => (w.coreAt site (8 * c + j)).draining))
  else if o = 0x130000 then w.siteStat site
  else if o = 0x140008 then
    n (min 1024 (w.siteCmds site).length + (sumOf ((w.mirrored site).map (fun s => min 1024 (w.siteCmds s).length))) * 2 ^ 11 +
      w.buddy site * 2 ^ 23 +
      (if (w.siteCmds site).all (·.mirrored) && !w.que.copying.contains site then 2 ^ 30 else 0))
  else v

/-- A register of an edge die as it reads; `k` is its key. -/
def edgeWord (w : Wafer) (p : Sup) (e k : Nat) : Word :=
  let v := w.reg k
  let off := keyOff k
  let o := off - 0x00F000000000
  if off < 0x00F000000000 then v
  else if inRange o 0x30000 0x200 then
    let q := portKey (144 + e) ((o - 0x30000) / 0x100)
    if o % 0x100 = 0 then w.linkStat q else if 0x40 ≤ o % 0x100 then w.guardWord q ((o % 0x100 - 0x40) / 8) else v
  else if inRange o 0x80000 0xA40 then w.reportWord (o - 0x80000)
  else if o = 0x81000 then BitVec.ofNat 64 p.waferNum
  else if inRange o 0x81040 0x30 then BitVec.ofNat 64 (leAt w.col.measAcc (o - 0x81040) 8)
  else if o = 0x81070 then BitVec.ofNat 64 w.col.measLog.length
  else if inRange o 0x81080 0x30 then BitVec.ofNat 64 (fromLE ((List.range 8).map (fun i => Config.rootKeyHash (o - 0x81080 + i))))
  else if o = 0x810B0 then BitVec.ofNat 64 (p.blown.getD Config.fusedSecVersion)
  else if inRange o 0x82000 0x1000 then
    match w.col.measLog[(o - 0x82000) / 64]? with
    | some x => BitVec.ofNat 64 (leAt (fit 16 (toLE 2 ((o - 0x82000) / 64) ++ toLE 1 x.1) ++ fit 48 x.2) (o % 64) 8)
    | none => 0
  else if o = 0xD0000 then w.wPoolWord
  else if o = 0xD0008 then w.wHeldWord
  else if o = 0xD0010 then w.wWaitWord
  else if o = 0x150020 then BitVec.ofNat 64 p.lastReset
  else if o = 0x170008 then
    putF (putF v 4 4 (bitsOf 4 (fun q => !(w.ethHeld e q).isEmpty))) 8 24 (w.ethUsed e)
  else v

/-- The supervisor's register at an offset of edge die 0 or 8 (R67). -/
def supOff (die off : Nat) : Option Nat :=
  if (die = 128 || die = 136) && inRange off 0x00F000040000 0x40 && off % 8 = 0 then some (off - 0x00F000040000) else none

/-- What the register at a die-space offset reads as; none: nothing lies there. -/
def readReg (w : Wafer) (p : Sup) (die off : Nat) : Option Word :=
  match supOff die off with
  | some o => some (if o = 0x10 then p.iin else p.reg o)
  | none => (w.regKey die off).map (fun k => if die < 128 then w.siteWord die off else w.edgeWord p (die - 128) k)

/-! ### Reads -/

/-- May the source read a word of a site's queue manager (R236, R265)? -/
def queReadable (w : Wafer) (src : Src) (site o : Nat) : Bool :=
  match src with
  | .volume _ =>
    if o < 0x20000 then queAllowed src (w.rVol (ringBlk site (o / 64)))
    else if o < 0x24000 then queAllowed src (w.rVol (ringBlk site ((o - 0x20000) / 8)))
    else if inRange o 0x40000 0x4000 then w.syncLive site ((o - 0x40000) / 8) && queAllowed src (w.syncVol site ((o - 0x40000) / 8))
    else if inRange o 0x50000 0x4000 then queAllowed src (w.syncVol site ((o - 0x50000) / 8))
    else false
  | _ => !inRange o 0x40000 0x4000 || w.syncLive site ((o - 0x40000) / 8)

/-- A word of a site's queue manager, if one lies at the offset (Table QUE-1). -/
def queWord (w : Wafer) (site o : Nat) : Option Word :=
  if o < 0x20000 && o % 64 = 0x38 then some 0
  else if inRange o 0x20000 0x4000 || o = 0xF0018 then some 0
  else if (regAt site (0x003000000000 + o)).isSome then some (w.siteWord site (0x003000000000 + o)) else none

/-- The actor a source is on a mailbox channel (R277). -/
def mbxActor (w : Wafer) : Src → MbxActor
  | .volume v => .volume v
  | .unhal => .unhal
  | .ribbon => .ribbon (w.rib.holder.getD .a)

/-- May the source reach a channel's registers: as either side, or as Unhal and a window under R19; the ribbon's own
channels only through its short-mailbox registers (R277). -/
def mbxReach (w : Wafer) (src : Src) (e ch : Nat) : Bool :=
  match src with
  | .unhal => true
  | .ribbon => !mbxRibbon e ch && ch < 16
  | .volume _ => w.mbxClient (w.mbxActor src) e ch

/-- A read of [a, a + n) of wafer address space (R207–R217, R236, R277, R366, R398): status, bytes, and the wafer with the
event of a refusal. -/
def busRead (w : Wafer) (p : Sup) (src : Src) (a n : Nat) : Nat × List Byte × Wafer :=
  let word (v : Word) : Nat × List Byte × Wafer := (stOk, toLE 8 v.toNat, w)
  let no (st : Nat) : Nat × List Byte × Wafer := (st, [], w)
  let quad := n == 8 && a % 8 == 0
  match w.locate a with
  | .bad st => no st
  | .all _ => no stAddr
  | .ram _ _ | .service _ | .host _ | .far _ =>
    if !accSize a n then no stAlign
    else
      let st := w.readStatus src a n
      if st = stOk then (stOk, w.load a n, w) else no st
  | .reg die off =>
    if die < 128 && inRange off 0x00F0000C0000 0x20000 then
      (if !quad then no stAlign
       else match src with
         | .volume _ => no stProt
         | _ => match w.viewWord die (off - 0x00F0000C0000) with | some v => word v | none => no stProt)
    else
      match w.readReg p die (off / 8 * 8) with
      | none => no stAddr
      | some v => if quad then word v else no stAlign
  | .bank site o =>
    if !accSize a n || n < 8 then no stAlign
    else if !w.bankAllowed src site (o / 0x20000) then no stProt
    else if (w.bankBad site (o / 0x20000)).any (fun r => decide (r * 32 < o % 0x20000 + n) && decide (o % 0x20000 < r * 32 + 32)) then no stData
    else (stOk, w.bytes (bankKey site (o / 0x20000) (o % 0x20000)) n, w)
  | .record site o =>
    if !quad then no stAlign
    else match src with
      | .volume _ => no stProt
      | _ => (stOk, ((w.recordAt site (o / 1024)).drop (o % 1024)).take 8, w)
  | .queue site o =>
    match w.queWord site (o / 8 * 8) with
    | none => no stAddr
    | some v =>
      if !quad then no stAlign
      else if w.queReadable src site o then word v else (stProt, [], w.quePROT site)
  | .mbx e o =>
    match w.regKey (128 + e) (0x003000000000 + o / 8 * 8) with
    | none => no stAddr
    | some k => if !quad then no stAlign else if w.mbxReach src e (o / 1024) then word (w.reg k) else no stProt

/-! ### Effects of register writes -/

/-- HALT (R367): the engine stops at a step boundary. -/
def haltEngine (w : Wafer) (site e : Nat) : Wafer :=
  let x := w.engAt site e
  if x.halted.isSome then w
  else
    match x.on with
    | none => w.setEng site e { x with halted := some 0, emptied := false }
    | some o =>
      let t := o.done + since o.start w.now
      w.setEng site e { x with on := some { o with done := t, start := w.now }, halted := some t, emptied := false }

/-- RESUME (R367): the unit continues from its boundary. -/
def resumeEngine (w : Wafer) (site e : Nat) : Wafer :=
  let x := w.engAt site e
  if x.halted.isNone then w
  else w.setEng site e { x with on := x.on.map (fun o => { o with start := w.now }), halted := none, emptied := false }

/-- Set a twin range (R515): its contents are copied to the store before VALID reads 1; ranges that overlap, or exceed
64 MiB in all, are refused. None: refused. -/
def twinSet (w : Wafer) (site n : Nat) (v : Word) : Option Wafer :=
  let k := fltBlk site + 0x20 + 0x10 * n
  let lo := getF v 0 32
  let len := getF v 32 31
  if getF v 63 1 = 0 then some (w.setReg k v)
  else
    let others := (List.range 64).filterMap (fun i =>
      let x := w.reg (fltBlk site + 0x20 + 0x10 * i)
      if i ≠ n && getF x 63 1 = 1 then some (getF x 0 32, getF x 32 31) else none)
    if lo % 4096 ≠ 0 || len % 4096 ≠ 0 || 0x10000000 < lo + len || 0x4000000 < len + sumOf (others.map (·.2)) ||
        others.any (fun x => decide (lo < x.1 + x.2) && decide (x.1 < lo + len)) then none
    else
      let w := w.setReg k v
      some ((w.twins site).foldl (fun w t => w.store (hbmAddr t.2.2) (w.load (dieAddr site t.1 + w.col.wafer * 2 ^ 56) t.2.1)) w)

/-- A kick of the service watchdog (R522). -/
def kickSvc (w : Wafer) : Wafer := { w with col := { w.col with kick := w.now, boot := { w.col.boot with svcTries := 0 } } }

/-- VFs an endpoint port offers by a PRT_PCIE_CFG value: first and count. -/
def vfRange (v : Word) : Nat × Nat := (getF v 8 6, getF v 14 7)

/-- A write of PRT_PCIE_CFG that R527 lets through. -/
def pcieCfgOk (w : Wafer) (e p : Nat) (v : Word) : Bool :=
  let mine := vfRange v
  let old := w.reg (pcieBlk e p)
  let bound (r : Nat × Nat) : Bool := (List.range 64).any (fun x => (w.volInfo x).vf.any (fun f => decide (r.1 ≤ f) && decide (f < r.1 + r.2)))
  !(getF v 4 2 != 0 && getF v 0 1 == 0) && getF v 1 3 ≤ 5 &&
  !(getF v 0 1 == 0 && (List.range 32).any (fun q =>
    let x := w.reg (pcieBlk (q / 2) (q % 2))
    let r := vfRange x
    q != 2 * e + p && getF x 0 1 == 0 && decide (mine.1 < r.1 + r.2) && decide (r.1 < mine.1 + mine.2))) &&
  !(getF v 0 1 != getF old 0 1 && getF old 0 1 == 0 && bound (vfRange old))

/-- End every request outstanding at a port, or at one of its sub-links (root-port role), with HOST_ERROR (R527, R535). -/
def hostErrors (w : Wafer) (port : Nat) (hit : Nat → Bool) : Wafer :=
  let mine := w.out.filter (fun o => adRegion o.addr.toNat == 4 && adDie o.addr.toNat == port && o.kind == some .read &&
    hit (adOff o.addr.toNat) && !(w.net.any (fun m => match m with | .rsp _ who t _ _ => who == o.who && t == o.tag | _ => false)))
  mine.foldl (fun w o => (w.bump (pcieBlk (port / 2) (port % 2)) F.PRT_PCIE_CNT.HOST_ERRS).send (.rsp .read o.who o.tag stHost [])) w

/-- RESTART of a PCIe port (R527): the settings take effect and the links train again. -/
def restartPcie (w : Wafer) (e p : Nat) : Wafer :=
  let b := pcieBlk e p
  let w := { w with prt := { w.prt with cfg := Tab.put regReset w.prt.cfg b (w.reg b) } }
  ((w.setReg (b + 8) 0).latch b F.PRT_PCIE_EVT.LINK_DOWN).hostErrors (2 * e + p) (fun _ => true)

/-- RESTART of an Ethernet port (R537): MODE takes effect, buffered frames are dropped, the links train again. -/
def restartEth (w : Wafer) (e : Nat) : Wafer :=
  let b := ethBlk e
  let prt := { w.prt with
    mode := Tab.put (fun _ => 0) w.prt.mode e (w.get b F.PRT_ETH_CFG.MODE),
    held := (List.range 4).foldl (fun t q => Tab.put (fun _ => []) t (4 * e + q) []) w.prt.held,
    pausedAt := (List.range 4).foldl (fun t q => Tab.put (fun _ => 0) t (4 * e + q) 0) w.prt.pausedAt,
    quietTo := (List.range 4).foldl (fun t q => Tab.put (fun _ => 0) t (4 * e + q) 0) w.prt.quietTo }
  ({ w with prt := prt }).set b F.PRT_ETH_STAT.UP 0

/-- Fields of LNK_CFG within Table LNK-8. -/
def lnkCfgOk (v : Word) : Bool :=
  let i (lo n a b : Nat) : Bool := decide (a ≤ getF v lo n) && decide (getF v lo n ≤ b)
  i 0 8 5 200 && i 8 4 1 15 && i 16 8 10 250 && i 24 16 50 1000 && i 40 16 1000 65535 && decide (getF v 0 8 < getF v 16 8)

/-- Fields of a profile word within Table VOL-2. -/
def profOk (i : Nat) (v : Word) : Bool :=
  match i with
  | 0 => getF v 0 11 ≤ 1984 && getF v 11 11 ≤ 1792 && getF v 22 7 ≤ 64 && getF v 29 8 ≤ 240 && getF v 37 8 ≤ 240 &&
      1 ≤ getF v 45 10 && getF v 45 10 ≤ 512
  | 1 => 1 ≤ getF v 8 8 && getF v 8 8 ≤ 128
  | 2 => getF v 0 10 ≤ 544
  | _ => getF v 20 10 ≤ 600 && getF v 32 11 ≤ 2000

/-- Fields of FLT_CFG and FLT_W_CFG within Tables FLT-2 and FLT-3. -/
def fltCfgOk (v : Word) : Bool :=
  10 ≤ getF v 0 16 && getF v 0 16 ≤ 1000 && 100 ≤ getF v 32 16 && getF v 32 16 ≤ 10000
def fltWCfgOk (v : Word) : Bool :=
  5 ≤ getF v 0 10 && getF v 0 10 ≤ 1000 && (getF v 16 16 == 0 || (100 ≤ getF v 16 16 && getF v 16 16 ≤ 60000)) &&
  100 ≤ getF v 32 13 && getF v 32 13 ≤ 5000

/-- A write of a site register (R9, R10, R19, R41, R188, R229, R300, R414, R448, R493, R502, R515). -/
def siteWrite (w : Wafer) (src : Src) (site off : Nat) (v : Word) : Nat × Wafer :=
  let k := dieAddr site off
  let o := off - 0x00F000000000
  let ok (x : Wafer) : Nat × Wafer := (stOk, x)
  let no : Nat × Wafer := (stProt, w)
  if inRange o 0x11000 0x4000 then
    match w.writeAlarm src site ((o - 0x11000) / 0x40) (o % 0x40 / 8) v with | some x => ok x | none => no
  else if inRange o 0xB1000 0x1000 then
    let b := (o - 0xB1000) / 0x40
    if !w.bankAllowed src site b then no
    else
      match o % 0x40 with
      | 0x08 => ok (if getF v 27 1 = 1 then w.moveStart site b (getF v 0 12) (getF v 12 12) (getF v 24 1 == 1) (getF v 25 2) else w)
      | 0x28 => ok (if getF v 0 1 = 1 then w.set (bankBlk site b) F.ASC_PAIR_STAT.BUSY 1 else w)
      | _ => ok (w.writeKey k v)
  else if inRange o 0xB4000 0x4000 then
    if w.bankAllowed src site ((o - 0xB4000) / 0x100) then ok (w.writeKey k v) else no
  else if inRange o 0xC0000 0x20000 || !configSrc src then no
  else if inRange o 0x30000 0x400 then
    match w.nodeOf site with
    | none => no
    | some p =>
      let q := portKey p ((o - 0x30000) / 0x100)
      match o % 0x100 with
      | 0x08 => if lnkCfgOk v then ok (w.writeKey k v) else no
      | 0x30 => ok (portCtl w q v)
      | _ => ok (w.writeKey k v)
  else if o = 0x50000 then ok (if getF v 0 1 = 0 then (w.writeKey k v).startFlush site else w.writeKey k v)
  else if o = 0x50008 then
    let w := if getF v 1 1 = 1 then w.memClear site else w
    ok (if getF v 0 1 = 1 then w.startFlush site else w)
  else if o = 0x50038 then ok (if getF v 0 1 = 1 then (w.setReg k 0).setReg (k + 8) 0 else w)
  else if o = 0x60020 then ok (if getF v 31 1 = 1 then w.setReg k 0 else w)
  else if inRange o 0xA0000 0x8000 && o % 0x1000 == 0x20 then
    let e := (o - 0xA0000) / 0x1000
    let w := if getF v 0 1 = 1 then w.haltEngine site e else w
    ok (if getF v 1 1 = 1 then w.resumeEngine site e else w)
  else if o = 0xE0008 then ok (if getF v 0 1 = 1 then (w.setReg k 0).setReg (k + 8) 0 else w)
  else if o = 0x130018 then
    if 4 < getF v 1 3 then no
    else
      let old := w.thermStep site
      ok ((w.writeKey k v).stepChanged site old)
  else if o = 0x140000 then (if fltCfgOk v then ok (w.writeKey k v) else no)
  else if inRange o 0x140020 0x400 then
    match w.twinSet site ((o - 0x140020) / 0x10) v with | some x => ok x | none => no
  else ok (w.writeKey k v)
where
  /-- LNK_CTL (R188). -/
  portCtl (w : Wafer) (q : Nat) (v : Word) : Wafer :=
    let w := if getF v 0 1 = 1 then w.onPortRegs q (fun w b =>
      (((w.setReg (b + 0x10) 0).setReg (b + 0x18) 0).setReg (b + 0x20) 0).set b F.LNK_EVT.DISCARDS 0) else w
    if getF v 1 1 = 1 then w.startRetrain q else w

/-- A write of a register of edge die e, or of the acting root under key die 0x80 (R19–R21, R24, R40, R161, R202, R285, R286,
R502, R522, R527, R533, R537). -/
def edgeWrite (w : Wafer) (src : Src) (e k : Nat) (v : Word) : Nat × Wafer :=
  let off := keyOff k
  let o := off - 0x00F000000000
  let ok (x : Wafer) : Nat × Wafer := (stOk, x)
  let no : Nat × Wafer := (stProt, w)
  if !configSrc src then no
  else if inRange o 0x20000 0x800 then
    let c := 16 * e + (o - 0x20000) / 0x80
    match o % 0x80 with
    | 0x00 => match w.writeCntCfg c v with | some x => ok x | none => no
    | 0x10 => ok (w.loadPosition c (getF v 0 48))
    | 0x28 => ok (w.writeNomrate c v)
    | 0x48 => ok (let x := w.writeKey k v; if getF v 15 1 = 1 then x.set (cntBlk c) F.FOL_CNT_STAT.DISCARDS 0 else x)
    | _ => ok (w.writeKey k v)
  else if inRange o 0x30000 0x200 then
    let q := portKey (144 + e) ((o - 0x30000) / 0x100)
    match o % 0x100 with
    | 0x08 => if lnkCfgOk v then ok (w.writeKey k v) else no
    | 0x30 => ok (siteWrite.portCtl w q v)
    | _ => ok (w.writeKey k v)
  else if inRange o 0x31000 0x200 && o % 0x100 == 0x30 then
    let l := 2 * e + (o - 0x31000) / 0x100
    let w := if getF v 0 1 = 1 then
      ((w.setReg (spineBlk l + 0x10) 0).setReg (spineBlk l + 0x18) 0).setReg (spineBlk l + 0x20) 0 else w
    ok (if getF v 1 1 = 1 then w.startSpineRetrain l else w)
  else if inRange o 0x90000 0x400 then (if profOk (o % 0x20 / 8) v then ok (w.writeKey k v) else no)
  else if inRange o 0x91000 0x1000 then ok { w.writeKey k v with que := { w.que with hostwinAt := w.now } }
  else if o = 0x150000 then (if fltWCfgOk v then ok (w.writeKey k v) else no)
  else if o = 0x150018 then (if src = .unhal then ok w.kickSvc else no)
  else if inRange o 0x160000 0x200 then
    let p := (o - 0x160000) / 0x100
    if o % 0x100 = 0 then
      (if !w.pcieCfgOk e p v then no else if getF v 7 1 = 1 then ok ((w.writeKey k v).restartPcie e p) else ok (w.writeKey k v))
    else if 0x40 ≤ o % 0x100 && src ≠ .unhal then no
    else ok (w.writeKey k v)
  else if o = 0x170000 then
    (if getF v 0 2 = 3 then no else if getF v 2 1 = 1 then ok ((w.writeKey k v).restartEth e) else ok (w.writeKey k v))
  else ok (w.writeKey k v)

/-- A write of a word of a site's queue manager (R236, R238, R243, R254, R264, R265). -/
def queWrite (w : Wafer) (src : Src) (site o : Nat) (v : Word) : Nat × Wafer :=
  let k := dieAddr site (0x003000000000 + o)
  let no : Nat × Wafer := (stProt, w.quePROT site)
  let bell (r : Nat) : Nat × Wafer :=
    if queAllowed src (w.rVol (ringBlk site r)) then (stOk, w.doorbellWord site r v) else no
  if inRange o 0x20000 0x4000 then bell ((o - 0x20000) / 8)
  else if o = 0xF0018 then
    if getF v 0 18 / 2048 ≠ site then (stAddr, w) else bell (getF v 0 18 % 2048)
  else if inRange o 0x40000 0x4000 then w.syncWrite src site ((o - 0x40000) / 8) v
  else if !configSrc src then no
  else if o < 0x20000 then
    let r := o / 64
    match o % 64 with
    | 0x08 => (stOk, w.ringCtrl site r v)
    | 0x10 => (stOk, if w.flag (ringBlk site r) F.QUE_RING_CTRL.ENABLE then w else w.writeKey k v)
    | _ => (stOk, w.writeKey k v)
  else (stOk, w.writeKey k v)

/-- A write of a word of a mailbox channel (R270–R278). -/
def mbxWrite (w : Wafer) (src : Src) (e o : Nat) (v : Word) : Nat × Wafer :=
  let ch := o / 1024
  let r := o % 1024
  let a := w.mbxActor src
  let reply := decide (0x200 ≤ r)
  let side (sender : Bool) (f : Wafer → Wafer) : Wafer → Wafer := fun w => w.mbxOp a e ch reply sender f
  if !w.mbxReach src e ch then (stProt, w)
  else if r < 0x100 then
    (if configSrc src && !mbxRibbon e ch then (stOk, w.writeKey (chanBlk e ch + r) v) else (stProt, w))
  else
    let x := r % 0x100
    let k := dirBlk e ch reply + x
    if x = 0x08 then
      let w := if getF v 0 1 = 1 then side false (fun w => w.mbxTake e ch reply) w else w
      let w := if getF v 1 1 = 1 then side false (fun w => w.mbxAck e ch reply (getF v 16 16)) w else w
      (stOk, if getF v 2 1 = 1 then side true (fun w => w.mbxWithdraw e ch reply) w else w)
    else if x = 0x10 then (stOk, side true (fun w => w.mbxGo e ch reply (getF v 0 5) (getF v 16 16)) w)
    else if x = 0x18 then (stOk, side true (fun w => w.mbxPost e ch reply v) w)
    else if 0x80 ≤ x then
      (stOk, side true (fun w => if w.mbxState e ch reply = 0 then w.setReg k v else w.mbxOverrun e ch reply) w)
    else (stOk, w.writeKey k v)

/-- A write of memory or of a register of the wafer, the supervisor's apart: status, wafer. -/
def busPut (w : Wafer) (src : Src) (a : Nat) (d : List Byte) : Nat × Wafer :=
  let n := d.length
  let v := BitVec.ofNat 64 (fromLE d)
  let quad := n == 8 && a % 8 == 0
  match w.locate a with
  | .bad st => (st, w)
  | .all _ => (stAddr, w)
  | .ram _ _ | .service _ | .host _ | .far _ =>
    if !accSize a n then (stAlign, w)
    else
      let st := w.writeStatus src a n
      if st = stOk then (stOk, w.save a d) else (st, w)
  | .reg die off =>
    if die < 128 then (if quad then w.siteWrite src die off v else (stAlign, w))
    else if (supOff die (off / 8 * 8)).isSome then (stProt, w)
    else
      match w.regKey die (off / 8 * 8) with
      | none => (stAddr, w)
      | some k => if quad then w.edgeWrite src (die - 128) k v else (stAlign, w)
  | .bank site o => if accSize a n then w.bankWrite src site (o / 0x20000) (o % 0x20000) d else (stAlign, w)
  | .record _ _ => (stProt, w)
  | .queue site o =>
    if (w.queWord site (o / 8 * 8)).isNone then (stAddr, w) else if quad then w.queWrite src site o v else (stAlign, w)
  | .mbx e o =>
    if (w.regKey (128 + e) (0x003000000000 + o / 8 * 8)).isNone then (stAddr, w)
    else if quad then w.mbxWrite src e o v else (stAlign, w)

/-- An atomic operation at an address (R215, R236, R265): status, old value, wafer. -/
def busAtomic (w : Wafer) (src : Src) (a n op : Nat) (x y : Word) : Nat × Nat × Wafer :=
  match w.locate a with
  | .bad st => (st, 0, w)
  | .all _ => (stAddr, 0, w)
  | .ram _ _ | .far _ =>
    if !accSize a n || !(n == 4 || n == 8) then (stAlign, 0, w)
    else
      let st := match w.ramStatus src a n true with | 0 => w.readStatus src a n | s => s
      if st ≠ stOk then (st, 0, w)
      else
        let old := fromLE (w.load a n)
        (stOk, old, w.save a (toLE n (atomVal op old x.toNat y.toNat (8 * n))))
  | .queue site o =>
    if inRange o 0x40000 0x4000 && op == 2 && n == 8 && a % 8 == 0 then
      let j := (o - 0x40000) / 8
      if !w.syncLive site j || !queAllowed src (w.syncVol site j) then (stProt, 0, w.quePROT site)
      else (stOk, (w.syncVal site j).toNat, (w.syncAddAt site j x).2)
    else (stUnsup, 0, w)
  | _ => (stUnsup, 0, w)

end Wafer

namespace State

/-- A write of COL_SHELF or of a supervisor register (R67, R69, R81, R161). -/
def supWrite (s : State) (src : Src) (o : Nat) (v : Word) : Nat × State :=
  if !configSrc src then (stProt, s)
  else
    match o with
    | 0x20 => (stOk, s.onSup (fun p => p.setReg 0x20 (p.reg 0x20 &&& ~~~(v &&& 0x1FFF))))
    | 0x28 => (stOk, s.onSup (fun p => p.setReg 0x28 (v &&& 0x1FFF)))
    | 0x30 => if getF v 0 2 = 3 then (stProt, s) else (stOk, (s.onSup (fun p => p.set F.MOD_CLK_CFG.REF_MODE (getF v 0 2))).returnRef)
    | _ => (stOk, s)

/-- A write of [a, a + n) of wafer address space. A broadcast is performed at every active site, or nowhere (R212). -/
def busWrite (s : State) (src : Src) (a : Nat) (d : List Byte) : Nat × State :=
  let quad := d.length == 8 && a % 8 == 0
  let v := BitVec.ofNat 64 (fromLE d)
  let plain : Nat × State := let r := s.waf.busPut src a d; (r.1, s.onWafer (fun _ => r.2))
  match s.waf.locate a with
  | .reg die off =>
    match Wafer.supOff die (off / 8 * 8) with
    | some o => if quad then s.supWrite src o v else (stAlign, s)
    | none =>
      if die == s.waf.actingRoot && off / 8 * 8 == 0x00F000081000 then
        (if !quad then (stAlign, s) else if configSrc src then (stOk, s.onSup (fun p => { p with waferNum := getF v 0 4 })) else (stProt, s))
      else plain
  | .all o =>
    let at_ (t : Nat) : Nat := adWafer a * 2 ^ 56 + t * 2 ^ 48 + o
    let l := s.waf.activeSites
    match (l.map (fun t => (s.waf.busPut src (at_ t) d).1)).find? (· ≠ stOk) with
    | some st => (st, s)
    | none => (stOk, s.onWafer (fun w => l.foldl (fun w t => (w.busPut src (at_ t) d).2) w))
  | _ => plain

end State

namespace Wafer

/-! ### MEM requests (R216–R221, R228, R234) -/

/-- The outstanding entry of a request. -/
def memOut (w : Wafer) (rq : MemReq) (kind : Acc) : Out :=
  { who := rq.who, tag := rq.tag.toNat, vol := srcVol rq.src, kind := some kind, die := adDie rq.addr.toNat, addr := rq.addr,
    since := w.now, acquire := rq.acquire,
    isReg := (match w.locate rq.addr.toNat with | .reg _ _ => true | _ => false), isWait := false, cmd := none, need := none }

/-- The request may reach its target now (R218, R220, R228): no acquire of its requester is open, a release waits for all
before it, register accesses to one die and accesses to one address keep order, and the site has a place. -/
def memMay (w : Wafer) (o : Out) (release : Bool) : Bool :=
  let before := (w.out.filter (fun x => x.who == o.who && x.kind.isSome)).takeWhile (fun x => x.tag != o.tag)
  !before.any (fun x => x.acquire || release || (o.isReg && x.isReg && x.die == o.die) || x.addr == o.addr) &&
  (w.out.any (fun x => x.who == o.who && x.tag == o.tag) ||
    decide ((w.out.filter (fun x => x.who.die == o.who.die && x.kind.isSome)).length < 256))

/-- Answer a request (R217); its requester records a fault when the response arrives (R234). -/
def memRsp (w : Wafer) (rq : MemReq) (kind : Acc) (st : Nat) (d : List Byte) : Wafer :=
  w.send (.rsp kind rq.who rq.tag.toNat st d)

/-- The home and line of an own-wafer SRAM access. -/
def homeLine (w : Wafer) (a : Nat) : Option (Nat × Nat) :=
  match w.locate a with
  | .ram k _ => sramLine k
  | _ => none

/-- An SRAM request at its home (R226). -/
def atHome (w : Wafer) (rq : MemReq) (kind : Acc) (op : Nat) (x y : Word) (d : List Byte) : Wafer :=
  match w.homeLine rq.addr.toNat with
  | none => w
  | some (h, l) =>
    serve serveFuel w h l (.mem { kind := kind, who := rq.who, tag := rq.tag.toNat, addr := adOff rq.addr.toNat % 2 ^ 28,
                                  left := rq.size, op := op, a := x, b := y, data := d, got := [] })

/-- Status of an SRAM request before its home serves it. -/
def homeStatus (w : Wafer) (rq : MemReq) (write : Bool) : Nat :=
  let a := rq.addr.toNat
  if !accSize a rq.size then stAlign else w.ramStatus rq.src a rq.size write

/-- READ at its target. A read in region 0x4 that is let through waits for its completions (R532). -/
def doRead (w : Wafer) (p : Sup) (rq : MemReq) : Wafer :=
  let a := rq.addr.toNat
  match w.homeLine a, w.locate a with
  | some _, _ =>
    let st := w.homeStatus rq false
    if st = stOk then w.atHome rq .read 0 0 0 [] else w.memRsp rq .read st []
  | none, .host _ =>
    let st := w.homeStatus rq false
    if st = stOk then w else w.memRsp rq .read st []
  | none, _ =>
    let r := w.busRead p rq.src a rq.size
    r.2.2.memRsp rq .read r.1 r.2.1

end Wafer

/-! ### Meanings -/

/-- MEM_READ (R207–R220, R226, R228, R234). -/
def execMemRead (rq : MemReq) (s : State) : Host.Outcome State Fault Refusal :=
  .next (s.onWafer fun w =>
    let o := w.memOut rq .read
    if !w.memMay o rq.release then w
    else match w.arrive o (.memRead rq) with | some w => w.doRead s.sup rq | none => w)

/-- MEM_WRITE (R207–R221, R226, R228, R234). -/
def execMemWrite (rq : MemReq) (data : List Byte) (s : State) : Host.Outcome State Fault Refusal :=
  let o := s.waf.memOut rq .write
  let a := rq.addr.toNat
  .next (if !s.waf.memMay o rq.release then s
  else
    match s.waf.arrive o (.memWrite rq data) with
    | none => s
    | some w =>
      let s := s.onWafer (fun _ => w)
      let d := fit rq.size data
      match w.homeLine a with
      | some _ =>
        let st := w.homeStatus rq true
        s.onWafer (fun w => if st = stOk then w.atHome rq .write 0 0 0 d else w.memRsp rq .write st [])
      | none =>
        let r := s.busWrite rq.src a d
        r.2.onWafer (fun w => w.memRsp rq .write r.1 []))

/-- MEM_ATOMIC (R215, R226, R236). -/
def execMemAtomic (rq : MemReq) (op : Fin 10) (x y : BitVec 64) (s : State) : Host.Outcome State Fault Refusal :=
  .next (s.onWafer fun w =>
    let o := w.memOut rq .atomic
    let a := rq.addr.toNat
    if !w.memMay o rq.release then w
    else
      match w.arrive o (.memAtomic rq op x y) with
      | none => w
      | some w =>
        match w.homeLine a with
        | some _ =>
          let st := if !(rq.size == 4 || rq.size == 8) then stAlign else w.homeStatus rq true
          if st = stOk then w.atHome rq .atomic op x y [] else w.memRsp rq .atomic st []
        | none =>
          let r := w.busAtomic rq.src a rq.size op x y
          r.2.2.memRsp rq .atomic r.1 (if r.1 = stOk then toLE rq.size r.2.1 else []))

end Sys2Proof.Machine
end

