-- ==== Sys2Proof/Machine/RiscV.lean ====
section
/-! DEFINITION. The arithmetic of the general cores' instruction set (R423, R425): RV64 I, M, F, D, C, Zba and Zbb. The
spec names the extensions and leaves their encodings and results to the RISC-V manuals: PRESUMED (log entry 50). Memory,
CSRs, traps and VNX are in Cores. -/

namespace Sys2Proof.Machine

/-- Bits [hi, lo] of an instruction word. -/
def ib (x hi lo : Nat) : Nat := x / 2 ^ lo % 2 ^ (hi + 1 - lo)

/-- Sign-extend the low n bits of x to 64 bits. -/
def sx (n x : Nat) : Word := BitVec.ofInt 64 (signed n x)

def iOp (x : Nat) : Nat := ib x 6 0
def iRd (x : Nat) : Nat := ib x 11 7
def iF3 (x : Nat) : Nat := ib x 14 12
def iRs1 (x : Nat) : Nat := ib x 19 15
def iRs2 (x : Nat) : Nat := ib x 24 20
def iF7 (x : Nat) : Nat := ib x 31 25
def iRs3 (x : Nat) : Nat := ib x 31 27
def immI (x : Nat) : Word := sx 12 (ib x 31 20)
def immS (x : Nat) : Word := sx 12 (ib x 31 25 * 32 + ib x 11 7)
def immB (x : Nat) : Word := sx 13 (ib x 31 31 * 4096 + ib x 7 7 * 2048 + ib x 30 25 * 32 + ib x 11 8 * 2)
def immU (x : Nat) : Word := sx 32 (ib x 31 12 * 4096)
def immJ (x : Nat) : Word :=
  sx 21 (ib x 31 31 * 2 ^ 20 + ib x 19 12 * 4096 + ib x 20 20 * 2048 + ib x 30 21 * 2)

/-! ### Compressed instructions -/

def mkI (imm rs1 f3 rd op : Nat) : Nat := imm % 4096 * 2 ^ 20 + rs1 * 2 ^ 15 + f3 * 2 ^ 12 + rd * 2 ^ 7 + op
def mkS (imm rs2 rs1 f3 op : Nat) : Nat :=
  imm / 32 % 128 * 2 ^ 25 + rs2 * 2 ^ 20 + rs1 * 2 ^ 15 + f3 * 2 ^ 12 + imm % 32 * 2 ^ 7 + op
def mkR (f7 rs2 rs1 f3 rd op : Nat) : Nat := f7 * 2 ^ 25 + rs2 * 2 ^ 20 + rs1 * 2 ^ 15 + f3 * 2 ^ 12 + rd * 2 ^ 7 + op
def mkB (imm rs2 rs1 f3 : Nat) : Nat :=
  imm / 4096 % 2 * 2 ^ 31 + imm / 32 % 64 * 2 ^ 25 + rs2 * 2 ^ 20 + rs1 * 2 ^ 15 + f3 * 2 ^ 12 + imm / 2 % 16 * 2 ^ 8 +
    imm / 2048 % 2 * 2 ^ 7 + 0x63
def mkJ (imm rd : Nat) : Nat :=
  imm / 2 ^ 20 % 2 * 2 ^ 31 + imm / 2 % 1024 * 2 ^ 21 + imm / 2048 % 2 * 2 ^ 20 + imm / 4096 % 256 * 2 ^ 12 + rd * 2 ^ 7 + 0x6F

/-- The 32-bit instruction a 16-bit one stands for; none: no such instruction. -/
def expandC (x : Nat) : Option Nat :=
  let r1 := ib x 9 7 + 8
  let r2 := ib x 4 2 + 8
  let rd := ib x 11 7
  let rs2 := ib x 6 2
  let imm6 : Nat := wrap 12 (signed 6 (ib x 12 12 * 32 + ib x 6 2))
  let sh := ib x 12 12 * 32 + ib x 6 2
  let immD := ib x 12 10 * 8 + ib x 6 5 * 64
  let immW := ib x 12 10 * 8 + ib x 6 6 * 4 + ib x 5 5 * 64
  let spD := ib x 12 12 * 32 + ib x 6 5 * 8 + ib x 4 2 * 64
  let spW := ib x 12 12 * 32 + ib x 6 4 * 4 + ib x 3 2 * 64
  let ssD := ib x 12 10 * 8 + ib x 9 7 * 64
  let ssW := ib x 12 9 * 4 + ib x 8 7 * 64
  let brImm : Nat := wrap 13 (signed 9 (ib x 12 12 * 256 + ib x 11 10 * 8 + ib x 6 5 * 64 + ib x 4 3 * 2 + ib x 2 2 * 32))
  match ib x 1 0, ib x 15 13 with
  | 0, 0 =>
    let i := ib x 12 11 * 16 + ib x 10 7 * 64 + ib x 6 6 * 4 + ib x 5 5 * 8
    if i = 0 then none else some (mkI i 2 0 r2 0x13)
  | 0, 1 => some (mkI immD r1 3 r2 0x07)
  | 0, 2 => some (mkI immW r1 2 r2 0x03)
  | 0, 3 => some (mkI immD r1 3 r2 0x03)
  | 0, 5 => some (mkS immD r2 r1 3 0x27)
  | 0, 6 => some (mkS immW r2 r1 2 0x23)
  | 0, 7 => some (mkS immD r2 r1 3 0x23)
  | 1, 0 => some (mkI imm6 rd 0 rd 0x13)
  | 1, 1 => if rd = 0 then none else some (mkI imm6 rd 0 rd 0x1B)
  | 1, 2 => some (mkI imm6 0 0 rd 0x13)
  | 1, 3 =>
    if rd = 2 then
      let i : Nat := wrap 12 (signed 10 (ib x 12 12 * 512 + ib x 6 6 * 16 + ib x 5 5 * 64 + ib x 4 3 * 128 + ib x 2 2 * 32))
      if i = 0 then none else some (mkI i 2 0 2 0x13)
    else if sh = 0 then none
    else some (wrap 20 (signed 6 sh) * 4096 + rd * 2 ^ 7 + 0x37)
  | 1, 4 =>
    match ib x 11 10 with
    | 0 => some (mkI sh r1 5 r1 0x13)
    | 1 => some (mkI (sh + 0x400) r1 5 r1 0x13)
    | 2 => some (mkI imm6 r1 7 r1 0x13)
    | _ =>
      match ib x 12 12, ib x 6 5 with
      | 0, 0 => some (mkR 0x20 r2 r1 0 r1 0x33)
      | 0, 1 => some (mkR 0 r2 r1 4 r1 0x33)
      | 0, 2 => some (mkR 0 r2 r1 6 r1 0x33)
      | 0, _ => some (mkR 0 r2 r1 7 r1 0x33)
      | _, 0 => some (mkR 0x20 r2 r1 0 r1 0x3B)
      | _, 1 => some (mkR 0 r2 r1 0 r1 0x3B)
      | _, _ => none
  | 1, 5 =>
    let i : Nat := wrap 21 (signed 12 (ib x 12 12 * 2048 + ib x 11 11 * 16 + ib x 10 9 * 256 + ib x 8 8 * 1024 + ib x 7 7 * 64 +
      ib x 6 6 * 128 + ib x 5 3 * 2 + ib x 2 2 * 32))
    some (mkJ i 0)
  | 1, 6 => some (mkB brImm 0 r1 0)
  | 1, 7 => some (mkB brImm 0 r1 1)
  | 2, 0 => some (mkI sh rd 1 rd 0x13)
  | 2, 1 => some (mkI spD 2 3 rd 0x07)
  | 2, 2 => if rd = 0 then none else some (mkI spW 2 2 rd 0x03)
  | 2, 3 => if rd = 0 then none else some (mkI spD 2 3 rd 0x03)
  | 2, 4 =>
    if ib x 12 12 = 0 then
      (if rs2 = 0 then (if rd = 0 then none else some (mkI 0 rd 0 0 0x67)) else some (mkR 0 rs2 0 0 rd 0x33))
    else if rs2 = 0 then (if rd = 0 then some 0x00100073 else some (mkI 0 rd 0 1 0x67))
    else some (mkR 0 rs2 rd 0 rd 0x33)
  | 2, 5 => some (mkS ssD rs2 2 3 0x27)
  | 2, 6 => some (mkS ssW rs2 2 2 0x23)
  | 2, 7 => some (mkS ssD rs2 2 3 0x23)
  | _, _ => none

/-! ### Integer arithmetic (I, M, Zba, Zbb) -/

/-- Low 32 bits sign-extended. -/
def w32 (x : Word) : Word := sx 32 (x.toNat % 2 ^ 32)

def clz (n x : Nat) : Nat := if x % 2 ^ n = 0 then n else n - 1 - Nat.log2 (x % 2 ^ n)
def ctz (n x : Nat) : Nat := ((List.range n).find? (fun i => Nat.testBit x i)).getD n
def rotl (n x k : Nat) : Nat := (x * 2 ^ (k % n) + x / 2 ^ (n - k % n)) % 2 ^ n

/-- Division as RISC-V defines it: by zero and on overflow too. `n` bits, signed or not; quotient and remainder. -/
def divRem (n : Nat) (sgn : Bool) (a b : Nat) : Nat × Nat :=
  if b = 0 then (2 ^ n - 1, a)
  else if sgn then
    let x := signed n a
    let y := signed n b
    (wrap n (Int.tdiv x y), wrap n (Int.tmod x y))
  else (a / b, a % b)

/-- Register-register operation of OP (0x33): none for an encoding outside the set. -/
def opRR (f7 f3 : Nat) (a b : Word) : Option Word :=
  let s := b.toNat % 64
  let nat (x : Nat) : Word := BitVec.ofNat 64 x
  match f7, f3 with
  | 0, 0 => some (a + b)
  | 0, 1 => some (a <<< s)
  | 0, 2 => some (if a.slt b then 1 else 0)
  | 0, 3 => some (if a.ult b then 1 else 0)
  | 0, 4 => some (a ^^^ b)
  | 0, 5 => some (a >>> s)
  | 0, 6 => some (a ||| b)
  | 0, 7 => some (a &&& b)
  | 0x20, 0 => some (a - b)
  | 0x20, 5 => some (a.sshiftRight s)
  | 0x20, 4 => some (~~~(a ^^^ b))
  | 0x20, 6 => some (a ||| ~~~b)
  | 0x20, 7 => some (a &&& ~~~b)
  | 1, 0 => some (a * b)
  | 1, 1 => some (BitVec.ofInt 64 (a.toInt * b.toInt / 2 ^ 64))
  | 1, 2 => some (BitVec.ofInt 64 (a.toInt * b.toNat / 2 ^ 64))
  | 1, 3 => some (nat (a.toNat * b.toNat / 2 ^ 64))
  | 1, 4 => some (nat (divRem 64 true a.toNat b.toNat).1)
  | 1, 5 => some (nat (divRem 64 false a.toNat b.toNat).1)
  | 1, 6 => some (nat (divRem 64 true a.toNat b.toNat).2)
  | 1, 7 => some (nat (divRem 64 false a.toNat b.toNat).2)
  | 0x10, 2 => some (a * 2 + b)
  | 0x10, 4 => some (a * 4 + b)
  | 0x10, 6 => some (a * 8 + b)
  | 5, 4 => some (if a.slt b then a else b)
  | 5, 5 => some (if a.ult b then a else b)
  | 5, 6 => some (if a.slt b then b else a)
  | 5, 7 => some (if a.ult b then b else a)
  | 0x30, 1 => some (nat (rotl 64 a.toNat s))
  | 0x30, 5 => some (nat (rotl 64 a.toNat (64 - s)))
  | _, _ => none

/-- Register-register operation of OP-32 (0x3B). -/
def opRR32 (f7 f3 rs2 : Nat) (a b : Word) : Option Word :=
  let x := a.toNat % 2 ^ 32
  let y := b.toNat % 2 ^ 32
  let s := y % 32
  let uw : Word := BitVec.ofNat 64 x
  match f7, f3 with
  | 0, 0 => some (w32 (a + b))
  | 0x20, 0 => some (w32 (a - b))
  | 0, 1 => some (sx 32 (x * 2 ^ s))
  | 0, 5 => some (sx 32 (x / 2 ^ s))
  | 0x20, 5 => some (BitVec.ofInt 64 (signed 32 x / 2 ^ s))
  | 1, 0 => some (w32 (a * b))
  | 1, 4 => some (sx 32 (divRem 32 true x y).1)
  | 1, 5 => some (sx 32 (divRem 32 false x y).1)
  | 1, 6 => some (sx 32 (divRem 32 true x y).2)
  | 1, 7 => some (sx 32 (divRem 32 false x y).2)
  | 4, 0 => some (uw + b)
  | 4, 4 => if rs2 = 0 then some (a &&& 0xFFFF) else none
  | 0x10, 2 => some (uw * 2 + b)
  | 0x10, 4 => some (uw * 4 + b)
  | 0x10, 6 => some (uw * 8 + b)
  | 0x30, 1 => some (sx 32 (rotl 32 x s))
  | 0x30, 5 => some (sx 32 (rotl 32 x (32 - s)))
  | _, _ => none

/-- Register-immediate operation of OP-IMM (0x13). -/
def opImm (x : Nat) (a : Word) : Option Word :=
  let i := immI x
  let u := ib x 31 20
  let s := u % 64
  let nat (x : Nat) : Word := BitVec.ofNat 64 x
  match iF3 x with
  | 0 => some (a + i)
  | 2 => some (if a.slt i then 1 else 0)
  | 3 => some (if a.ult i then 1 else 0)
  | 4 => some (a ^^^ i)
  | 6 => some (a ||| i)
  | 7 => some (a &&& i)
  | 1 =>
    if u / 64 = 0 then some (a <<< s)
    else match u with
      | 0x600 => some (nat (clz 64 a.toNat))
      | 0x601 => some (nat (ctz 64 a.toNat))
      | 0x602 => some (nat (popcount 64 a.toNat))
      | 0x604 => some (sx 8 a.toNat)
      | 0x605 => some (sx 16 a.toNat)
      | _ => none
  | _ =>
    match u / 64 with
    | 0 => some (a >>> s)
    | 0x10 => some (a.sshiftRight s)
    | 0x18 => some (nat (rotl 64 a.toNat (64 - s)))
    | _ =>
      if u = 0x287 then some (nat (fromLE ((toLE 8 a.toNat).map (fun b => if b = 0 then 0 else 255))))
      else if u = 0x6B8 then some (nat (fromBE (toLE 8 a.toNat)))
      else none

/-- Register-immediate operation of OP-IMM-32 (0x1B). -/
def opImm32 (x : Nat) (a : Word) : Option Word :=
  let u := ib x 31 20
  let v := a.toNat % 2 ^ 32
  let s := u % 32
  match iF3 x with
  | 0 => some (w32 (a + immI x))
  | 1 =>
    if u / 32 = 0 then some (sx 32 (v * 2 ^ s))
    else if u / 64 = 2 then some (BitVec.ofNat 64 (v * 2 ^ (u % 64)))
    else match u with
      | 0x600 => some (BitVec.ofNat 64 (clz 32 v))
      | 0x601 => some (BitVec.ofNat 64 (ctz 32 v))
      | 0x602 => some (BitVec.ofNat 64 (popcount 32 v))
      | _ => none
  | 5 =>
    match u / 32 with
    | 0 => some (sx 32 (v / 2 ^ s))
    | 0x20 => some (BitVec.ofInt 64 (signed 32 v / 2 ^ s))
    | 0x30 => some (sx 32 (rotl 32 v (32 - s)))
    | _ => none
  | _ => none

/-- Whether a branch is taken; none for a reserved funct3. -/
def branchTaken (f3 : Nat) (a b : Word) : Option Bool :=
  match f3 with
  | 0 => some (a == b)
  | 1 => some (a != b)
  | 4 => some (a.slt b)
  | 5 => some (!a.slt b)
  | 6 => some (a.ult b)
  | 7 => some (!a.ult b)
  | _ => none

/-! ### Floating point (F, D) -/

/-- fflags of the engine flags: NV 16, OF 4, UF 2, NX 1 (and DZ 8). -/
def ffl (f : Flags) : Nat := f.toNat % 2 * 16 + f.toNat / 2 % 2 * 4 + f.toNat / 4 % 2 * 2 + f.toNat / 8 % 2

/-- Format code of the fmt field: 0 single, 1 double. -/
def fpCode (fmt : Nat) : Nat := if fmt = 0 then 0x0C else 0x0D

/-- A single read from a register: NaN-boxed, else the canonical NaN. -/
def unbox (v : Word) : Nat := if v.toNat / 2 ^ 32 = 2 ^ 32 - 1 then v.toNat % 2 ^ 32 else 0x7FC00000
def fpRead (fmt : Nat) (v : Word) : Nat := if fmt = 0 then unbox v else v.toNat
def fpBox (fmt x : Nat) : Word := if fmt = 0 then BitVec.ofNat 64 (x + (2 ^ 32 - 1) * 2 ^ 32) else BitVec.ofNat 64 x

def numSig : Num → Bool
  | .nan s => s
  | _ => false

def numNeg : Num → Num
  | .nan s => .nan s
  | .inf n => .inf (!n)
  | .fin n m e => .fin (!n) m e

/-- A NaN operand: the canonical NaN, NV if one signals. -/
def nanOut (c : Nat) (l : List Num) : Option (Nat × Nat) :=
  if l.any numIsNaN then some (canonNaN c, if l.any numSig then 16 else 0) else none

def fpAdd (c rm : Nat) (x y : Num) : Nat × Nat :=
  (nanOut c [x, y]).getD (let r := addNum c rm false x y; (r.1, ffl r.2))

def fpMul (c rm : Nat) (x y : Num) : Nat × Nat :=
  (nanOut c [x, y]).getD
    (match mulNum x y with
     | none => (canonNaN c, 16)
     | some (.inf n) => (withSign c n (infBits c), 0)
     | some (.fin n m e) => let r := roundNum c rm false n m e; (r.1, ffl r.2)
     | some (.nan _) => (canonNaN c, 0))

/-- x × y + z with one rounding; ∞ × 0 is invalid even with a quiet NaN added. -/
def fpFma (c rm : Nat) (x y z : Num) : Nat × Nat :=
  match (if numIsNaN x || numIsNaN y then some (.nan false) else mulNum x y) with
  | none => (canonNaN c, 16)
  | some p => (nanOut c [x, y, z]).getD (let r := addNum c rm false p z; (r.1, ffl r.2))

def fpDiv (c rm : Nat) (x y : Num) : Nat × Nat :=
  (nanOut c [x, y]).getD
    (match x, y with
     | .inf _, .inf _ => (canonNaN c, 16)
     | .inf n, .fin k _ _ => (withSign c (n != k) (infBits c), 0)
     | .fin n _ _, .inf k => (withSign c (n != k) 0, 0)
     | .fin n a e, .fin k b g =>
       if b = 0 then (if a = 0 then (canonNaN c, 16) else (withSign c (n != k) (infBits c), 8))
       else if a = 0 then (withSign c (n != k) 0, 0)
       else
         let q := a * 2 ^ 200 / b
         let m := 2 * q + (if a * 2 ^ 200 % b = 0 then 0 else 1)
         let r := roundNum c rm false (n != k) m (e - g - 201)
         (r.1, ffl r.2)
     | _, _ => (canonNaN c, 0))

def fpSqrt (c rm : Nat) (x : Num) : Nat × Nat :=
  (nanOut c [x]).getD
    (match x with
     | .inf n => if n then (canonNaN c, 16) else (infBits c, 0)
     | .fin n m e =>
       if m = 0 then (withSign c n 0, 0)
       else if n then (canonNaN c, 16)
       else
         let m' := if e % 2 = 0 then m else 2 * m
         let e' := if e % 2 = 0 then e else e - 1
         let r := Nat.sqrt (m' * 4 ^ 120)
         let s := 2 * r + (if r * r = m' * 4 ^ 120 then 0 else 1)
         let o := roundNum c rm false false s (e' / 2 - 121)
         (o.1, ffl o.2)
     | .nan _ => (canonNaN c, 0))

/-- FMIN and FMAX: a NaN loses, −0 below +0. -/
def fpMinMax (c : Nat) (isMax : Bool) (a b : Nat) : Nat × Nat :=
  let x := decodeNum c false a
  let y := decodeNum c false b
  let fl := if numSig x || numSig y then 16 else 0
  let neg (v : Nat) : Bool := decide (2 ^ (fmtWidth c - 1) ≤ v)
  if numIsNaN x && numIsNaN y then (canonNaN c, fl)
  else if numIsNaN x then (b, fl)
  else if numIsNaN y then (a, fl)
  else
    let aLess := numLt x y || (!numLt y x && neg a && !neg b)
    (if aLess != isMax then a else b, fl)

/-- FEQ (2), FLT (1), FLE (0). -/
def fpCmp (c f3 a b : Nat) : Nat × Nat :=
  let x := decodeNum c false a
  let y := decodeNum c false b
  let nan := numIsNaN x || numIsNaN y
  let sig := numSig x || numSig y
  let t := match f3 with
    | 2 => !numLt x y && !numLt y x
    | 1 => numLt x y
    | _ => !numLt y x
  if nan then (0, if f3 = 2 then (if sig then 16 else 0) else 16) else (if t then 1 else 0, 0)

/-- FCLASS. -/
def fpClass (c a : Nat) : Nat :=
  match decodeNum c false a with
  | .nan s => if s then 2 ^ 8 else 2 ^ 9
  | .inf n => if n then 1 else 2 ^ 7
  | .fin n m _ =>
    if m = 0 then (if n then 2 ^ 3 else 2 ^ 4)
    else
      let sub := a / 2 ^ fmtFrac c % 2 ^ fmtExp c == 0
      if n then (if sub then 2 ^ 2 else 2) else (if sub then 2 ^ 5 else 2 ^ 6)

/-- A floating-point value to an integer register: code 0 W, 1 WU, 2 L, 3 LU. -/
def fpToInt (c rm code a : Nat) : Word × Nat :=
  let n := if code < 2 then 32 else 64
  let lo : Int := if code % 2 = 0 then -(2 ^ (n - 1) : Nat) else 0
  let hi : Int := if code % 2 = 0 then (2 ^ (n - 1) : Nat) - 1 else (2 ^ n : Nat) - 1
  let out (v : Int) : Word := if n = 32 then sx 32 (wrap 32 v) else BitVec.ofInt 64 v
  let v := decodeNum c false a
  match v, roundInt rm v with
  | .nan _, _ => (out hi, 16)
  | .inf s, _ => (out (if s then lo else hi), 16)
  | _, some (i, nx) => if i < lo then (out lo, 16) else if hi < i then (out hi, 16) else (out i, if nx then 1 else 0)
  | _, none => (out 0, 16)

/-- An integer register to floating point. -/
def intToFp (c rm code : Nat) (a : Word) : Nat × Nat :=
  let n := if code < 2 then 32 else 64
  let v : Int := if code % 2 = 0 then signed n a.toNat else (a.toNat % 2 ^ n : Nat)
  let r := roundNum c rm false (decide (v < 0)) v.natAbs 0
  (r.1, ffl r.2)

/-- Between the two formats. -/
def fpConv (src dst rm a : Nat) : Nat × Nat :=
  let v := decodeNum src false a
  (nanOut dst [v]).getD (let r := convert rm src dst false a; (r.1, ffl r.2))

/-- What an OP-FP instruction (0x53) yields: a value for an f register, for an x register, or nothing (no such
instruction); with fflags. -/
inductive FpOut where
  | f (v : Word) (fl : Nat)
  | x (v : Word) (fl : Nat)
  | bad

/-- OP-FP on register values: `fa`, `fb` the f registers rs1, rs2, `xa` the x register rs1, `rm` the effective rounding
mode. -/
def opFp (x rm : Nat) (fa fb xa : Word) : FpOut :=
  let fmt := ib x 26 25
  let c := fpCode fmt
  let w := fmtWidth c
  let a := fpRead fmt fa
  let b := fpRead fmt fb
  let na := decodeNum c false a
  let nb := decodeNum c false b
  let f (r : Nat × Nat) : FpOut := .f (fpBox fmt r.1) r.2
  let sgn (v : Nat) : Bool := decide (2 ^ (w - 1) ≤ v)
  if 2 ≤ fmt then .bad
  else
    match ib x 31 27 with
    | 0x00 => f (fpAdd c rm na nb)
    | 0x01 => f (fpAdd c rm na (numNeg nb))
    | 0x02 => f (fpMul c rm na nb)
    | 0x03 => f (fpDiv c rm na nb)
    | 0x0B => if iRs2 x = 0 then f (fpSqrt c rm na) else .bad
    | 0x04 =>
      let s := match iF3 x with | 0 => sgn b | 1 => !sgn b | _ => sgn a != sgn b
      if 2 < iF3 x then .bad else f (withSign c s (a % 2 ^ (w - 1)), 0)
    | 0x05 => if 1 < iF3 x then .bad else f (fpMinMax c (iF3 x == 1) a b)
    | 0x14 => if 2 < iF3 x then .bad else let r := fpCmp c (iF3 x) a b; .x (BitVec.ofNat 64 r.1) r.2
    | 0x18 => if 4 ≤ iRs2 x then .bad else let r := fpToInt c rm (iRs2 x) a; .x r.1 r.2
    | 0x1A => if 4 ≤ iRs2 x then .bad else f (intToFp c rm (iRs2 x) xa)
    | 0x1C =>
      if iRs2 x ≠ 0 then .bad
      else if iF3 x = 0 then .x (if fmt = 0 then sx 32 (fa.toNat % 2 ^ 32) else fa) 0
      else if iF3 x = 1 then .x (BitVec.ofNat 64 (fpClass c a)) 0
      else .bad
    | 0x1E => if iRs2 x = 0 && iF3 x = 0 then .f (if fmt = 0 then fpBox 0 (xa.toNat % 2 ^ 32) else xa) 0 else .bad
    | 0x08 =>
      if fmt = 0 && iRs2 x = 1 then f (fpConv 0x0D 0x0C rm fa.toNat)
      else if fmt = 1 && iRs2 x = 0 then f (fpConv 0x0C 0x0D rm (unbox fa))
      else .bad
    | _ => .bad

/-- Whether an OP-FP instruction uses its rm field as a rounding mode. -/
def usesRm (x : Nat) : Bool :=
  let k := ib x 31 27
  k ≤ 3 || k == 0x0B || k == 0x18 || k == 0x1A || k == 0x08

end Sys2Proof.Machine
end

