-- ==== Sys2Proof/Machine/Units.lean ====
section
/-! DEFINITION. Units of work: their start and end on engines, the hand-over of slots, gathering, passes and page turns, the
combine of partials, commit, and the debug halt of an engine (R149–R151, R303, R316–R335, R361–R369, R390, R404, R457,
R474–R476, R551, R552). -/

namespace Sys2Proof.Machine

namespace Run

def nextOf (r : Run) (s : Nat) : Nat := Tab.look (fun _ => 0) r.next s
def endedOf (r : Run) (s : Nat) : Nat := Tab.look (fun _ => 0) r.ended s
/-- One more than the instant since which the next unit of a stage is ready; the first unit of all is ready from the
start. -/
def readyAt (r : Run) (s : Nat) : Nat :=
  if s = 0 && r.nextOf 0 = 0 then r.start + 1 else Tab.look (fun _ => 0) r.ready s
def setNext (r : Run) (s n : Nat) : Run := { r with next := Tab.put (fun _ => 0) r.next s n }
def setEnded (r : Run) (s n : Nat) : Run := { r with ended := Tab.put (fun _ => 0) r.ended s n }
/-- Output slots of a stage that are full, and units of it that run. -/
def full (r : Run) (s : Nat) : Nat := (r.slots.filter (fun x => x.stage == s)).length
def running (r : Run) (s : Nat) : Nat := (r.units.filter (fun u => u.stage == s)).length

end Run

namespace Cmd

def rot (c : Cmd) : Bool := c.rotSlot.isSome
/-- The last PRE stage writes the boundary, the last PAGE stage the partials (R332): they fill no slots. -/
def toBoundary (c : Cmd) (s : Nat) : Bool := c.rot && s + 1 == c.firstPage
def toPartial (c : Cmd) (s : Nat) : Bool := c.rot && s == c.lastPage

/-- The input slot of unit k of stage s is full (R318); a GATHER takes the whole of its input (R316). -/
def inputFull (c : Cmd) (r : Run) (s k : Nat) : Bool :=
  let whole := c.kindOf s == kGather
  if s = 0 then true
  else if c.rot && s = c.firstPage then r.inPass
  else if c.rot && s = c.lastPage + 1 then r.delivered.isSome
  else if c.kindOf (s - 1) = kGather then r.gathered.isSome
  else if whole then decide (c.batchesAt s ≤ r.nextOf s)
  else r.slots.any (fun x => x.stage == s - 1 && x.mb == k)

/-- The stage holds a free output slot (R318). -/
def hasCredit (c : Cmd) (r : Run) (s : Nat) : Bool :=
  c.kindOf s == kEmit || decide (r.full s + r.running s < sgCredits (c.stage s))

/-- The next unit of a stage, if R318 lets it start. Units of one stage other than CORE run one after another. -/
def readyUnit (c : Cmd) (r : Run) (s : Nat) : Option Nat :=
  let k := if c.kindOf s = kGather then 0 else r.nextOf s
  let left := if c.kindOf s = kGather then decide (r.endedOf s = 0) else decide (k < c.unitsOf s)
  if c.st == .running && c.fused && decide (s < c.pipeline) && left && c.inputFull r s k && c.hasCredit r s &&
      (c.kindOf s == kCore || r.running s == 0) && (!(c.rot && c.passOf s == 2) || r.inPass) then some k
  else none

end Cmd

namespace Wafer

/-! ### Engines and order (R320, R321, R323) -/

/-- The engine of a stage: kind, first, count (fetch engine, matrix engine, banks, cluster). -/
def stageEngine (w : Wafer) (c : Cmd) (r : Run) (s : Nat) : Nat × Nat × Nat :=
  match c.kindOf s with
  | 0 | 5 => (0, r.eng, 1)
  | 2 => (1, r.eng, 1)
  | 3 =>
    (match w.fetch (w.ctxOf c s) (sgParam (c.stage s)) 64 with
     | .ok p => (2, w.searchBase (w.ctxOf c s) + sFirst p, sReach p - sFirst p)
     | .error _ => (2, 0, 0))
  | 1 => (3, Tab.look (fun _ => 0) r.clusters s, 1)
  | _ => (4, 0, 0)

/-- Two stages use an engine, or a bank, in common. -/
def clash (a b : Nat × Nat × Nat) : Bool :=
  a.1 == b.1 && decide (a.2.1 < b.2.1 + b.2.2) && decide (b.2.1 < a.2.1 + a.2.2)

/-- A unit that holds an engine of a site in common with `g`. -/
def engineBusy (w : Wafer) (site : Nat) (g : Nat × Nat × Nat) : Bool :=
  if g.1 = 1 then (w.engAt site g.2.1).on.isSome || (w.engAt site g.2.1).halted.isSome
  else if 3 ≤ g.1 then false
  else (w.siteCmds site).any (fun c => match c.run with
    | some r => c.fused && r.units.any (fun u => clash (w.stageEngine c r u.stage) g)
    | none => false)

/-- The leave of a heavy stage is held (R323). -/
def stageLeave (w : Wafer) (c : Cmd) (e s : Nat) : Bool :=
  match w.heavy c e s with | some h => w.hasLeave c h.1 | none => true

/-- The ready list of a site: class, instant, arrival and stage of each ready unit, with its engine (R321). -/
def readyList (w : Wafer) (site : Nat) : List ((Nat × Nat × Nat × Nat) × Nat × (Nat × Nat × Nat)) :=
  (w.siteCmds site).flatMap (fun c => match c.run with
    | none => []
    | some r => (List.range c.pipeline).filterMap (fun s =>
        match c.readyUnit r s with
        | some _ => if w.stageLeave c r.eng s then some ((c.cls, r.readyAt s, c.order, s), c.idx, w.stageEngine c r s) else none
        | none => none))

/-- Order of R321. -/
def sooner (a b : Nat × Nat × Nat × Nat) : Bool :=
  decide (a.1 < b.1) || (a.1 == b.1 && (decide (a.2.1 < b.2.1) || (a.2.1 == b.2.1 && (decide (a.2.2.1 < b.2.2.1) ||
    (a.2.2.1 == b.2.2.1 && decide (a.2.2.2 < b.2.2.2))))))

/-- It is the turn of stage s of a command: its leave is held, and no ready unit for its engine comes before it. -/
def unitTurn (w : Wafer) (c : Cmd) (r : Run) (s : Nat) : Bool :=
  let g := w.stageEngine c r s
  let me := (c.cls, r.readyAt s, c.order, s)
  w.stageLeave c r.eng s && (w.readyList c.site).all (fun x => !clash x.2.2 g || !sooner x.1 me)

/-- Note since when each stage's next unit is ready (R321). -/
def markReady (w : Wafer) (site : Nat) : Wafer :=
  { w with cmds := w.cmds.map (fun c =>
    if c.site != site then c
    else match c.run with
      | none => c
      | some r =>
        let t := (List.range c.pipeline).foldl (fun t s =>
          Tab.put (fun _ => 0) t s (if (c.readyUnit r s).isNone then 0 else if r.readyAt s = 0 then w.now + 1 else r.readyAt s)) r.ready
        { c with run := some { r with ready := t } }) }

/-- The command of a run after a change; the ready lists follow. -/
def runTo (w : Wafer) (c : Cmd) (r : Run) : Wafer := (w.setRun c r).markReady c.site

/-! ### Moving bytes (R213, R320, R326) -/

/-- Memory whose accesses may have any size up to 256 bytes. -/
def isRam (w : Wafer) (a : Nat) : Bool :=
  match w.locate a with
  | .ram _ _ | .far _ | .host _ | .service _ => true
  | _ => false

/-- Bytes of the next access of a move: up to the next 256-byte boundary in memory, else 32 bytes of a bank or 8. -/
def accessLen (w : Wafer) (s d left : Nat) : Nat :=
  let bank (a : Nat) : Bool := match w.locate a with | .bank _ _ => true | _ => false
  if w.isRam s && w.isRam d then min left (min (256 - s % 256) (256 - d % 256))
  else if (bank s || bank d) && s % 32 = 0 && d % 32 = 0 && 32 ≤ left then 32
  else min left 8

/-- Copy by accesses in address order; the first that fails ends it: status, its address, wafer. -/
def moveBytes (p : Sup) (rd wr : Src) : Nat → Wafer → Nat → Nat → Nat → Nat × Nat × Wafer
  | 0, w, _, _, _ => (stOk, 0, w)
  | f + 1, w, s, d, left =>
    if left = 0 then (stOk, 0, w)
    else
      let n := w.accessLen s d left
      let got : Nat × List Byte × Wafer :=
        if w.isRam s then (let st := w.readStatus rd s n; (st, if st = stOk then w.load s n else [], w)) else w.busRead p rd s n
      if got.1 ≠ stOk then (got.1, s, got.2.2)
      else
        let put : Nat × Wafer :=
          if w.isRam d then (let st := got.2.2.writeStatus wr d n; (st, if st = stOk then got.2.2.save d got.2.1 else got.2.2))
          else got.2.2.busPut wr d got.2.1
        if put.1 ≠ stOk then (put.1, d, put.2) else moveBytes p rd wr f put.2 (s + n) (d + n) (left - n)

/-- A copy of n bytes for a command: the source as a buddy run maps it (R517), the destination as it stands. -/
def moveFor (w : Wafer) (p : Sup) (c : Cmd) (s d n : Nat) : Except Bad Wafer :=
  let x := w.ctxOf c 0
  let lost (a : Nat) : Bool := x.buddy && adRegion a == 0 && adWafer a == w.col.wafer && adDie a == x.home && x.home != x.site
  if lost d then .error { code := 0x164, detail := d, replay := false }
  else
    match w.mapRead x s n with
    | .error b => .error { b with detail := s }
    | .ok s' =>
      let r := moveBytes p (if s' = s then volSrc c.vol else .unhal) (volSrc c.vol) (n / 8 + 2) w s' d n
      if r.1 = stOk then .ok r.2.2 else .error (memBad r.1 r.2.1)

/-! ### Commit (R315, R326, R327, R337, R507) -/

/-- One commit stage: TRANSFER, or ATOMIC unless it has been performed (R337). -/
def commitStage (w : Wafer) (p : Sup) (c : Cmd) (s : Nat) : Except Bad (Wafer × Cmd) :=
  let g := c.stage s
  if c.kindOf s = kTransfer then
    match w.moveFor p c (sgParam g) (sgArgA g) (sgArgB g) with
    | .ok w => .ok (w, c)
    | .error b => .error b
  else if c.atomics.getLsbD s then .ok (w, c)
  else
    let a := sgParam g
    let x := w.ctxOf c s
    if x.buddy && adRegion a == 0 && adWafer a == w.col.wafer && adDie a == x.home && x.home != x.site then
      .error { code := 0x164, detail := a, replay := false }
    else
      let n := if Nat.testBit (sgArgB g) 4 then 8 else 4
      let r := w.busAtomic (volSrc c.vol) a n (sgArgB g % 16) (BitVec.ofNat 64 (sgArgA g)) 0
      if r.1 ≠ stOk then .error (memBad r.1 a)
      else
        let c := { c with atomics := c.atomics ||| BitVec.ofNat 8 (2 ^ s) }
        .ok (r.2.2.recChange c, c)

/-- Steps 1 to 5 of R326 in one step; a fault abandons them where it strikes (R336). -/
def commit (w : Wafer) (p : Sup) (c : Cmd) : Wafer :=
  match c.run with
  | none => w
  | some r =>
    let c := { c with st := .committing }
    let w := w.recChange c
    let n := r.entries * sgArgA (c.stage (c.pipeline - 1))
    let lost := c.buddyRun && adRegion c.output == 0 && adWafer c.output == w.col.wafer && adDie c.output == c.home && c.home != c.site
    if lost then w.faultCmd c { code := 0x164, detail := c.output, replay := false }
    else
      let m := moveBytes p (areaSrc c) (volSrc c.vol) (n / 8 + 2) w (w.stagingAt c) c.output n
      if m.1 ≠ stOk then m.2.2.faultCmd c (memBad m.1 m.2.1)
      else
        let go := (List.range (c.stages.length - c.pipeline)).foldl (fun (acc : Wafer × Cmd × Option Bad) i =>
          if acc.2.2.isSome then acc
          else match acc.1.commitStage p acc.2.1 (c.pipeline + i) with
            | .ok x => (x.1, x.2, none)
            | .error b => (acc.1, acc.2.1, some b)) (m.2.2, c, none)
        match go.2.2 with
        | some b => go.1.faultCmd go.2.1 b
        | none => go.1.conclude go.2.1 r.flags (r.entries % 2 ^ 32)

/-- Leave of every heavy commit stage is held (R326). -/
def commitLeave (w : Wafer) (c : Cmd) (e : Nat) : Bool :=
  (List.range c.stages.length).all (fun s => s < c.pipeline || w.stageLeave c e s)

/-! ### Gathering (R149–R151, R330, R474, R552) -/

def sessFor (w : Wafer) (vol gid : Nat) (shelf : Bool) : Option Sess :=
  w.gat.find? (fun s => s.vol == vol && s.gid == gid && s.shelf == shelf && !s.broken)

def setSess (w : Wafer) (s : Sess) : Wafer :=
  { w with gat := w.gat.map (fun x => if x.vol == s.vol && x.gid == s.gid && x.shelf == s.shelf && !x.broken then s else x) }

/-- OR flags into the run of the participant of a slot, the root's where that slot has none (R390). -/
def gatherFlags (w : Wafer) (s : Sess) (m : Nat) (f : Flags) : Wafer :=
  match (s.parts.find? (fun p => p.slot == m)).or (s.parts.find? (fun p => p.slot == 0)) with
  | none => w
  | some p =>
    match w.cmd? p.site p.idx with
    | some c => match c.run with | some r => w.setRun c { r with flags := r.flags ||| f } | none => w
    | none => w

/-- Across the shelf (R150): the spans of the wafers that rank after the own one; what they hold is not of this machine. -/
def shelfValue (w : Wafer) (s : Sess) (p : Part) (v : List Byte) : List Byte × Flags × Wafer :=
  if !s.shelf then (v, fNone, w)
  else
    let n := w.col.shelf.length
    let r := (List.range (treeLevels n)).foldl (fun (x : List Byte × Flags) k =>
      if n ≤ 2 ^ k then x
      else
        let c := gatherCombine p.op p.ftz x.1 (openBytes 12 (w.free + k) p.size)
        (c.1, x.2 ||| c.2)) (v, fNone)
    (r.1, r.2, { w with free := w.free + treeLevels n })

/-- The own wafer holds the root of a session. -/
def gatherRoot (w : Wafer) (s : Sess) : Bool := !s.shelf || w.col.shelf.findIdx (· == w.col.wafer) == 0

/-- The combined operand arrives: the root takes it, every other participant an empty output, and the session ends. -/
def gatherDeliver (w : Wafer) (s : Sess) (v : List Byte) : Wafer :=
  let w := { w with gat := w.gat.filter (fun x => !(x.vol == s.vol && x.gid == s.gid && x.shelf == s.shelf && !x.broken)) }
  s.parts.foldl (fun w p =>
    match w.cmd? p.site p.idx with
    | none => w
    | some c =>
      match c.run with
      | none => w
      | some r =>
        if p.slot = 0 && w.gatherRoot s then
          let x := w.shelfValue s p v
          x.2.2.runTo c { r with operand := x.1, gathered := some (if gTop p.op then gK p.op else c.records),
                                 flags := r.flags ||| x.2.1 }
        else w.runTo c { r with operand := [], gathered := some 0 }) w

/-- A value of node (m, k) goes up the tree as far as it can. -/
def gatherClimb : Nat → Wafer → Nat × Nat × Bool → Nat → Nat → List Byte → Wafer
  | 0, w, _, _, _, _ => w
  | f + 1, w, key, m, k, v =>
    match w.sessFor key.1 key.2.1 key.2.2 with
    | none => w
    | some s =>
      let n := w.spanCount s.vol
      if treeLevels n ≤ k then w.gatherDeliver s v
      else if m % 2 ^ (k + 1) ≠ 0 then w.send (.gather s.vol s.gid s.shelf (m - 2 ^ k) k v)
      else
        match nodeRight n m k with
        | none => gatherClimb f w key m (k + 1) v
        | some q =>
          match s.vals.find? (fun x => x.1 == q && x.2.1 == k) with
          | none => w.setSess { s with vals := s.vals ++ [(m, k, v)] }
          | some right =>
            match (s.parts.find? (fun p => p.slot == m)).or s.parts.head? with
            | none => w
            | some p =>
              let c := gatherCombine p.op p.ftz v right.2.2
              let w := w.setSess { s with vals := s.vals.filter (fun x => x ≠ right) }
              gatherClimb f (w.gatherFlags s m c.2) key m (k + 1) c.1

/-- The GATHER stage whose unit runs. -/
def gatherStage (c : Cmd) : Nat :=
  match c.run with
  | some r => ((r.units.find? (fun u => c.kindOf u.stage == kGather)).map (·.stage)).getD 0
  | none => 0

/-- Fault every command of a session with GATHER_MISMATCH (R330, R552). -/
def gatherMismatch (w : Wafer) (s : Sess) (c : Cmd) : Wafer :=
  let one (w : Wafer) (site idx : Nat) : Wafer :=
    match w.cmd? site idx with
    | some x => w.faultCmd x { code := 0x165, detail := gatherStage x, replay := false }
    | none => w
  one (s.parts.foldl (fun w p => one w p.site p.idx) w) c.site c.idx

/-- The unit of a GATHER stage contributes its operand (R330, R474, R476). -/
def gatherJoin (w : Wafer) (c : Cmd) (r : Run) (s : Nat) : Wafer :=
  let g := c.stage s
  match w.fetch (w.ctxOf c s) (sgParam g) 64 with
  | .error b => w.faultCmd c b
  | .ok p =>
    let bad : Wafer := w.faultCmd c { code := 0x152, detail := s, replay := false }
    match gatherSize p (c.recsAt s) (c.inBytes s) with
    | none => bad
    | some n =>
      if n ≠ sgArgB g then bad
      else
        let input := if c.rot && s = c.lastPage + 1 then r.delivered.getD [] else r.operand
        let own := gatherOwn p input
        let gid := sgArgA g % 65536
        let shelf := Nat.testBit (sgArgA g) 16
        let slot := c.home - w.spanFirst c.vol
        let part : Part := { slot := slot, site := c.site, idx := c.idx, size := n, op := p, ftz := c.ftz }
        let w := if (w.sessFor c.vol gid shelf).isSome then w else
          { w with gat := w.gat ++ [{ vol := c.vol, gid := gid, shelf := shelf, parts := [], vals := [], gave := [], broken := false }] }
        match w.sessFor c.vol gid shelf with
        | none => w
        | some x =>
          if x.parts.any (fun q => q.size != n || q.slot == slot) || !w.inSpan c.vol c.home then w.gatherMismatch x c
          else
            let w := w.setSess { x with parts := x.parts ++ [part], gave := slot :: x.gave.filter (· ≠ slot) }
            if x.gave.contains slot then w else gatherClimb 16 w (c.vol, gid, shelf) slot 0 own

/-! ### Rotation (R331–R335) -/

def rotG (w : Wafer) (c : Cmd) : Nat :=
  match c.rotSlot with | some g => w.get (rotBlk c.site g) F.CMD_ROT_CFG.MEMBERS | none => 0

/-- Begin a pass against the page the site holds (R332, R333): no turn is called, and the page is not the one last passed. -/
def beginPass (w : Wafer) (c : Cmd) : Wafer :=
  match c.rotSlot, c.run with
  | some g, some r =>
    let b := rotBlk c.site g
    let page := w.get b F.CMD_ROT_CFG.PAGE
    let may := c.st == .running && !r.inPass && decide (r.passes < w.rotG c) && decide (c.batches ≤ r.endedOf (c.firstPage - 1)) &&
      w.get b F.CMD_ROT_CFG.STATE == 1 && !w.flag b F.CMD_ROT_TURNS.CALLED && (r.passes == 0 || page != r.page)
    if !may then w
    else
      let r := (List.range c.pipeline).foldl (fun r s => if c.passOf s == 2 then (r.setNext s 0).setEnded s 0 else r) r
      w.runTo c { r with inPass := true, half := w.flag b F.CMD_ROT_CFG.HALF, page := page, asked := false }
  | _, _ => w

/-- Commands of a site bound to a rotation slot. -/
def bound (w : Wafer) (site g : Nat) : List Cmd := (w.siteCmds site).filter (fun c => c.rotSlot == some g && c.run.isSome)

def turnAt (w : Wafer) (site g : Nat) : Turn := Tab.look (fun _ => Turn.init) w.rot (16 * site + g)
def setTurn (w : Wafer) (site g : Nat) (t : Turn) : Wafer := { w with rot := Tab.put (fun _ => Turn.init) w.rot (16 * site + g) t }

/-- Members of the group of a slot: m_j in order. The replacement of a lost member holds its index (R335). -/
def rotMembers (w : Wafer) (g first : Nat) : List Nat :=
  let on := (List.range w.col.sites.length).filter (fun s =>
    w.flag (rotBlk s g) F.CMD_ROT_CFG.VALID && w.get (rotBlk s g) F.CMD_ROT_CFG.FIRST == first)
  let n := (on.map (fun s => w.get (rotBlk s g) F.CMD_ROT_CFG.MEMBERS)).headD 0
  let turns (s : Nat) : Nat := w.get (rotBlk s g) F.CMD_ROT_TURNS.TURNS
  (List.range n).filterMap (fun j =>
    on.find? (fun s => (j + turns s) % n == w.get (rotBlk s g) F.CMD_ROT_CFG.PAGE))

/-! ### Ends of units (R318, R319, R322, R327, R332) -/

/-- Take full slots before a GATHER into its input, in order (R316). -/
def absorb (c : Cmd) : Nat → Run → Nat → Run
  | 0, r, _ => r
  | f + 1, r, s =>
    if c.kindOf (s + 1) ≠ kGather then r
    else
      match r.slots.find? (fun x => x.stage == s && x.mb == r.nextOf (s + 1)) with
      | none => r
      | some x =>
        absorb c f ({ r with operand := r.operand ++ x.data, slots := r.slots.filter (fun y => y ≠ x) }.setNext (s + 1) (r.nextOf (s + 1) + 1)) s

/-- A heavy stage has no unit left. -/
def stageOver (w : Wafer) (c : Cmd) (r : Run) (s : Nat) : Bool :=
  decide (c.unitsOf s ≤ r.endedOf s) && (!(c.rot && c.passOf s == 2) || decide (w.rotG c ≤ r.passes))

/-- The leave of stages that are over is returned where no other stage of the command needs the resource (R487). -/
def doneLeave (w : Wafer) (c : Cmd) (r : Run) : Wafer :=
  let l := w.heavies c r.eng
  let ended (s : Nat) : Bool := decide (s < c.pipeline) && w.stageOver c r s
  w.returnLeave c.site c.idx (fun res => l.any (fun h => h.2.1 == res) && l.all (fun h => h.2.1 != res || ended h.1))

/-- A unit ends with its output (R318): the boundary, a partial, a slot, or the input of a GATHER takes it. -/
def unitEnds (w : Wafer) (c : Cmd) (r : Run) (s k : Nat) (out : List Byte) (fl : Flags) (addr : Nat) : Wafer :=
  let res := ((r.units.find? (fun u => u.stage == s && u.mb == k)).map (·.res)).getD 0
  let r := { r with units := r.units.filter (fun u => !(u.stage == s && u.mb == k)), flags := r.flags ||| fl,
                    slots := r.slots.filter (fun x => !(x.stage + 1 == s && x.mb == k)) }
  let r := r.setEnded s (r.endedOf s + 1)
  let size := c.mbRecords * sgOut (c.stage s)
  let put (o : Nat) (r : Run) : Except Bad (Wafer × Run) :=
    let a := w.scratchAt { c with run := some r } + o
    let st := w.writeStatus (areaSrc c) a out.length
    if st = stOk then .ok (w.save a out, r) else .error (memBad st (w.faultAddr (areaSrc c) a out.length true))
  let x : Except Bad (Wafer × Run) :=
    if c.toBoundary s then put (k * (c.mbRecords * c.inBytes (s + 1))) r
    else if c.toPartial s then put (c.partialOff r.page + k * size) r
    else if c.kindOf s = kEmit || c.kindOf s = kGather then .ok (w, r)
    else .ok (w, absorb c c.batches { r with slots := r.slots ++ [{ stage := s, mb := k, data := out, addr := addr }] } s)
  match x with
  | .error b => w.faultCmd c b
  | .ok (w, r) =>
    let r := if c.toPartial s && c.batches ≤ r.endedOf s then { r with inPass := false, passes := r.passes + 1 } else r
    let c := { c with run := some r }
    let w := (w.runTo c r).progressed c.vol
    let w := w.tailEnds c.site res c.idx
    let w := w.doneLeave c r
    let w := w.beginPass c
    w.evaluateSite c.site

/-! ### Work of one unit -/

/-- Bytes of micro-batch k of the input (R311, R328): a range at INPUT, or the entries claimed; an entry shorter than a
record is filled with zeros. -/
def fetchInput (w : Wafer) (c : Cmd) (k : Nat) : Except Bad (List Byte) :=
  let n := c.mbLenAt 0 k
  let rb := c.recordBytes
  let x := w.ctxOf c 0
  let grab (a n : Nat) : Except Bad (List Byte) :=
    match w.mapRead x a n with
    | .error b => .error { b with detail := a }
    | .ok y =>
      let src : Src := if y = a then volSrc c.vol else .unhal
      let st := w.readStatus src y n
      if st = stOk then .ok (w.load y n) else .error (memBad st (w.faultAddr src y n false))
  match c.dataRing with
  | none => grab (c.input + k * (c.mbRecords * rb)) (n * rb)
  | some id =>
    let b := ringBlk (id / 2048) (id % 2048)
    let first := match c.claim with | some y => y.2 | none => 0
    if x.buddy && id / 2048 == c.home then .error { code := 0x164, detail := c.input, replay := false }
    else (List.range n).foldl (fun acc i =>
      match acc with
      | .error e => .error e
      | .ok l =>
        match grab (w.rSlot b ((first + k * c.mbRecords + i) % 2 ^ 32)) (min rb (w.rEsize b)) with
        | .error e => .error e
        | .ok d => .ok (l ++ fit rb d)) (.ok [])

/-- The matrix unit of stage s, micro-batch k (R345, R347). -/
def matUnit (w : Wafer) (c : Cmd) (r : Run) (s k : Nat) : Except Bad MatIn :=
  match w.unitInput c r s k with
  | .error b => .error b
  | .ok l => w.matIn (w.ctxOf c s) (sgParam (c.stage s)) (c.inBytes s) (sgOut (c.stage s)) c.ftz (split (c.mbLenAt s k) (c.inBytes s) l)

/-- The program was refused: MAT_EVT shows it (Table MAT-7). -/
def matBad (w : Wafer) (c : Cmd) (e : Nat) (b : Bad) : Wafer :=
  (if 0x121 ≤ b.code && b.code ≤ 0x123 then w.latch (matBlk c.site e) F.MAT_EVT.PROGRAM else w).faultCmd c b

/-- A MATRIX unit ends (R344, R351, R368). -/
def matEnds (w : Wafer) (c : Cmd) (r : Run) (s k : Nat) : Wafer :=
  let e := r.eng
  match w.matUnit c r s k with
  | .error b => w.matBad c e b
  | .ok u =>
    let o := u.unitOut (sgOut (c.stage s)) w.free
    let w := { w with free := w.free + u.recs.length }
    let n := u.stepsAt (u.stopAt u.cycles)
    let b := matBlk c.site e
    let w := (w.setReg (b + 8) (w.reg (b + 8) + BitVec.ofNat 64 n.1)).setReg (b + 16) (w.reg (b + 16) + BitVec.ofNat 64 n.2)
    let w := if o.2 &&& fSAT ≠ 0 then w.latch b F.MAT_EVT.SAT_SEEN else w
    let w := if o.2 &&& (fIV ||| fOF) ≠ 0 then w.latch b F.MAT_EVT.FP_SEEN else w
    (w.setEng c.site e { w.engAt c.site e with on := none }).unitEnds c r s k o.1 o.2 0

/-- A SEARCH unit ends (R404–R409). -/
def searchEnds (w : Wafer) (c : Cmd) (r : Run) (s k : Nat) : Wafer :=
  let g := c.stage s
  match w.unitInput c r s k, w.fetch (w.ctxOf c s) (sgParam g) 64 with
  | .error b, _ => w.faultCmd c b
  | _, .error b => w.faultCmd c b
  | .ok l, .ok p =>
    let n := c.mbLenAt s k
    match w.searchUnit c.site (w.searchBase (w.ctxOf c s)) s p c.ftz (c.inBytes s) (sgOut g) w.free (split n (c.inBytes s) l) with
    | .error b => w.faultCmd c b
    | .ok o =>
      let w := { w with free := w.free + n }
      let a := ascBlk c.site + F.ASC_SEARCHES.VAL.off
      (w.setReg a (w.reg a + BitVec.ofNat 64 o.2.2)).unitEnds c r s k o.1 o.2.1 0

/-- An EMIT unit ends (R324): entries go to STAGING in record order; with the last one the commit begins (R326). -/
def emitEnds (w : Wafer) (p : Sup) (c : Cmd) (r : Run) (s k : Nat) : Wafer :=
  match w.unitInput c r s k with
  | .error b => w.faultCmd c b
  | .ok l =>
    let eb := sgArgA (c.stage s)
    let n := c.mbLenAt s k
    let out := (split n (c.inBytes s) l).flatMap (fit eb)
    let a := w.stagingAt c + r.entries * eb
    if c.stagingBytes < (r.entries + n) * eb then w.faultCmd c { code := 0x118, detail := s, replay := false }
    else
      let st := w.writeStatus (areaSrc c) a out.length
      if st ≠ stOk then w.faultCmd c (memBad st (w.faultAddr (areaSrc c) a out.length true))
      else
        let last := decide (c.unitsOf s ≤ r.endedOf s + 1)
        let w := (w.save a out).unitEnds c { r with entries := r.entries + n } s k [] fNone 0
        match w.cmd? c.site c.idx with
        | some c =>
          if !last || c.st != .running then w
          else if w.commitLeave c r.eng then w.commit p c
          else w.recChange { c with st := .committing }
        | none => w

/-- A COPY ends (Table QUE-6, R551): its bytes are copied, then its signal is added. -/
def copyEnds (w : Wafer) (p : Sup) (c : Cmd) : Wafer :=
  match w.moveFor p c c.body c.copyDest c.copyLen with
  | .error b => w.faultCmd c b
  | .ok w =>
    let sg := leAt c.desc 48 8
    let site := sg % 2 ^ 18 / 2048
    let obj := sg % 2048
    let wafer := sg / 2 ^ 18 % 16
    let x := BitVec.ofNat 64 (leAt c.desc 56 8)
    let at_ := syncKey site obj + wafer * 2 ^ 56
    if !Nat.testBit sg 22 then w.conclude c 0 c.copyLen
    else if wafer ≠ w.col.wafer then
      (if w.col.shelf.contains wafer then
        let f := w.fresh
        f.2.syncEnds c (if f.1.toNat % 2 = 0 then qDone else qOverflow) 0 at_ c.copyLen
      else w.faultCmd c (memBad stFenced at_))
    else if w.dieStatus site ≠ stOk then w.faultCmd c (memBad (w.dieStatus site) at_)
    else if !w.syncLive site obj || !queAllowed (volSrc c.vol) (w.syncVol site obj) then
      (w.quePROT site).faultCmd c (memBad stProt at_)
    else
      let r := w.syncAddAt site obj x
      r.2.syncEnds c r.1 0 at_ c.copyLen

/-! ### Start of a unit -/

/-- A unit starts on its engine (R318, R321, R323, R347). -/
def unitStart (w : Wafer) (c : Cmd) (r : Run) (s : Nat) : Wafer :=
  match c.readyUnit r s with
  | none => w
  | some k =>
    let g := w.stageEngine c r s
    let blocked := c.kindOf s == kMatrix && w.restoreFirst c.site r.eng c.cls
    if c.kindOf s = kCore || !w.unitTurn c r s || w.engineBusy c.site g || blocked then w
    else
      let res := match c.kindOf s with
        | 0 | 5 => 96 + r.eng
        | 2 => r.eng
        | 3 => ((w.heavy c r.eng s).map (·.1)).getD (16 + g.2.1 % 64)
        | _ => 400
      let u : Unit_ := { stage := s, mb := k, res := res, start := w.now }
      let r := { r with units := r.units ++ [u] }
      let r := if c.kindOf s = kGather then r else r.setNext s (k + 1)
      let c := { c with run := some r }
      let w := w.runTo c r
      match c.kindOf s with
      | 2 =>
        let o : OnEng := { idx := c.idx, stage := s, mb := k, pass := r.passes, done := 0, start := w.now }
        let w := w.setEng c.site r.eng { w.engAt c.site r.eng with on := some o }
        (match w.matUnit c r s k with | .ok _ => w | .error b => w.matBad c r.eng b)
      | 3 => (match w.fetch (w.ctxOf c s) (sgParam (c.stage s)) 64 with | .ok _ => w | .error b => w.faultCmd c b)
      | 4 => w.gatherJoin c r s
      | _ => w

/-! ### Turns -/

/-- One request for a turn suffices: m_0 calls it for every member (R333). -/
def callTurn (w : Wafer) (g : Nat) (members : List Nat) : Wafer :=
  members.foldl (fun w s => (w.set (rotBlk s g) F.CMD_ROT_TURNS.CALLED 1).set (rotBlk s g) F.CMD_ROT_CFG.STATE 2) w

/-- Leave for a send of more than 1 MiB (R333): a grant of the group's volume on the transfer engine, for no command. -/
def sendLeave (w : Wafer) (site g n : Nat) : Option (Option Grant) :=
  if n ≤ 2 ^ 20 then some none
  else
    let b := rotBlk site g
    (w.lve.grants.find? (fun x => x.site == site && x.res == 104 + w.get b F.CMD_ROT_CFG.TURN_CLUSTER && x.owner.isNone &&
      x.vol == w.get b F.CMD_ROT_CFG.VOLUME && x.arrived && !x.tail)).map some

/-- Address of page data of a half, and its first bank. -/
def halfBank (w : Wafer) (site g : Nat) (h : Bool) : Nat :=
  w.get (rotBlk site g) (if h then F.CMD_ROT_BANKS.HALF_B else F.CMD_ROT_BANKS.HALF_A)
def halfSram (w : Wafer) (site g : Nat) (h : Bool) : Nat := (w.reg (rotBlk site g + (if h then 0x18 else 0x10))).toNat

/-- Put a page into a half (R331): its banks row by row, its SRAM data. -/
def putPage (w : Wafer) (site g : Nat) (h : Bool) (banks : List (List Byte)) (data : List Byte) : Wafer :=
  let w := (List.range banks.length).foldl (fun w i => w.putRows site (w.halfBank site g h + i) 0 (banks.getD i [])) w
  w.save (w.halfSram site g h) data

/-- A member sends its current half to the other half of its receiver, and signals arrival (R333). Poisoned rows wait for
their rewrite (R416). -/
def pageSend (w : Wafer) (site g : Nat) : Wafer :=
  let b := rotBlk site g
  let ms := w.rotMembers g (w.get b F.CMD_ROT_CFG.FIRST)
  let j := ms.findIdx (· == site)
  let dst := ms.getD ((j + ms.length - 1) % max 1 ms.length) site
  let h := w.flag b F.CMD_ROT_CFG.HALF
  let n := w.get b F.CMD_ROT_BANKS.BANKS
  let len := w.get b F.CMD_ROT_SIZE.SRAM_BYTES
  let first := w.halfBank site g h
  let src := w.halfSram site g h
  match w.sendLeave site g (n * 0x20000 + len) with
  | none => w
  | some lv =>
    if !w.flag b F.CMD_ROT_CFG.VALID || !w.flag b F.CMD_ROT_TURNS.CALLED || (w.turnAt site g).sent || (w.turnAt dst g).arrived ||
        !w.active dst || (w.bound site g).any (fun c => c.run.any (·.inPass)) ||
        (List.range n).any (fun i => !(w.bankBad site (first + i)).isEmpty) || w.readStatus .unhal src len ≠ stOk then w
    else
      let w := w.putPage dst g (!(w.flag (rotBlk dst g) F.CMD_ROT_CFG.HALF))
        ((List.range n).map (fun i => w.bytes (bankKey site (first + i) 0) 0x20000)) (w.load src len)
      let w := w.setTurn site g { w.turnAt site g with sent := true }
      let w := w.setTurn dst g { w.turnAt dst g with arrived := true }
      match lv with | some x => w.freeGrant x | none => w

/-- Swap halves (R333); passes resume against the new page. -/
def halfSwap (w : Wafer) (site g : Nat) : Wafer :=
  let b := rotBlk site g
  let t := w.turnAt site g
  if !(t.sent && t.arrived) || !w.flag b F.CMD_ROT_CFG.VALID then w
  else
    let n := max 1 (w.get b F.CMD_ROT_CFG.MEMBERS)
    let w := w.set b F.CMD_ROT_CFG.HALF (1 - w.get b F.CMD_ROT_CFG.HALF)
    let w := w.set b F.CMD_ROT_CFG.PAGE ((w.get b F.CMD_ROT_CFG.PAGE + 1) % n)
    let w := (w.set b F.CMD_ROT_TURNS.TURNS (w.get b F.CMD_ROT_TURNS.TURNS + 1)).set b F.CMD_ROT_TURNS.CALLED 0
    let w := (w.set b F.CMD_ROT_CFG.STATE 1).setTurn site g Turn.init
    (w.bound site g).foldl (fun w c => match w.cmd? site c.idx with | some c => w.beginPass c | none => w) w

/-- Combine partials in ascending page order (R332, R380, R390). -/
def combinePartials (w : Wafer) (c : Cmd) (r : Run) : Wafer :=
  let g := c.stage c.lastPage
  let n := c.records * sgOut g
  let wb := fmtWidth (sgAccFmt g) / 8
  let part (p : Nat) : Except Bad (List Byte) :=
    let a := w.scratchAt c + c.partialOff p
    let st := w.readStatus (areaSrc c) a n
    if st = stOk then .ok (w.load a n) else .error (memBad st (w.faultAddr (areaSrc c) a n false))
  let add (acc : Except Bad (List Byte × Flags)) (p : Nat) : Except Bad (List Byte × Flags) :=
    match acc, part p with
    | .error b, _ => .error b
    | _, .error b => .error b
    | .ok x, .ok l =>
      if p = 0 then .ok (l, x.2)
      else
        let z := List.zipWith (fun a b => accOp (sgAccOp g) (sgAccFmt g) c.ftz (fromLE a) (fromLE b))
          (chunks wb (n / wb) x.1) (chunks wb (n / wb) l)
        .ok (z.flatMap (fun y => toLE wb y.1), z.foldl (fun f y => f ||| y.2) x.2)
  match (List.range (w.rotG c)).foldl add (.ok ([], fNone)) with
  | .error b => w.faultCmd c b
  | .ok x => w.runTo c { r with delivered := some x.1, flags := r.flags ||| x.2 }

end Wafer

/-! ### Meanings -/

/-- UNIT_START (R318, R321, R323): a pipeline stage's next unit starts; a commit that waits for leave goes on (R326). -/
def execUnitStart (site : Fin 128) (rec_ : Fin 1024) (stage : Fin 8) (s : State) : Host.Outcome State Fault Refusal :=
  onRecord site rec_ s fun w c =>
    match c.run with
    | none => w
    | some r =>
      if c.st == .committing then (if w.commitLeave c r.eng then w.commit s.sup c else w) else w.unitStart c r stage

/-- UNIT_END (R318, R324, R326, R332): the earliest running unit of a stage ends. CORE units end by ECALL. -/
def execUnitEnd (site : Fin 128) (rec_ : Fin 1024) (stage : Fin 8) (s : State) : Host.Outcome State Fault Refusal :=
  onRecord site rec_ s fun w c =>
    match c.run with
    | none => w
    | some r =>
      match r.units.find? (fun u => u.stage == stage.val && w.unitRuns c u) with
      | none => w
      | some u =>
        if c.opcode = 2 then w.copyEnds s.sup c
        else if !c.fused then w
        else
          match c.kindOf stage with
          | 0 => (match w.fetchInput c u.mb with | .ok l => w.unitEnds c r stage u.mb l fNone 0 | .error b => w.faultCmd c b)
          | 2 => if (w.engAt site r.eng).halted.isSome then w else w.matEnds c r stage u.mb
          | 3 => w.searchEnds c r stage u.mb
          | 4 => if r.gathered.isSome then w.unitEnds c r stage u.mb [] fNone 0 else w
          | 5 => w.emitEnds s.sup c r stage u.mb
          | _ => w

/-- GATHER_OPERAND (R149, R330): the right operand of a combine node arrives. -/
def execGatherOperand (vol : Fin 64) (gid : BitVec 16) (shelf : Bool) (node level : Nat) (s : State) :
    Host.Outcome State Fault Refusal :=
  .next (s.onWafer fun w =>
    let p (m : Msg) : Bool := match m with
      | .gather v g sh n k _ => v == vol.val && g == gid.toNat && sh == shelf && n == node && k == level
      | _ => false
    match w.incoming p with
    | some (.gather _ _ _ _ _ d) =>
      let w := w.take p
      (match w.sessFor vol gid.toNat shelf with
       | none => w
       | some x =>
         let w := w.setSess { x with vals := x.vals ++ [(node + 2 ^ level, level, d)] }
         match x.vals.find? (fun y => y.1 == node && y.2.1 == level) with
         | none => w
         | some l =>
           let w := w.setSess { x with vals := (x.vals.filter (fun y => y ≠ l)) ++ [(node + 2 ^ level, level, d)] }
           Wafer.gatherClimb 16 w (vol.val, gid.toNat, shelf) node level l.2.2)
    | _ => w)

/-- TURN_REQUEST (R333): a bound command has ended its pass and needs another page. -/
def execTurnRequest (site : Fin 128) (slot : Fin 16) (s : State) : Host.Outcome State Fault Refusal :=
  .next (s.onWafer fun w =>
    let b := rotBlk site slot
    let needs := (w.bound site slot).filter (fun c => c.run.any (fun r =>
      c.st == .running && !r.inPass && !r.asked && decide (0 < r.passes) && decide (r.passes < w.rotG c)))
    match w.rotMembers slot (w.get b F.CMD_ROT_CFG.FIRST) with
    | m0 :: _ =>
      if needs.isEmpty || !w.active site then w
      else
        let w := needs.foldl (fun w c => match c.run with | some r => w.setRun c { r with asked := true } | none => w) w
        if w.flag b F.CMD_ROT_TURNS.CALLED then w else w.send (.turnReq m0 slot)
    | [] => w)

/-- TURN_CALL (R333): m_0 calls the turn at the first request, once every member has ended the last. -/
def execTurnCall (site : Fin 128) (slot : Fin 16) (s : State) : Host.Outcome State Fault Refusal :=
  .next (s.onWafer fun w =>
    let q (m : Msg) : Bool := m == .turnReq site slot
    let ms := w.rotMembers slot (w.get (rotBlk site slot) F.CMD_ROT_CFG.FIRST)
    if (w.incoming q).isNone || !w.active site ||
        ms.any (fun m => w.get (rotBlk m slot) F.CMD_ROT_CFG.STATE != 1 || w.flag (rotBlk m slot) F.CMD_ROT_TURNS.CALLED) then w
    else ({ w with net := w.net.filter (fun m => !q m) }).callTurn slot ms)

/-- PAGE_SEND (R333, R334). -/
def execPageSend (site : Fin 128) (slot : Fin 16) (s : State) : Host.Outcome State Fault Refusal :=
  .next (s.onWafer fun w => if w.active site then w.pageSend site slot else w)

/-- HALF_SWAP (R333). -/
def execHalfSwap (site : Fin 128) (slot : Fin 16) (s : State) : Host.Outcome State Fault Refusal :=
  .next (s.onWafer fun w => if w.active site then w.halfSwap site slot else w)

/-- PARTIAL_COMBINE (R332). -/
def execPartialCombine (site : Fin 128) (rec_ : Fin 1024) (s : State) : Host.Outcome State Fault Refusal :=
  onRecord site rec_ s fun w c =>
    match c.run with
    | some r =>
      if c.rot && c.st == .running && !r.inPass && r.delivered.isNone && decide (0 < w.rotG c) && decide (w.rotG c ≤ r.passes) then
        w.combinePartials c r
      else w
    | none => w

/-- HALT (R367, R368): MAT_DBG_CTL.HALT is written. -/
def execHalt (src : Src) (site : Fin 128) (engine : Fin 8) (s : State) : Host.Outcome State Fault Refusal :=
  .next (s.onWafer fun w => if w.active site then (w.siteWrite src site (0x00F0000A0020 + engine * 0x1000) 1).2 else w)

/-- RESUME (R367, R368): MAT_DBG_CTL.RESUME is written. -/
def execResume (src : Src) (site : Fin 128) (engine : Fin 8) (s : State) : Host.Outcome State Fault Refusal :=
  .next (s.onWafer fun w => if w.active site then (w.siteWrite src site (0x00F0000A0020 + engine * 0x1000) 2).2 else w)

/-- ACC_PARITY (R369): the command on the engine is aborted for replay. -/
def execAccParity (site : Fin 128) (engine : Fin 8) (s : State) : Host.Outcome State Fault Refusal :=
  .next (s.onWafer fun w =>
    match (w.engAt site engine).on, w.onEngine site engine with
    | some o, some c =>
      if w.active site then
        (w.latch (matBlk site engine) F.MAT_EVT.PARITY).faultCmd c { code := 0x167, detail := o.stage, replay := true }
      else w
    | _, _ => w)

end Sys2Proof.Machine
end

