-- ==== Sys2Proof/Machine/Cores.lean ====
section
/-! DEFINITION. The general cores (R419–R448): units of CORE stages, the RISC-V instructions with their traps and CSRs, the
VNX instructions, and the responses that requesters take (R217, R234, R262, R266). -/

namespace Sys2Proof.Machine

namespace Core

def getX (c : Core) (r : Nat) : Word := if r = 0 then 0 else Tab.look (fun _ => 0) c.x r
def setX (c : Core) (r : Nat) (v : Word) : Core := if r = 0 then c else { c with x := Tab.put (fun _ => 0) c.x r v }
def getF (c : Core) (r : Nat) : Word := Tab.look (fun _ => 0) c.f r
def setF (c : Core) (r : Nat) (v : Word) : Core := { c with f := Tab.put (fun _ => 0) c.f r v }
def getCsr (c : Core) (n : Nat) : Word := Tab.look (fun _ => 0) c.csr n
def setCsr (c : Core) (n : Nat) (v : Word) : Core := { c with csr := Tab.put (fun _ => 0) c.csr n v }
def setCsrField (c : Core) (n lo wd x : Nat) : Core := c.setCsr n (putF (c.getCsr n) lo wd x)
/-- Accrue fflags (R425). -/
def accrue (c : Core) (fl : Nat) : Core := c.setCsr 1 (c.getCsr 1 ||| BitVec.ofNat 64 fl)
/-- The instruction is complete. -/
def step (c : Core) (len : Nat) : Core := { c with pc := c.pc + BitVec.ofNat 64 len, retired := c.retired + 1 }

end Core

/-! ### CSRs (R426, Table COR-2; the M-mode CSRs are the family's, PRESUMED, log entry 50) -/

/-- CSRs that hold what is written to them. -/
def csrPlain (n : Nat) : Bool :=
  [0x304, 0x305, 0x306, 0x30A, 0x320, 0x340, 0x341, 0x342, 0x343, 0x344, 0x3A0, 0x3A2].contains n || (0x3B0 ≤ n && n ≤ 0x3BF)
/-- CSRs that read 0. -/
def csrZero (n : Nat) : Bool := (0x323 ≤ n && n ≤ 0x33F) || (0xB03 ≤ n && n ≤ 0xB1F) || n == 0xF15
/-- CSRs open to U-mode (R426). -/
def csrUser (n : Nat) : Bool := [1, 2, 3, 0xC00, 0xC01, 0xC02, 0x800, 0x801, 0x802, 0x803, 0xCC0].contains n

/-- MISA of RV64 IMAFDC with U. -/
def misa : Word := BitVec.ofNat 64 (2 * 2 ^ 62 + 2 ^ 20 + 2 ^ 12 + 2 ^ 8 + 2 ^ 5 + 2 ^ 3 + 2 ^ 2 + 1)

namespace Wafer

/-- The command whose unit a core runs. -/
def unitCmd (w : Wafer) (site : Nat) (c : Core) : Option Cmd := c.unit.bind (fun u => w.cmd? site u.1)
/-- Whose authority a core's accesses carry: the unit's volume in U-mode, Unhal's in M-mode. -/
def coreSrc (w : Wafer) (site : Nat) (c : Core) : Src :=
  if c.mmode then .unhal else match w.unitCmd site c with | some d => volSrc d.vol | none => volSrc 0
def coreVol (w : Wafer) (site : Nat) (c : Core) : Nat :=
  if c.mmode then 0 else match w.unitCmd site c with | some d => d.vol | none => 0

/-- Addresses of a core's local memory and of a cluster's shared memory (R420). -/
def localAt (w : Wafer) (site k o : Nat) : Nat := w.ownAddr (dieAddr site (0x005000000000 + k * 0x10000 + o))
def sharedAt (w : Wafer) (site cl o : Nat) : Nat := w.ownAddr (dieAddr site (0x004000000000 + cl * 0x200000 + o))

/-- The value of a CSR; none: no such CSR. -/
def csrRead (w : Wafer) (site k : Nat) (c : Core) (n : Nat) : Option (Word × Wafer) :=
  let f := w.fresh
  match n with
  | 3 => some (c.getCsr 1 &&& 31 ||| (c.getCsr 2 &&& 7) <<< 5, w)
  | 0xC00 | 0xB00 => some f
  | 0xC01 => some (BitVec.ofNat 64 (w.refcount site), w)
  | 0xC02 | 0xB02 => some (BitVec.ofNat 64 c.retired, w)
  | 0xCC0 => some (BitVec.ofNat 64 (site + w.col.wafer * 2 ^ 7 + k / 8 * 2 ^ 11 + k % 8 * 2 ^ 15 + w.coreVol site c * 2 ^ 18), w)
  | 0x300 => some (c.getCsr 0x300 ||| BitVec.ofNat 64 (2 ^ 63 + 2 * 2 ^ 32 + 3 * 2 ^ 13), w)
  | 0x301 => some (misa, w)
  | 0xF11 | 0xF12 | 0xF13 => some (Config.freeOf 13 (BitVec.ofNat 64 n) 0, w)
  | 0xF14 => some (Config.freeOf 14 (BitVec.ofNat 64 site) (BitVec.ofNat 64 k), w)
  | _ =>
    if csrPlain n || n = 1 || n = 2 || (0x800 ≤ n && n ≤ 0x803) then some (c.getCsr n, w)
    else if csrZero n then some (0, w) else none

end Wafer

/-- A CSR after a write. -/
def csrWrite (c : Core) (n : Nat) (v : Word) : Core :=
  match n with
  | 1 => c.setCsr 1 (v &&& 31)
  | 2 => c.setCsr 2 (v &&& 7)
  | 3 => (c.setCsr 1 (v &&& 31)).setCsr 2 ((v >>> 5) &&& 7)
  | 0x300 => c.setCsr n (putF (v &&& 0x220088) 11 2 (if getF v 11 2 = 3 then 3 else 0))
  | 0x341 => c.setCsr n (v &&& ~~~1)
  | 0x801 | 0x803 => c.setCsr n (v &&& 0xFFFFFFFF)
  | 0x802 => c.setCsr n (v &&& ~~~63)
  | 0xB02 => { c with retired := v.toNat }
  | _ => if csrPlain n || n = 0x800 then c.setCsr n v else c

/-! ### Traps (R427, R429, R436) -/

/-- Entry to M-mode: cause, pc and value are saved, the mode and interrupt enable stacked, pc goes to mtvec. -/
def enterTrap (c : Core) (cause : Nat) (tval : Word) : Core :=
  let c := ((c.setCsr 0x341 c.pc).setCsr 0x342 (BitVec.ofNat 64 cause)).setCsr 0x343 tval
  let st := c.getCsr 0x300
  let st := putF (putF (putF st 7 1 (getF st 3 1)) 3 1 0) 11 2 (if c.mmode then 3 else 0)
  { c.setCsr 0x300 st with mmode := true, pc := c.getCsr 0x305 &&& ~~~3 }

namespace State

def coreAt (s : State) (site k : Nat) : Core := s.waf.coreAt site k
def setCore (s : State) (site k : Nat) (c : Core) : State := s.onWafer (fun w => w.setCore site k c)

/-- A trap. One of a unit is recorded, ends the unit and faults its command (R429, R436, R448). -/
def coreTrap (s : State) (site k : Nat) (c : Core) (cause : Nat) (tval : Word) : State :=
  (s.setCore site k (enterTrap c cause tval)).onWafer fun w =>
    match c.unit, w.unitCmd site c with
    | some u, some d =>
      if c.mmode then w
      else
        let b := corBlk site
        let w := (w.latch b F.COR_EVT.TRAP).bump (clusterBlk site (k / 8)) F.COR_CL_LOADS.TRAPS
        let w := if w.flag b F.COR_LAST_TRAP.VALID then w
          else (w.setReg (b + 8) (BitVec.ofNat 64 (1 + cause % 256 * 2 + k * 2 ^ 9 + d.vol * 2 ^ 16))).setReg (b + 16) tval
        w.faultCmd d { code := 0x141, detail := u.2.1 + cause % 256 * 2 ^ 8 + k % 8 * 2 ^ 16 + k / 8 * 2 ^ 20 + tval.toNat % 2 ^ 32 * 2 ^ 32,
                       replay := true }
    | _, _ => w

/-- The core completes an instruction. -/
def coreNext (s : State) (site k : Nat) (c : Core) (len : Nat) : State := s.setCore site k (c.step len)

end State

/-! ### Access (R420, R424, R428, Table COR-3) -/

/-- Fields of the program block (Table COR-5). -/
def bCode (p : List Byte) : Nat := leAt p 0 8
def bCodeBytes (p : List Byte) : Nat := leAt p 8 4
def bEntry (p : List Byte) : Nat := leAt p 12 4
def bLocal (p : List Byte) : Nat := leAt p 16 4
def bReadAddr (p : List Byte) (r : Nat) : Nat := leAt p (32 + 16 * r) 8
def bReadBytes (p : List Byte) (r : Nat) : Nat := leAt p (40 + 16 * r) 8

namespace Wafer

/-- [a, a + n) lies in one region open to the unit, with the right asked. -/
def unitMay (w : Wafer) (site k : Nat) (c : Core) (a n : Nat) (write : Bool) : Bool :=
  match c.unit, w.unitCmd site c with
  | some u, some d =>
    let inside (lo len : Nat) : Bool := decide (lo ≤ a) && decide (a + n ≤ lo + len)
    let p := c.block
    let s := u.2.1
    (!write && inside (w.localAt site k 0) (bCodeBytes p)) || inside (w.localAt site k (bCodeBytes p)) (bLocal p) ||
    (!write && inside c.inBuf (pow2 (d.mbRecords * d.inBytes s))) || inside c.outSlot (pow2 (d.mbRecords * sgOut (d.stage s))) ||
    inside (w.scratchAt d) d.scratchBytes ||
    (!write && (List.range 4).any (fun r => 0 < bReadBytes p r &&
      (match w.deref (w.ctxOf d s) (bReadAddr p r) with | .ok x => inside x (bReadBytes p r) | .error _ => false)))
  | _, _ => false

/-- Home and line of an access that uses the site's remote-line cache (R222). -/
def cachedLine (w : Wafer) (site a : Nat) : Option (Nat × Nat) :=
  if adRegion a == 0 && adWafer a == w.col.wafer && adDie a < 128 && adDie a != site && adOff a < 2 ^ 28 &&
      w.flag (memBlk site) F.MEM_CFG.RLC_EN then some (adDie a, adOff a / 128) else none

/-- The cache already asks for a line, or still gives it back. -/
def lineBusy (w : Wafer) (site h l : Nat) : Bool :=
  let asks (r : HomeReq) : Bool := r == .getS site || r == .getE site
  w.net.any (fun m => match m with | .coh _ c h' l' _ => c == site && h' == h && l' == l | _ => false) ||
  (match w.txAt h l with | some t => asks t.req || t.queue.any asks | none => false) || (w.wbackAt site h l).isSome

end Wafer

/-- What an access of a core comes to: done with its data, held until its line arrives, an access fault, or a buddy run's
loss (R517). -/
inductive CoreMem where
  | done (d : List Byte) (s : State)
  | held (s : State)
  | denied (s : State)
  | lost (s : State)

/-- The memory status of a core's access is recorded (R234). -/
def coreFault (s : State) (site k : Nat) (c : Core) (st a : Nat) : CoreMem :=
  .denied (s.onWafer (fun w => w.memFault site k (w.coreVol site c) st a))

/-- The address a core's access goes to in a buddy run. -/
def coreMap (w : Wafer) (site : Nat) (c : Core) (a n : Nat) : Option Nat :=
  match c.unit, w.unitCmd site c with
  | some u, some d =>
    if c.mmode then some a else (match w.mapRead (w.ctxOf d u.2.1) a n with | .ok x => some x | .error _ => none)
  | _, _ => some a

/-- A read of n bytes by a core. -/
def coreLoad (s : State) (site k : Nat) (c : Core) (a n : Nat) : CoreMem :=
  let w := s.waf
  let src := w.coreSrc site c
  if !c.mmode && !w.unitMay site k c a n false then .denied s
  else
    match coreMap w site c a n with
    | none => .lost s
    | some x =>
      match (if x = a then w.cachedLine site a else none) with
      | some (h, l) =>
        let st := w.readStatus src a n
        if st ≠ stOk then coreFault s site k c st a
        else
          (match w.lineAt site h l with
           | some y => .done ((y.data.drop (a % 128)).take n) s
           | none => if w.lineBusy site h l then .held s else .held (s.onWafer (fun w => w.sendCoh .getS site h l none)))
      | none =>
        let r := w.busRead s.sup (if x = a then src else .unhal) x n
        let s := s.onWafer (fun _ => r.2.2)
        if r.1 = stOk then .done r.2.1 s else coreFault s site k c r.1 a

/-- A write by a core. Its own reservation stands. -/
def coreStore (s : State) (site k : Nat) (c : Core) (a : Nat) (d : List Byte) : CoreMem :=
  let w := s.waf
  let src := w.coreSrc site c
  if !c.mmode && !w.unitMay site k c a d.length true then .denied s
  else if coreMap w site c a d.length ≠ some a then .lost s
  else
    match w.cachedLine site a with
    | some (h, l) =>
      let st := w.writeStatus src a d.length
      if st ≠ stOk then coreFault s site k c st a
      else
        (match w.lineAt site h l with
         | some y =>
           if y.excl then
             .done [] (s.onWafer (fun w => (w.setLine site h l { y with dirty := true, data := patch y.data (a % 128) d }).twinWrite
               (dieAddr h (adOff a)) d))
           else if w.lineBusy site h l then .held s else .held (s.onWafer (fun w => w.sendCoh .getE site h l none))
         | none => if w.lineBusy site h l then .held s else .held (s.onWafer (fun w => w.sendCoh .getE site h l none)))
    | none =>
      let r := s.busWrite src a d
      if r.1 = stOk then .done [] (r.2.setCore site k { r.2.coreAt site k with resv := c.resv }) else coreFault r.2 site k c r.1 a

/-- Go on after an access: a held one leaves the instruction to be tried again, a denied one traps (R429). -/
def afterMem (m : CoreMem) (site k : Nat) (c : Core) (cause a : Nat) (f : List Byte → State → State) : State :=
  match m with
  | .done d s => f d s
  | .held s => s
  | .denied s => s.coreTrap site k c cause (BitVec.ofNat 64 a)
  | .lost s => s.onWafer (fun w => match w.unitCmd site c with
      | some d => w.faultCmd d { code := 0x164, detail := a, replay := false }
      | none => w)

/-! ### Fetch and rows (R420, Table COR-7) -/

/-- The raw word, the 32-bit instruction it stands for (0: none) and the length at a core's pc; or mcause and mtval. -/
def fetchInstr (w : Wafer) (site k : Nat) (c : Core) : Except (Nat × Word) (Nat × Nat × Nat) :=
  let may (a : Nat) : Bool :=
    let base := w.localAt site k 0
    let top := if c.mmode then 0x10000 else if c.unit.isSome then bCodeBytes c.block else 0
    decide (base ≤ a) && decide (a + 2 ≤ base + top) && w.readStatus .unhal a 2 == stOk
  let a := c.pc.toNat
  if !may a then .error (1, c.pc)
  else
    let lo := fromLE (w.load a 2)
    if lo % 4 ≠ 3 then .ok (lo, (expandC lo).getD 0, 2)
    else if !may (a + 2) then .error (1, c.pc + 2)
    else let x := lo + fromLE (w.load (a + 2) 2) * 65536; .ok (x, x, 4)

/-- The rows of the command table a core instruction can be. -/
inductive CoreRow where
  | ecall | amo | lr | sc | bin | nstep | folEntry | folHeld | folRef | qpush | qpop | syncadd | syncwait
  | lveQuery | lveRequest | lveRenew | lveReturn | other
deriving DecidableEq, Repr

/-- The row an instruction belongs to; encodings that R438 or R424 rules out are `other`, which traps on them. -/
def coreRow (x : Nat) : CoreRow :=
  let f3 := iF3 x
  let f7 := iF7 x
  let z1 := iRs1 x == 0
  let z2 := iRs2 x == 0
  match iOp x with
  | 0x73 => if x = 0x73 then .ecall else .other
  | 0x2F =>
    if f3 ≠ 2 && f3 ≠ 3 then .other
    else (match ib x 31 27 with
      | 2 => if z2 then .lr else .other
      | 3 => .sc
      | 0 | 1 | 4 | 8 | 0xC | 0x10 | 0x14 | 0x18 | 0x1C => .amo
      | _ => .other)
  | 0x0B =>
    (match f3, f7 with
     | 0, 0 => .bin
     | 1, 0 => .nstep
     | 2, 0 => if z2 then .folEntry else .other
     | 2, 1 => if z2 then .folHeld else .other
     | 2, 2 => if z1 && z2 then .folRef else .other
     | _, _ => .other)
  | 0x2B =>
    (match f3 with
     | 0 => if 3 ≤ f7 && f7 ≤ 8 then .qpush else .other
     | 1 => if (f7 = 3 && z2) || (4 ≤ f7 && f7 ≤ 8) then .qpop else .other
     | 2 => if f7 = 0 then .syncadd else .other
     | 3 => if f7 = 0 then .syncwait else .other
     | 4 =>
       (match f7 with
        | 0 => if z1 && z2 then .lveQuery else .other
        | 1 => .lveRequest
        | 2 => .lveRenew
        | 3 => if z2 then .lveReturn else .other
        | _ => .other)
     | _ => .other)
  | _ => .other

/-- A core executes the instruction at its pc, if it is of this row. A core that waits or drains takes nothing. -/
def coreDo (site k : Nat) (row : CoreRow) (s : State) (f : State → Core → Nat → Nat → Nat → State) :
    Host.Outcome State Fault Refusal :=
  let c := s.coreAt site k
  .next (if !s.waf.active site || c.wait.isSome || c.draining then s
  else
    match fetchInstr s.waf site k c with
    | .error e => if row = .other then s.coreTrap site k c e.1 e.2 else s
    | .ok (raw, x, len) => if coreRow x = row then f s c raw x len else s)

/-! ### Instructions without a row of their own -/

/-- Zicsr (0x73, funct3 1–3 and 5–7). -/
def coreCsr (s : State) (site k : Nat) (c : Core) (raw x len : Nat) : State :=
  let n := ib x 31 20
  let v := if iF3 x < 4 then c.getX (iRs1 x) else BitVec.ofNat 64 (iRs1 x)
  let op := iF3 x % 4
  let writes := op = 1 || iRs1 x ≠ 0
  let ill := s.coreTrap site k c 2 (BitVec.ofNat 64 raw)
  if (!c.mmode && !csrUser n) || (writes && n / 1024 = 3) then ill
  else
    match s.waf.csrRead site k c n with
    | none => ill
    | some (old, w) =>
      let new := if op = 1 then v else if op = 2 then old ||| v else old &&& ~~~v
      let c := if writes then csrWrite c n new else c
      (s.onWafer (fun _ => w)).coreNext site k (c.setX (iRd x) old) len

/-- SYSTEM, CSR instructions apart. -/
def coreSystem (s : State) (site k : Nat) (c : Core) (raw x len : Nat) : State :=
  let ill := s.coreTrap site k c 2 (BitVec.ofNat 64 raw)
  if iF3 x % 4 ≠ 0 then coreCsr s site k c raw x len
  else if x = 0x00100073 then s.coreTrap site k c 3 c.pc
  else if !c.mmode then ill
  else if x = 0x10500073 then s.coreNext site k c len
  else if x = 0x30200073 then
    let st := c.getCsr 0x300
    let c' := c.setCsr 0x300 (putF (putF (putF st 3 1 (getF st 7 1)) 7 1 1) 11 2 0)
    s.setCore site k { c' with mmode := getF st 11 2 == 3, pc := c.getCsr 0x341, retired := c.retired + 1 }
  else ill

/-- The effective rounding mode; none: a reserved one. -/
def effRm (c : Core) (f : Nat) : Option Nat :=
  let m := if f = 7 then (c.getCsr 2).toNat % 8 else f
  if m ≤ 4 then some m else none

/-- OP-FP and the fused multiply-adds. -/
def coreFp (s : State) (site k : Nat) (c : Core) (raw x len : Nat) : State :=
  let ill := s.coreTrap site k c 2 (BitVec.ofNat 64 raw)
  let fmt := ib x 26 25
  let rm := effRm c (iF3 x)
  if iOp x = 0x53 then
    if usesRm x && rm.isNone then ill
    else
      (match opFp x (rm.getD 0) (c.getF (iRs1 x)) (c.getF (iRs2 x)) (c.getX (iRs1 x)) with
       | .f v fl => s.coreNext site k ((c.setF (iRd x) v).accrue fl) len
       | .x v fl => s.coreNext site k ((c.setX (iRd x) v).accrue fl) len
       | .bad => ill)
  else if 2 ≤ fmt || rm.isNone then ill
  else
    let cd := fpCode fmt
    let get (r : Nat) : Num := decodeNum cd false (fpRead fmt (c.getF r))
    let p := get (iRs1 x)
    let z := get (iRs3 x)
    let neg := iOp x == 0x4B || iOp x == 0x4F
    let sub := iOp x == 0x47 || iOp x == 0x4F
    let r := fpFma cd (rm.getD 0) (if neg then numNeg p else p) (get (iRs2 x)) (if sub then numNeg z else z)
    s.coreNext site k ((c.setF (iRd x) (fpBox fmt r.1)).accrue r.2) len

/-- Loads (0x03, 0x07): size by funct3; misaligned before access (R424). -/
def coreLoadOp (s : State) (site k : Nat) (c : Core) (x len : Nat) : State :=
  let f3 := iF3 x
  let n := 2 ^ (f3 % 4)
  let a := (c.getX (iRs1 x) + immI x).toNat
  if a % n ≠ 0 then s.coreTrap site k c 4 (BitVec.ofNat 64 a)
  else
    afterMem (coreLoad s site k c a n) site k c 5 a (fun d s =>
      let v := fromLE d
      let c' := if iOp x = 0x07 then c.setF (iRd x) (if n = 4 then fpBox 0 v else BitVec.ofNat 64 v)
        else c.setX (iRd x) (if f3 < 4 then sx (8 * n) v else BitVec.ofNat 64 v)
      s.coreNext site k c' len)

/-- Stores (0x23, 0x27). -/
def coreStoreOp (s : State) (site k : Nat) (c : Core) (x len : Nat) : State :=
  let n := 2 ^ iF3 x
  let a := (c.getX (iRs1 x) + immS x).toNat
  let v := if iOp x = 0x27 then c.getF (iRs2 x) else c.getX (iRs2 x)
  if a % n ≠ 0 then s.coreTrap site k c 6 (BitVec.ofNat 64 a)
  else afterMem (coreStore s site k c a (toLE n v.toNat)) site k c 7 a (fun _ s =>
    s.coreNext site k { c with resv := (s.coreAt site k).resv } len)

/-- Every RISC-V instruction that has no row of its own (R423); anything else is illegal. -/
def coreGeneral (s : State) (site k : Nat) (c : Core) (raw x len : Nat) : State :=
  let ill := s.coreTrap site k c 2 (BitVec.ofNat 64 raw)
  let a := c.getX (iRs1 x)
  let b := c.getX (iRs2 x)
  let wr (v : Option Word) : State := match v with | some v => s.coreNext site k (c.setX (iRd x) v) len | none => ill
  let jump (t : Word) (c : Core) : State := s.setCore site k { c with pc := t, retired := c.retired + 1 }
  let link := c.pc + BitVec.ofNat 64 len
  match iOp x with
  | 0x37 => wr (some (immU x))
  | 0x17 => wr (some (c.pc + immU x))
  | 0x6F => jump (c.pc + immJ x) (c.setX (iRd x) link)
  | 0x67 => if iF3 x = 0 then jump ((a + immI x) &&& ~~~1) (c.setX (iRd x) link) else ill
  | 0x63 =>
    (match branchTaken (iF3 x) a b with
     | some t => if t then jump (c.pc + immB x) c else s.coreNext site k c len
     | none => ill)
  | 0x03 => if iF3 x = 7 then ill else coreLoadOp s site k c x len
  | 0x07 => if iF3 x = 2 || iF3 x = 3 then coreLoadOp s site k c x len else ill
  | 0x23 => if iF3 x ≤ 3 then coreStoreOp s site k c x len else ill
  | 0x27 => if iF3 x = 2 || iF3 x = 3 then coreStoreOp s site k c x len else ill
  | 0x13 => wr (opImm x a)
  | 0x1B => wr (opImm32 x a)
  | 0x33 => wr (opRR (iF7 x) (iF3 x) a b)
  | 0x3B => wr (opRR32 (iF7 x) (iF3 x) (iRs2 x) a b)
  | 0x0F => if iF3 x ≤ 1 then s.coreNext site k c len else ill
  | 0x73 => coreSystem s site k c raw x len
  | 0x53 | 0x43 | 0x47 | 0x4B | 0x4F => coreFp s site k c raw x len
  | _ => ill

/-! ### Atomics (R215, R424) -/

/-- The ATOP of an AMO's funct5. -/
def amoOp (f5 : Nat) : Nat :=
  match f5 with | 1 => 0 | 0 => 2 | 0xC => 3 | 8 => 4 | 4 => 5 | 0x10 => 6 | 0x14 => 7 | 0x18 => 8 | _ => 9

def coreAmo (s : State) (site k : Nat) (c : Core) (_raw x len : Nat) : State :=
  let n := 2 ^ iF3 x
  let a := (c.getX (iRs1 x)).toNat
  if a % n ≠ 0 then s.coreTrap site k c 6 (BitVec.ofNat 64 a)
  else if !c.mmode && !s.waf.unitMay site k c a n true then s.coreTrap site k c 7 (BitVec.ofNat 64 a)
  else
    let r := s.waf.busAtomic (s.waf.coreSrc site c) a n (amoOp (ib x 31 27)) (c.getX (iRs2 x)) 0
    let s := s.onWafer (fun _ => r.2.2)
    if r.1 = stOk then s.coreNext site k ((c.setX (iRd x) (sx (8 * n) r.2.1))) len
    else afterMem (coreFault s site k c r.1 a) site k c 7 a (fun _ s => s)

/-- LR and SC are taken on the core's own local memory and its own cluster's shared memory only (R424). -/
def resvPlace (w : Wafer) (site k a n : Nat) : Bool :=
  let inside (lo len : Nat) : Bool := decide (lo ≤ a) && decide (a + n ≤ lo + len)
  inside (w.localAt site k 0) 0x10000 || inside (w.sharedAt site (k / 8) 0) 0x200000

def coreLr (s : State) (site k : Nat) (c : Core) (_raw x len : Nat) : State :=
  let n := 2 ^ iF3 x
  let a := (c.getX (iRs1 x)).toNat
  if a % n ≠ 0 then s.coreTrap site k c 4 (BitVec.ofNat 64 a)
  else if !resvPlace s.waf site k a n then s.coreTrap site k c 7 (BitVec.ofNat 64 a)
  else
    afterMem (coreLoad s site k c a n) site k c 5 a (fun d s =>
      s.coreNext site k { c.setX (iRd x) (sx (8 * n) (fromLE d)) with resv := some (a / 8 * 8 % 2 ^ 56) } len)

def coreSc (s : State) (site k : Nat) (c : Core) (_raw x len : Nat) : State :=
  let n := 2 ^ iF3 x
  let a := (c.getX (iRs1 x)).toNat
  let c' := { c with resv := none }
  if a % n ≠ 0 then s.coreTrap site k c 6 (BitVec.ofNat 64 a)
  else if !resvPlace s.waf site k a n then s.coreTrap site k c 7 (BitVec.ofNat 64 a)
  else if c.resv ≠ some (a / 8 * 8 % 2 ^ 56) then
    (if !c.mmode && !s.waf.unitMay site k c a n true then s.coreTrap site k c 7 (BitVec.ofNat 64 a)
     else s.coreNext site k (c'.setX (iRd x) 1) len)
  else
    afterMem (coreStore s site k c a (toLE n (c.getX (iRs2 x)).toNat)) site k c 7 a (fun _ s =>
      s.coreNext site k (c'.setX (iRd x) 0) len)

/-! ### BIN, NSTEP, FOLRD (R440, R441, R446) -/

/-- Edges are read as the binary search meets them. -/
def binSearch (site k : Nat) (c : Core) (base wb key : Nat) (done : Nat → State → State) : Nat → Nat → Nat → State → State
  | 0, lo, _, s => done lo s
  | f + 1, lo, hi, s =>
    if hi ≤ lo then done lo s
    else
      let mid := (lo + hi) / 2
      let a := base + 8 + wb * mid
      afterMem (coreLoad s site k c a wb) site k c 5 a (fun d s =>
        if fromLE d ≤ key then binSearch site k c base wb key done f (mid + 1) hi s
        else binSearch site k c base wb key done f lo mid s)

def coreBin (s : State) (site k : Nat) (c : Core) (raw x len : Nat) : State :=
  let t := (c.getX (iRs2 x)).toNat
  let bad (s : State) : State := s.coreTrap site k c 25 (BitVec.ofNat 64 raw)
  if t % 8 ≠ 0 then bad s
  else
    afterMem (coreLoad s site k c t 8) site k c 5 t (fun d s =>
      let n := leAt d 0 2
      let fmt := leAt d 2 1
      if n = 0 || 4096 < n || !(fmtKey fmt || (2 ≤ fmt && fmt ≤ 0x0C)) || leAt d 5 3 ≠ 0 then bad s
      else
        let v := (c.getX (iRs1 x)).toNat % 2 ^ fmtWidth fmt
        let key := toKey fmt false v
        let c' := if key.2 &&& fNaN ≠ 0 then c.setCsr 0x800 (c.getCsr 0x800 ||| 0x100) else c
        let fin (r : Nat) (s : State) : State := s.coreNext site k (c'.setX (iRd x) (BitVec.ofNat 64 r)) len
        if key.1 = 0 then fin (leAt d 3 2) s
        else binSearch site k c t (if fmtWidth fmt = 32 then 4 else 2) key.1 fin 13 0 n s)

def coreNstep (s : State) (site k : Nat) (c : Core) (raw x len : Nat) : State :=
  let i := (c.getX (iRs1 x)).toNat
  let a := ((c.getCsr 0x802).toNat + 16 * i) % 2 ^ 64
  let bad (s : State) : State := s.coreTrap site k c 24 (BitVec.ofNat 64 raw)
  if (c.getCsr 0x803).toNat ≤ i then bad s
  else
    afterMem (coreLoad s site k c a 16) site k c 5 a (fun d s =>
      let e := leAt d 0 8
      let wide := Nat.testBit e 45
      if e / 2 ^ 46 ≠ 0 || nThr e = 0 || (!wide && 65536 ≤ nThr e) then bad s
      else
        let wb := if wide then 4 else 2
        let ka := ((c.getX (iRs2 x)).toNat + wb * nFeature e) % 2 ^ 64
        afterMem (coreLoad s site k c ka wb) site k c 5 ka (fun kd s =>
          let child := if nodePred (e % 2 ^ 45) (fromLE kd) then leAt d 8 4 else leAt d 12 4
          s.coreNext site k (c.setX (iRd x) (sx 32 child)) len))

/-! ### Queue and sync operations (R439, R442–R444) -/

/-- A ring or sync reference: ID and wafer (R442). -/
def vnxRef (v : Word) : Option (Nat × Nat) := if v.toNat / 2 ^ 22 = 0 then some (v.toNat % 2 ^ 18, v.toNat / 2 ^ 18 % 16) else none

/-- The operation leaves the core, which waits for its answer. Another wafer of the shelf answers outside the machine, with
values that are free; a wafer not in the shelf answers FENCED_TARGET. -/
def coreSend (s : State) (site k : Nat) (c : Core) (x : Nat) (wafer : Nat) (wait : Bool) (key : Nat) (cmd : Requester → Nat → Instr)
    (entry : Nat) : State :=
  let w := s.waf
  let who := Wafer.asker site k
  let tag := w.freeTag who
  let o : Out := { w.queOut who tag (w.coreSrc site c) (keyDie key) (key + wafer * 2 ^ 56) wait with need := some (cmd who tag) }
  let s := s.setCore site k { c with wait := some (x, tag) }
  s.onWafer fun w =>
    if wafer = w.col.wafer then { w with out := w.out ++ [o] }
    else
      let w := { w with out := w.out ++ [{ o with need := none }] }
      if !w.col.shelf.contains wafer then
        (if wait then w.queRsp who tag stFenced 0 0 [] else w.queRsp who tag stFenced 0 0 [])
      else
        let f := w.fresh
        let g := f.2.fresh
        if wait then g.2.send (.wake who tag (if f.1.toNat % 2 = 0 then qDone else qPoisoned) g.1)
        else g.2.queRsp who tag stOk (f.1.toNat % 8) g.1 (openBytes 15 w.free entry)

/-- The address of a memory form: aligned, in own local or own shared memory, in a region the unit may use (R442). -/
def vnxPlace (w : Wafer) (site k : Nat) (c : Core) (a n : Nat) (write : Bool) : Bool :=
  a % n == 0 && resvPlace w site k a n && (c.mmode || w.unitMay site k c a n write)

def ringKey (i : Nat) : Nat := dieAddr (i / 2048) (0x003000020000 + 8 * (i % 2048))

def coreQpush (s : State) (site k : Nat) (c : Core) (_raw x _len : Nat) : State :=
  match vnxRef (c.getX (iRs1 x)) with
  | none => s.coreTrap site k c 26 (c.getX (iRs1 x))
  | some (id, wafer) =>
    let n := 2 ^ iF7 x
    let v := c.getX (iRs2 x)
    let go (d : List Byte) (s : State) : State :=
      coreSend s site k c x wafer false (ringKey id) (fun who tag =>
        .qpushOperation who (BitVec.ofNat 12 tag) (s.waf.coreSrc site c) (Fin.ofNat 128 (id / 2048)) (Fin.ofNat 2048 id) d) n
    if n = 8 then go (toLE 8 v.toNat) s
    else if !vnxPlace s.waf site k c v.toNat n false then s.coreTrap site k c 5 v
    else afterMem (coreLoad s site k c v.toNat n) site k c 5 v.toNat go

def coreQpop (s : State) (site k : Nat) (c : Core) (_raw x _len : Nat) : State :=
  match vnxRef (c.getX (iRs1 x)) with
  | none => s.coreTrap site k c 26 (c.getX (iRs1 x))
  | some (id, wafer) =>
    let n := 2 ^ iF7 x
    let v := c.getX (iRs2 x)
    if n ≠ 8 && !vnxPlace s.waf site k c v.toNat n true then s.coreTrap site k c 7 v
    else
      coreSend s site k c x wafer false (ringKey id) (fun who tag =>
        .qpopOperation who (BitVec.ofNat 12 tag) (s.waf.coreSrc site c) (Fin.ofNat 128 (id / 2048)) (Fin.ofNat 2048 id) (iF7 x)) n

def coreSyncadd (s : State) (site k : Nat) (c : Core) (_raw x _len : Nat) : State :=
  match vnxRef (c.getX (iRs1 x)) with
  | none => s.coreTrap site k c 26 (c.getX (iRs1 x))
  | some (id, wafer) =>
    coreSend s site k c x wafer false (syncKey (id / 2048) (id % 2048)) (fun who tag =>
      .syncAdd who (BitVec.ofNat 12 tag) (s.waf.coreSrc site c) (Fin.ofNat 128 (id / 2048)) (Fin.ofNat 2048 id) (c.getX (iRs2 x))) 0

/-- The effective WAIT_US (R439). -/
def waitUs (w : Wafer) (site : Nat) (c : Core) : Nat :=
  let v := (c.getCsr 0x801).toNat
  let wd := w.get (cmdBlk site) F.CMD_CFG.STAGE_WD_US
  if c.mmode then v else if v = 0 then wd else min v wd

def coreSyncwait (s : State) (site k : Nat) (c : Core) (_raw x _len : Nat) : State :=
  match vnxRef (c.getX (iRs1 x)) with
  | none => s.coreTrap site k c 26 (c.getX (iRs1 x))
  | some (id, wafer) =>
    coreSend s site k c x wafer true (syncKey (id / 2048) (id % 2048)) (fun who tag =>
      .syncWait who (BitVec.ofNat 12 tag) (s.waf.coreSrc site c) (Fin.ofNat 128 (id / 2048)) (Fin.ofNat 2048 id) (c.getX (iRs2 x))
        (BitVec.ofNat 32 (waitUs s.waf site c))) 0

/-- The answer to a core's operation (R443): QRESULT, rd, the popped entry; an access status is an access fault at the
target. -/
def coreAnswer (s : State) (site k : Nat) (x : Nat) (o : Out) (st res : Nat) (v : Word) (d : List Byte) : State :=
  let c := { s.coreAt site k with wait := none }
  let row := coreRow x
  let load := row = .qpop || row = .syncwait
  let res := if st = stUnsup && (row = .qpop || row = .qpush) then qWrongKind else res
  if st ≠ stOk && res ≠ qWrongKind then
    (s.onWafer (fun w => w.memFault site k o.vol st o.addr.toNat)).coreTrap site k c (if load then 5 else 7) o.addr
  else
    let c := c.setCsrField 0x800 0 3 res
    let out : Word :=
      if res = qDone then v
      else match row with
        | .syncadd => if res = qOverflow then poisonVal - 1 else if res = qPoisoned then poisonVal else 0
        | .syncwait => if res = qPoisoned then poisonVal else v
        | _ => 0
    let s := if row = .qpop && iF7 x ≠ 3 && res = qDone then s.onWafer (fun w => w.save (c.getX (iRs2 x)).toNat d) else s
    s.coreNext site k { c.setX (iRd x) out with resv := (s.coreAt site k).resv } 4

/-! ### LEAVEREQ (R445) -/

/-- LU the site steward can grant now: what the site's ceiling leaves (DEDUCED, log entry 60). -/
def coreLveQuery (s : State) (site k : Nat) (c : Core) (_raw x len : Nat) : State :=
  let w := s.waf
  let top := min w.siteMax (w.ceiling site)
  let free := min 1023 (top - w.charge site (fun _ => true) [])
  let held := min 1023 (w.luOf (fun g => g.site == site && g.vol == w.coreVol site c))
  s.coreNext site k (c.setX (iRd x) (BitVec.ofNat 64 (free + held * 2 ^ 10 + w.thermStep site * 2 ^ 20 + w.clkStep site * 2 ^ 23))) len

def leaveRes (k : Nat) : Nat := 256 + k
def granted64 (lu handle : Nat) : Word := BitVec.ofNat 64 (2 ^ 63 + lu % 1024 * 2 ^ 16 + handle)

/-- The steward's answer to a request for a resource, if it has come: the word for rd. -/
def leaveAnswer (w : Wafer) (site res : Nat) : Option (Word × Wafer) :=
  let p (m : Msg) : Bool := match m with
    | .leaveGrant s r _ _ _ => s == site && r == res
    | .leaveDenial s r _ _ _ => s == site && r == res
    | _ => false
  match w.incoming p with
  | some (.leaveGrant _ _ h _ lu) =>
    let w := (w.take p).count (lveBlk site) F.LVE_SITE_CNT.GRANTS
    let w := match w.grantOf site h with | some g => w.setGrant g { g with arrived := true } | none => w
    some (granted64 lu h, w)
  | some (.leaveDenial _ _ reason _ _) =>
    let w := ((w.take p).bump (lveBlk site) F.LVE_SITE_CNT.DENIALS).latch (lveBlk site) F.LVE_SITE_EVT.DENIED
    some (BitVec.ofNat 64 reason, w.dropLeave (fun _ => false) (fun r => r.site == site && r.res == res && r.owner.isNone))
  | _ => none

/-- LEAVEREQ in M-mode: `ask` puts the request; with no answer yet the instruction is tried again. -/
def coreLeave (s : State) (site k : Nat) (c : Core) (raw x len res : Nat) (ask : Wafer → Wafer) : State :=
  if !c.mmode then s.coreTrap site k c 2 (BitVec.ofNat 64 raw)
  else
    let waits := s.waf.lve.waits.any (fun r => r.site == site && r.res == res && r.owner.isNone)
    let w := if (leaveAnswer s.waf site res).isSome || waits then s.waf else ask s.waf
    match leaveAnswer w site res with
    | some (v, w) => (s.onWafer (fun _ => w)).coreNext site k (c.setX (iRd x) v) len
    | none => s.onWafer (fun _ => w)

def coreLveRequest (s : State) (site k : Nat) (c : Core) (raw x len : Nat) : State :=
  let v := c.getX (iRs1 x)
  coreLeave s site k c raw x len (leaveRes k) (fun w =>
    if 5 ≤ getF v 10 3 then w.sendDenial site (leaveRes k) dBad 0
    else w.askLeave site (leaveRes k) (getF v 19 2) (getF v 13 6) (getF v 0 10) (c.getX (iRs2 x)).toNat none)

def coreLveRenew (s : State) (site k : Nat) (c : Core) (raw x len : Nat) : State :=
  let h := getF (c.getX (iRs1 x)) 0 16
  match s.waf.grantOf site h with
  | none =>
    coreLeave s site k c raw x len (leaveRes k) (fun w => w.sendDenial site (leaveRes k) dBad 0)
  | some g =>
    coreLeave s site k c raw x len g.res (fun w =>
      let w := w.renewLeave g (c.getX (iRs2 x)).toNat
      match w.grantOf site h with
      | some g' => if w.incoming (fun m => match m with | .leaveDenial s r _ _ _ => s == site && r == g.res | _ => false) |>.isSome
          then w else w.send (.leaveGrant site g.res h g'.expiry g'.lu)
      | none => w)

/-- A return answers GRANTED with the handle; the LU granted is not stated: a free value. -/
def coreLveReturn (s : State) (site k : Nat) (c : Core) (raw x len : Nat) : State :=
  let h := getF (c.getX (iRs1 x)) 0 16
  if !c.mmode then s.coreTrap site k c 2 (BitVec.ofNat 64 raw)
  else
    match s.waf.grantOf site h with
    | none => s.coreNext site k (c.setX (iRd x) (BitVec.ofNat 64 dBad)) len
    | some g =>
      let f := s.waf.fresh
      (s.onWafer (fun _ => f.2.freeGrant g)).coreNext site k (c.setX (iRd x) (granted64 f.1.toNat h)) len

/-! ### Units (R430–R436) -/

/-- The program block obeys R430: fields, and places within the volume's windows. -/
def blockOk (w : Wafer) (x : Wafer.Ctx) (p : List Byte) : Bool :=
  let place (a n : Nat) : Bool :=
    match w.deref x a with
    | .ok y => x.buddy || adRegion a == 8 || (adRegion y == 2 && (Wafer.points y n).all (w.ramAllowed x.vol · 1 false)) || w.ownSram x.vol x.site y n
    | .error _ => true
  let rd (r : Nat) : Bool :=
    let n := bReadBytes p r
    let a := bReadAddr p r
    n == 0 || (64 ≤ n && n ≤ 2 ^ 40 && n == 2 ^ Nat.log2 n &&
      (match w.deref x a with
       | .ok y => y % n == 0 && (x.buddy || (Wafer.points y n).all (w.ramAllowed x.vol · 1 false))
       | .error _ => true))
  let cb := bCodeBytes p
  bCode p % 64 == 0 && 64 ≤ cb && cb ≤ 49152 && cb % 64 == 0 && bEntry p < cb && bEntry p % 2 == 0 && bLocal p % 64 == 0 &&
  cb + bLocal p ≤ 57344 && zeros p 20 32 && zeros p 96 128 && place (bCode p) cb && (List.range 4).all rd

namespace Wafer

/-- Cores of a site that run units of a stage of a command. -/
def stageCores (w : Wafer) (c : Cmd) (s : Nat) : List Core :=
  (List.range 96).filterMap (fun k =>
    let x := w.coreAt c.site k
    match x.unit with | some u => if u.1 == c.idx && u.2.1 == s then some x else none | none => none)

/-- A unit of a CORE stage starts on a core (R433, Table COR-6). -/
def coreUnit (w : Wafer) (c : Cmd) (r : Run) (s k core : Nat) : Wafer :=
  let g := c.stage s
  let x := w.ctxOf c s
  let cl := core / 8
  let bad (d : Nat) : Wafer := w.faultCmd c { code := 0x142, detail := d, replay := false }
  let at_ (a : Area) : Nat := w.sharedAt c.site cl a.off
  let mine := w.stageCores c s
  let inA := (r.areas.filter (fun a => a.stage == s && !a.out)).find? (fun a => !mine.any (fun y => y.inBuf == at_ a))
  let outA := (r.areas.filter (fun a => a.stage == s && a.out)).find? (fun a =>
    !mine.any (fun y => y.outSlot == at_ a) && !r.slots.any (fun y => y.stage == s && y.addr == at_ a))
  let place : Bool := match w.deref x (sgParam g) with
    | .ok y => x.buddy || adRegion (sgParam g) == 8 || adRegion y == 2 || w.ownSram c.vol c.site y 128
    | .error _ => true
  match inA, outA with
  | some ia, some oa =>
    if !place then bad s
    else
      match w.fetch x (sgParam g) 128, w.unitInput c r s k with
      | .error b, _ => w.faultCmd c b
      | _, .error b => w.faultCmd c b
      | .ok p, .ok input =>
        if !blockOk w x p then bad s
        else
          let old := w.coreAt c.site core
          let res := (bCode p, bCodeBytes p, c.vol)
          match (if old.code = some res then .ok [] else w.fetch x (bCode p) (bCodeBytes p)) with
          | .error b => w.faultCmd c b
          | .ok code =>
            let base := w.localAt c.site core 0
            let w := if old.code = some res then w
              else (w.save base code).bump (clusterBlk c.site cl) F.COR_CL_LOADS.LOADS
            let w := w.save (at_ ia) input
            let w := w.zero (at_ oa % 2 ^ 56) oa.size
            let w := w.zero ((base + bCodeBytes p) % 2 ^ 56) (bLocal p)
            let n (v : Nat) : Word := BitVec.ofNat 64 v
            let regs : List (Nat × Nat) :=
              [(2, base + bCodeBytes p + bLocal p), (10, at_ ia), (11, at_ oa), (12, c.mbLenAt s k), (13, k), (14, sgArgA g),
               (15, sgArgB g), (16, w.scratchAt c), (17, c.scratchBytes)]
            let old := w.coreAt c.site core
            let y : Core := { old with
              mmode := false, pc := n (base + bEntry p), x := [], f := [], resv := none, code := some res,
              unit := some (c.idx, s, k), block := p, inBuf := at_ ia, outSlot := at_ oa, wait := none }
            let y := regs.foldl (fun y e => y.setX e.1 (n e.2)) y
            let y := [1, 2, 0x800, 0x801, 0x802, 0x803].foldl (fun y i => y.setCsr i 0) y
            let u : Unit_ := { stage := s, mb := k, res := 512 + core, start := w.now }
            (w.setCore c.site core y).runTo c ({ r with units := r.units ++ [u] }.setNext s (k + 1))
  | _, _ => w

end Wafer

/-- Flags of a unit from fflags and VNXSTAT (R391, R435). -/
def coreFlags (c : Core) : Flags :=
  let f := (c.getCsr 1).toNat
  let v := c.getCsr 0x800
  let on (b : Bool) (x : Flags) : Flags := if b then x else fNone
  on (Nat.testBit f 4 || Nat.testBit f 3) fIV ||| on (Nat.testBit f 2) fOF ||| on (Nat.testBit f 1) fUF ||| on (Nat.testBit f 0) fNX |||
  on (v.getLsbD 8) fNaN ||| on (v.getLsbD 9) fSAT

/-- ECALL (R435): the end of a unit; elsewhere an environment call trap. -/
def coreEcall (s : State) (site k : Nat) (c : Core) (_raw _x _len : Nat) : State :=
  match c.unit, s.waf.unitCmd site c with
  | some u, some d =>
    if c.mmode then s.coreTrap site k c 11 0
    else
      let s := s.setCore site k { enterTrap c 8 0 with unit := none, resv := none, retired := c.retired }
      s.onWafer fun w =>
        let a0 := c.getX 10
        if a0 ≠ 0 then
          w.faultCmd d { code := 0x143, detail := u.2.1 + a0.toNat % 2 ^ 32 * 2 ^ 32, replay := false }
        else
          let n := d.mbLenAt u.2.1 u.2.2 * sgOut (d.stage u.2.1)
          let st := w.readStatus .unhal c.outSlot n
          match d.run with
          | none => w
          | some r =>
            if st ≠ stOk then w.faultCmd d (memBad st (w.faultAddr .unhal c.outSlot n false))
            else
              let w := w.setCore site k ((w.coreAt site k).setCsr 1 0)
              (w.count (clusterBlk site (k / 8)) F.COR_CL_UNITS.UNITS).unitEnds d r u.2.1 u.2.2 (w.load c.outSlot n) (coreFlags c) c.outSlot
  | _, _ => s.coreTrap site k c (if c.mmode then 11 else 8) 0

/-! ### Meanings -/

/-- CORE_UNIT_START (R321, R322, R433, R444, R447). -/
def execCoreUnitStart (site : Fin 128) (core : Fin 96) (rec_ : Fin 1024) (stage : Fin 8) (s : State) :
    Host.Outcome State Fault Refusal :=
  onRecord site rec_ s fun w c =>
    match c.run with
    | none => w
    | some r =>
      let x := w.coreAt site core
      let cl := Tab.look (fun _ => 0) r.clusters stage
      match c.readyUnit r stage with
      | none => w
      | some k =>
        if c.kindOf stage ≠ kCore || core.val = 95 || core.val / 8 ≠ cl || x.unit.isSome || x.draining || x.wait.isSome ||
            !w.unitTurn c r stage || sgCores (c.stage stage) ≤ r.running stage then w
        else w.coreUnit c r stage k core

/-- ECALL (R435). -/
def execEcall (site : Fin 128) (core : Fin 96) (s : State) : Host.Outcome State Fault Refusal :=
  coreDo site core .ecall s (fun s => coreEcall s site core)

/-- CORE_TRAP (R429): a trap of Table COR-4 strikes a unit. -/
def execCoreTrap (site : Fin 128) (core : Fin 96) (cause : BitVec 8) (tval : BitVec 64) (s : State) :
    Host.Outcome State Fault Refusal :=
  let c := s.coreAt site core
  .next (if s.waf.active site && c.unit.isSome && !c.mmode && [0, 1, 2, 3, 4, 5, 6, 7, 24, 25, 26].contains cause.toNat then
    s.coreTrap site core c cause.toNat tval
  else s)

/-- AMO (R215, R424). -/
def execAmo (site : Fin 128) (core : Fin 96) (s : State) : Host.Outcome State Fault Refusal :=
  coreDo site core .amo s (fun s => coreAmo s site core)

/-- LR (R424). -/
def execLr (site : Fin 128) (core : Fin 96) (s : State) : Host.Outcome State Fault Refusal :=
  coreDo site core .lr s (fun s => coreLr s site core)

/-- SC (R424). -/
def execSc (site : Fin 128) (core : Fin 96) (s : State) : Host.Outcome State Fault Refusal :=
  coreDo site core .sc s (fun s => coreSc s site core)

/-- BIN (R440). -/
def execBin (site : Fin 128) (core : Fin 96) (s : State) : Host.Outcome State Fault Refusal :=
  coreDo site core .bin s (fun s => coreBin s site core)

/-- NSTEP (R441). -/
def execNstep (site : Fin 128) (core : Fin 96) (s : State) : Host.Outcome State Fault Refusal :=
  coreDo site core .nstep s (fun s => coreNstep s site core)

/-- FOLRD ENTRY (R446). -/
def execFolrdEntry (site : Fin 128) (core : Fin 96) (s : State) : Host.Outcome State Fault Refusal :=
  coreDo site core .folEntry s (fun s c _ x len =>
    s.coreNext site core (c.setX (iRd x) (s.waf.reg (imgKey site (getF (c.getX (iRs1 x)) 0 8)))) len)

/-- FOLRD HELD (R446). -/
def execFolrdHeld (site : Fin 128) (core : Fin 96) (s : State) : Host.Outcome State Fault Refusal :=
  coreDo site core .folHeld s (fun s c _ x len =>
    s.coreNext site core (c.setX (iRd x) (s.waf.reg (imgHeldKey site (getF (c.getX (iRs1 x)) 0 8)))) len)

/-- FOLRD REFCOUNT (R446). -/
def execFolrdRefcount (site : Fin 128) (core : Fin 96) (s : State) : Host.Outcome State Fault Refusal :=
  coreDo site core .folRef s (fun s c _ x len =>
    s.coreNext site core (c.setX (iRd x) (BitVec.ofNat 64 (s.waf.refcount site))) len)

/-- QPUSH (R442, R443). -/
def execQpush (site : Fin 128) (core : Fin 96) (s : State) : Host.Outcome State Fault Refusal :=
  coreDo site core .qpush s (fun s => coreQpush s site core)

/-- QPOP (R442, R443). -/
def execQpop (site : Fin 128) (core : Fin 96) (s : State) : Host.Outcome State Fault Refusal :=
  coreDo site core .qpop s (fun s => coreQpop s site core)

/-- SYNCADD (R442, R443). -/
def execSyncadd (site : Fin 128) (core : Fin 96) (s : State) : Host.Outcome State Fault Refusal :=
  coreDo site core .syncadd s (fun s => coreSyncadd s site core)

/-- SYNCWAIT (R439, R442, R443). -/
def execSyncwait (site : Fin 128) (core : Fin 96) (s : State) : Host.Outcome State Fault Refusal :=
  coreDo site core .syncwait s (fun s => coreSyncwait s site core)

/-- LEAVEREQ QUERY (R445). -/
def execLeavereqQuery (site : Fin 128) (core : Fin 96) (s : State) : Host.Outcome State Fault Refusal :=
  coreDo site core .lveQuery s (fun s => coreLveQuery s site core)

/-- LEAVEREQ REQUEST (R445, R482). -/
def execLeavereqRequest (site : Fin 128) (core : Fin 96) (s : State) : Host.Outcome State Fault Refusal :=
  coreDo site core .lveRequest s (fun s => coreLveRequest s site core)

/-- LEAVEREQ RENEW (R445, R485). -/
def execLeavereqRenew (site : Fin 128) (core : Fin 96) (s : State) : Host.Outcome State Fault Refusal :=
  coreDo site core .lveRenew s (fun s => coreLveRenew s site core)

/-- LEAVEREQ RETURN (R445, R487). -/
def execLeavereqReturn (site : Fin 128) (core : Fin 96) (s : State) : Host.Outcome State Fault Refusal :=
  coreDo site core .lveReturn s (fun s => coreLveReturn s site core)

/-- CORE_INSTRUCTION (R423–R426): every instruction without a row of its own, and the traps of fetch and encoding. -/
def execCoreInstruction (site : Fin 128) (core : Fin 96) (s : State) : Host.Outcome State Fault Refusal :=
  coreDo site core .other s (fun s => coreGeneral s site core)


/-- A request ends with a status: its tag is free, and an error faults its command (R217, R229). -/
def Wafer.rspEnds (w : Wafer) (o : Out) (st : Nat) : Wafer :=
  let w := w.retire o.who o.tag
  if st = stOk then w
  else
    let w := w.memFault o.who.die o.who.unit.toNat o.vol st o.addr.toNat
    match o.cmd.bind (fun x => w.cmd? x.1 x.2) with
    | some c => if c.run.isSome then w.faultCmd c (memBad st o.addr.toNat) else w
    | none => w

/-- A memory response reaches its requester (R217, R228, R234); a late one is discarded (R499). -/
def rspArrive (kind : Acc) (who : Requester) (tag : Nat) (s : State) : Host.Outcome State Fault Refusal :=
  .next (s.onWafer fun w =>
    let p (m : Msg) : Bool := match m with | .rsp k q t _ _ => k == kind && q == who && t == tag | _ => false
    match w.incoming p, w.out.find? (fun o => o.who == who && o.tag == tag) with
    | some (.rsp _ _ _ st _), some o =>
      (w.take p).rspEnds o st
    | some _, none => w.take p
    | none, _ => w
    | _, _ => w)

/-- READ_RSP (R217). -/
def execReadRsp (who : Requester) (tag : BitVec 12) (s : State) : Host.Outcome State Fault Refusal := rspArrive .read who tag.toNat s

/-- WRITE_RSP (R217). -/
def execWriteRsp (who : Requester) (tag : BitVec 12) (s : State) : Host.Outcome State Fault Refusal := rspArrive .write who tag.toNat s

/-- ATOMIC_RSP (R217). -/
def execAtomicRsp (who : Requester) (tag : BitVec 12) (s : State) : Host.Outcome State Fault Refusal := rspArrive .atomic who tag.toNat s

/-- A queue answer or a wake reaches its requester: a SYNC descriptor's command ends (R551), a core's instruction completes
(R443), a core that drains is free again (R444). -/
def queArrive (s : State) (who : Requester) (tag st res : Nat) (v : Word) (d : List Byte) : State :=
  match s.waf.out.find? (fun o => o.who == who && o.tag == tag) with
  | none => s
  | some o =>
    let s := s.onWafer (fun w => w.retire who tag)
    let site := who.die.val
    let k := who.unit.toNat
    match o.cmd.bind (fun x => s.waf.cmd? x.1 x.2) with
    | some c =>
      s.onWafer (fun w =>
        if c.run.isNone then w
        else if st ≠ stOk then (w.memFault site k o.vol st o.addr.toNat).faultCmd c (memBad st o.addr.toNat)
        else w.syncEnds c res v o.addr.toNat 0)
    | none =>
      if 128 ≤ site || 96 ≤ k then s
      else
        let c := s.coreAt site k
        match c.wait with
        | some (x, t) =>
          if t ≠ tag then s
          else if c.draining then s.setCore site k { c with wait := none, draining := false }
          else coreAnswer s site k x o st res v d
        | none => s

/-- QUEUE_RSP (R262, R443, R551). -/
def execQueueRsp (who : Requester) (tag : BitVec 12) (s : State) : Host.Outcome State Fault Refusal :=
  let p (m : Msg) : Bool := match m with | .queueRsp q t _ _ _ _ => q == who && t == tag.toNat | _ => false
  .next (match s.waf.incoming p with
    | some (.queueRsp _ _ st res v d) => queArrive (s.onWafer (fun w => w.take p)) who tag.toNat st res v d
    | _ => s)

/-- SYNC_WAKE (R266, R443, R444, R551). -/
def execSyncWake (who : Requester) (tag : BitVec 12) (s : State) : Host.Outcome State Fault Refusal :=
  let p (m : Msg) : Bool := match m with | .wake q t _ _ => q == who && t == tag.toNat | _ => false
  .next (match s.waf.incoming p with
    | some (.wake _ _ res v) => queArrive (s.onWafer (fun w => w.take p)) who tag.toNat stOk res v []
    | _ => s)

end Sys2Proof.Machine
end

