-- ==== Sys2Proof/Machine/Volumes.lean ====
section
/-! DEFINITION. Operations on volumes: CREATE, RESET and DESTROY, each one whole step (R269, R276, R282–R290, R304–R309,
R339, R415). -/

namespace Sys2Proof.Machine

/-- The lowest start of a free run of n below `hi` (R288). -/
def lowestRun (used : List (Nat × Nat)) (hi n : Nat) : Option Nat :=
  ((0 :: used.map (fun u => u.1 + u.2)).filter (fun o => o + n ≤ hi &&
    used.all (fun u => u.2 == 0 || o + n ≤ u.1 || u.1 + u.2 ≤ o))).foldl
    (fun b o => match b with | none => some o | some x => some (min x o)) none

/-- Codes of Table VOL-4. -/
abbrev vExists : Nat := 1
abbrev vNoVolume : Nat := 2
abbrev vBadProfile : Nat := 3
abbrev vNoResource : Nat := 4
abbrev vVfInUse : Nat := 5

namespace Wafer

/-! ### What a volume holds -/

def liveVol (w : Wafer) (v : Nat) : Bool := w.live.getLsbD v

/-- Live volumes but volume 0. -/
def liveVols (w : Wafer) : List Nat := (List.range 64).filter (fun v => v != 0 && w.liveVol v)

/-- Registers of an array with VOLUME at bit `lo` equal to v: (die, index) for words at `base` + `stride` × index. -/
def ownedBy (w : Wafer) (v base stride count lo : Nat) : List (Nat × Nat) :=
  (w.regs.filter (fun e => base ≤ keyOff e.1 && keyOff e.1 < base + stride * count && (keyOff e.1 - base) % stride == 0 &&
    getF e.2 lo 6 == v)).map (fun e => (e.1 / 2 ^ 48, (keyOff e.1 - base) / stride))

/-- Rings whose context names the volume (Table QUE-3), as (site, ring). -/
def ringsOf (w : Wafer) (v : Nat) : List (Nat × Nat) :=
  (w.ownedBy v 0x003000000008 64 2048 F.QUE_RING_CTRL.VOLUME.lo).filter (fun x => x.1 < 128)

/-- Sync objects whose control word names the volume (Table QUE-13). -/
def syncsOf (w : Wafer) (v : Nat) : List (Nat × Nat) :=
  (w.ownedBy v 0x003000050000 8 2048 F.QUE_SYNC_CTL.VOLUME.lo).filter (fun x => x.1 < 128)

/-- Alarms that name the volume (Table FOL-6). -/
def alarmsOf (w : Wafer) (v : Nat) : List (Nat × Nat) :=
  (w.ownedBy v 0x00F000011000 0x40 256 F.FOL_ALM_CFG.VOLUME.lo).filter (fun x => x.1 < 128)

/-- Non-secure channels bound to the volume (R270), as (edge die, channel). -/
def chansOf (w : Wafer) (v : Nat) : List (Nat × Nat) :=
  (List.range 16).flatMap (fun e => ((List.range 48).map (fun k => (e, k + 16))).filter (fun x =>
    w.flag (chanBlk x.1 x.2) F.QUE_MBX_CFG.BOUND && w.get (chanBlk x.1 x.2) F.QUE_MBX_CFG.VOLUME == v))

/-- Sites of a volume's span. -/
def spanSites (w : Wafer) (v : Nat) : List Nat := (List.range (w.spanCount v)).map (w.spanFirst v + ·)

/-- Banks of a volume's run, on each site of its span. -/
def banksOf (w : Wafer) (v : Nat) : List (Nat × Nat) :=
  (w.spanSites v).flatMap (fun s => (List.range (w.bankWin v).2).map (fun b => (s, (w.bankWin v).1 + b)))

/-! ### Zeroing (R288, R290) -/

/-- Zero SRAM [off, off + n) of a site, with every copy of its lines. -/
def zeroSram (w : Wafer) (s off n : Nat) : Wafer :=
  let hit (h l : Nat) : Bool := h == s && off / 128 ≤ l && l < (off + n + 127) / 128
  let keep (e : Nat × Line) : Bool := !hit (e.1 / 2 ^ 21 % 128) (e.1 % 2 ^ 21)
  let clean (m : Msg) : Msg := match m with
    | .coh op c h l (some d) => if hit h l then .coh op c h l (some (List.replicate 128 0)) else .coh op c h l (some d)
    | m => m
  let w := { w with coh := { w.coh with
                      lines := w.coh.lines.filter keep,
                      wback := w.coh.wback.map (fun e => if keep e then e else (e.1, { e.2 with dirty := false })),
                      dir := w.coh.dir.filter (fun e => !hit (e.1 / 2 ^ 21) (e.1 % 2 ^ 21) ||
                        (w.txAt (e.1 / 2 ^ 21) (e.1 % 2 ^ 21)).isSome) },
                    net := w.net.map clean }
  w.zero (dieAddr s off) n

/-- Zero a bank: rows, thumb vectors, poison. -/
def zeroBank (w : Wafer) (s b : Nat) : Wafer :=
  let w := w.zero (bankKey s b 0) 0x20000
  let w := w.clearRegs (fun k => thumbKey s b 0 ≤ k && k < thumbKey s b 64)
  { w with asc := { w.asc with bad := w.asc.bad.filter (fun x => x / 4096 != 64 * s + b) } }

/-- The SRAM windows and the banks of a volume are zeroed. -/
def zeroWindows (w : Wafer) (v : Nat) : Wafer :=
  let r := w.sramWin v
  let w := (w.spanSites v).foldl (fun w s => if r.2 = 0 then w else w.zeroSram s r.1 r.2) w
  (w.banksOf v).foldl (fun w x => w.zeroBank x.1 x.2) w

/-! ### RESET (Table VOL-8) -/

/-- Step 7: requests posted are taken and dropped, replies withdrawn, the channel bound empty in its creation form, or
unbound (R276, R290). -/
def resetChannel (w : Wafer) (v edge ch : Nat) (bind : Bool) : Wafer :=
  let q := dirBlk edge ch false
  let p := dirBlk edge ch true
  let w := if w.get p F.QUE_MBX_STAT.STATE = 1 then w.latch p F.QUE_MBX_STAT.WITHDRAWN else w
  let w := (w.set q F.QUE_MBX_STAT.STATE 0).set p F.QUE_MBX_STAT.STATE 0
  let w := { w with que := { w.que with
    replies := w.que.replies.filter (fun r => !(r.edge == edge && r.ch == ch)),
    flushes := w.que.flushes.filter (fun x => x.2 != (edge, ch)) } }
  w.setReg (chanBlk edge ch) (if bind then BitVec.ofNat 64 (7 + v * 8) else 0)

/-- Step 3 at the banks of the volume (R415). -/
def stopBanks (w : Wafer) (v : Nat) : Wafer :=
  (w.banksOf v).foldl (fun w x =>
    let k := bankBlk x.1 x.2
    let w := if (w.moveAt x.1 x.2).isSome then w.moveEnd x.1 x.2 5 else w
    let w := w.clearRegs (fun a => stageRowKey x.1 x.2 0 ≤ a && a < stageRowKey x.1 x.2 8)
    w.set k F.ASC_PAIR_STAT.BUSY 0) w

/-- Every completion record of the volume that waits is written now; one whose ring cannot be written is given up and
counted in LOST (step 5, R307). -/
def flushPends (w : Wafer) (v : Nat) : Wafer :=
  let mine := w.que.pend.filter (fun p => p.vol == v)
  let ks := mine.filterMap (·.cmd)
  let w := { w with que := { w.que with pend := w.que.pend.map (fun p => if p.vol = v then { p with retryAt := none, once := true } else p) },
                    cmds := w.cmds.map (fun c => if ks.contains (c.site, c.idx) then { c with mirrored := true } else c) }
  mine.foldl (fun w p => w.writePend p.home p.ring) w

/-- Commands that the reset ends: open, their commit not begun (R306). -/
def cutCmds (w : Wafer) (v : Nat) : List Cmd := w.cmds.filter (fun c => c.vol == v && c.isOpen && c.st != .committing)

/-- Steps 2 to 8 of Table VOL-8. -/
def resetVolume (w : Wafer) (v : Nat) : Wafer :=
  let rings := w.ringsOf v
  let on := rings.filter (fun x => w.flag (ringBlk x.1 x.2) F.QUE_RING_CTRL.ENABLE)
  let stays (site : Nat) (o : Option Nat) : Bool :=
    w.cmds.any (fun c => c.vol == v && c.site == site && c.st == .committing && o == some c.idx)
  let w := on.foldl (fun w x => w.set (ringBlk x.1 x.2) F.QUE_RING_CTRL.ENABLE 0) w
  let w := { w with que := { w.que with bursts := w.que.bursts.filter (fun b => !(rings.contains (b.site, b.ring))) } }
  let w := (w.alarmsOf v).foldl (fun w x => w.set (almBlk x.1 x.2) F.FOL_ALM_CFG.ENABLE 0) w
  let w := { w with out := w.out.filter (fun o => !(o.vol == v && o.need.isSome && !o.isWait)) }
  let w := w.stopBanks v
  let w := (w.cutCmds v).foldl (fun w c =>
    ((match w.cmd? c.site c.idx with | some c => w.finish c clsWithdrawn 0 0 0 | none => w))) w
  let w := w.dropLeave (fun g => g.vol == v && !stays g.site g.owner) (fun r => r.vol == v && !stays r.site r.owner)
  let w := w.flushPends v
  let w := (w.syncsOf v).foldl (fun w x => if w.syncLive x.1 x.2 then w.setSync x.1 x.2 poisonVal else w) w
  let w := (w.chansOf v).foldl (fun w x => w.resetChannel v x.1 x.2 true) w
  let w := { w with que := { w.que with claims := w.que.claims.filter (fun c => !(rings.contains (c.ring / 2048, c.ring % 2048))) } }
  let w := rings.foldl (fun w x =>
    let b := ringBlk x.1 x.2
    let i := w.rPI b
    let w := if w.rCI b = i then w else w.setCI b i
    w.shadow b i) w
  let w := on.foldl (fun w x => (w.set (ringBlk x.1 x.2) F.QUE_RING_CTRL.ENABLE 1).set (ringBlk x.1 x.2) F.QUE_RING_CTRL.ARMED 1) w
  w.activeSites.foldl (fun w s => w.evaluateSite s) w

/-! ### DESTROY (R290) -/

/-- Rotation and ensemble slots of the volume are freed on every site of its span: a slot reserved on a site that is no
member is known by its banks. -/
def freeModelSlots (w : Wafer) (v : Nat) : Wafer :=
  let win := w.bankWin v
  let mine (s g : Nat) : Bool :=
    w.get (rotBlk s g) F.CMD_ROT_BANKS.BANKS != 0 && within win (w.get (rotBlk s g) F.CMD_ROT_BANKS.HALF_A) 1
  let w := (w.spanSites v).foldl (fun w s => (List.range 16).foldl (fun w g =>
    let w := if mine s g then
      let w := w.clearRegs (fun k => rotBlk s g ≤ k && k < rotBlk s g + 0x40)
      { w with rot := Tab.put (fun _ => Turn.init) w.rot (16 * s + g) Turn.init } else w
    if w.get (ensBlk s g) F.ENS_SLOT_CFG.VOLUME = v then w.clearRegs (fun k => ensBlk s g ≤ k && k < ensBlk s g + 0x40) else w) w) w
  { w with asc := { w.asc with ens := w.asc.ens.filter (fun e => e.2.vol != v) } }

/-- Every resource returns to its pool. -/
def freeVolume (w : Wafer) (v : Nat) : Wafer :=
  let w := w.freeModelSlots v
  let rings := w.ringsOf v
  let syncs := w.syncsOf v
  let w := rings.foldl (fun w x => w.clearRegs (fun k => ringBlk x.1 x.2 ≤ k && k < ringBlk x.1 x.2 + 64)) w
  let w := syncs.foldl (fun w x => (w.setReg (syncKey x.1 x.2) 0).setReg (syncCtlBlk x.1 x.2) 0) w
  let w := (w.alarmsOf v).foldl (fun w x => w.clearRegs (fun k => almBlk x.1 x.2 ≤ k && k < almBlk x.1 x.2 + 0x40)) w
  let w := w.zeroWindows v
  let w := (w.chansOf v).foldl (fun w x => w.resetChannel v x.1 x.2 false) w
  let w := w.clearRegs (fun k => (hostwinBlk v 0 ≤ k && k < hostwinBlk v 4) || (volwinKey v 0 ≤ k && k < volwinKey v 4))
  let w := { w with que := { w.que with allocs := w.que.allocs.filter (fun a => a.vol != v) },
                    prt := { w.prt with flows := w.prt.flows.filter (fun f => f.vol != v) },
                    live := w.live &&& ~~~(BitVec.ofNat 64 (2 ^ v)) }
  w.setVol v Vol.init

/-! ### CREATE (R288) -/

/-- What a profile asks (Table VOL-2). -/
def profField (w : Wafer) (p : Nat) (f : Fld) : Nat := w.get (profBlk p) f

/-- Two spans meet. -/
def spansMeet (f c f' c' : Nat) : Bool := decide (f < f' + c') && decide (f' < f + c)

/-- Step 2: some count of a site's pool is too small (Table VOL-1). -/
def poolShort (w : Wafer) (first count : Nat) (others : List Nat) (want word lo n cap : Nat) : Bool :=
  (List.range count).any (fun i =>
    decide (cap < want + sumOf ((others.filter (fun u => w.inSpan u (first + i))).map (fun u => w.volField u word lo n))))

/-- Free non-secure channels of an edge die, lowest first. -/
def freeChans (w : Wafer) (e : Nat) : List Nat :=
  ((List.range 48).map (· + 16)).filter (fun ch => !w.flag (chanBlk e ch) F.QUE_MBX_CFG.BOUND)

/-- CREATE: code of Table VOL-4, and the state. Checks in the order EXISTS, BAD_PROFILE, VF_IN_USE, NO_RESOURCE. -/
def createVolume (w : Wafer) (v p : Nat) (vf : Option Nat) : Nat × Wafer :=
  let first := w.profField p F.VOL_PROF_SPAN.FIRST_SITE
  let count := w.profField p F.VOL_PROF_SPAN.SITE_COUNT
  if w.liveVol v then (vExists, w)
  else if 32 ≤ p || w.col.sites.length < first + count then (vBadProfile, w)
  else if w.liveVols.any (fun u => vf.isSome && (w.volInfo u).vf == vf) then (vVfInUse, w)
  else
    let live := w.liveVols
    let others := live.filter (fun u => spansMeet first count (w.spanFirst u) (w.spanCount u))
    let short (f : Fld) (cap : Nat) : Bool := w.poolShort first count others (w.profField p f) 0 f.lo f.w cap
    let sram := w.profField p F.VOL_PROF_SITE.SRAM_MIB * 2 ^ 20
    let banks := w.profField p F.VOL_PROF_SITE.BANKS
    let hbm := w.profField p F.VOL_PROF_MEM.HBM_GIB * 2 ^ 30
    let chans := w.profField p F.VOL_PROF_MEM.CHANNELS
    let edges := (List.range 16).filter (fun e => w.active (128 + e))
    match lowestRun (others.map w.sramWin) 0x0F000000 sram, lowestRun (others.map w.bankWin) 64 banks,
      lowestRun (live.map w.hbmWin) 0x8800000000 hbm with
    | some so, some bo, some ho =>
      if short F.VOL_PROF_SITE.RINGS 1984 || short F.VOL_PROF_SITE.SYNCS 1792 || short F.VOL_PROF_SITE.ALARMS 240 ||
        edges.any (fun e => (w.freeChans e).length < chans) then (vNoResource, w)
      else
        let prof := (List.range 4).map (fun i => w.reg (profBlk p + 8 * i))
        let w := w.setVol v { Vol.init with prof := prof, vf := vf, progress := w.now }
        let win (w : Wafer) (i x : Nat) : Wafer := w.setReg (volwinKey v i) (BitVec.ofNat 64 x)
        let w := win (win (win (win w 0 (if sram = 0 then 0 else so)) 1 (sram + (if banks = 0 then 0 else bo) * 2 ^ 32 + banks * 2 ^ 40))
          2 (if hbm = 0 then 0 else ho)) 3 hbm
        let w := w.zeroWindows v
        let w := if hbm = 0 then w else w.zero (hbmAddr ho) hbm
        let w := edges.foldl (fun w e => ((w.freeChans e).take chans).foldl (fun w ch => w.resetChannel v e ch true) w) w
        (0, { w with live := w.live ||| BitVec.ofNat 64 (2 ^ v) })
    | _, _, _ => (vNoResource, w)

/-! ### An operation and its end (R289) -/

/-- RIB_VOL_STAT at the end of an operation; DONE becoming set raises VOL. -/
def volEnds (w : Wafer) (v code : Nat) : Wafer :=
  let was := (w.rib32 0x41).getLsbD 1
  let w := w.setRib32 0x41 (BitVec.ofNat 32 (2 + v * 4 + code * 2 ^ 8))
  if was then w else w.alert 9

def opCreate (w : Wafer) (v p : Nat) (vf : Option Nat) : Nat × Wafer :=
  let r := w.createVolume v p vf
  (r.1, r.2.volEnds v r.1)

def opReset (w : Wafer) (v : Nat) : Nat × Wafer :=
  if w.liveVol v then (0, (w.resetVolume v).volEnds v 0) else (vNoVolume, w.volEnds v vNoVolume)

def opDestroy (w : Wafer) (v : Nat) : Nat × Wafer :=
  if w.liveVol v then (0, ((w.resetVolume v).freeVolume v).volEnds v 0) else (vNoVolume, w.volEnds v vNoVolume)

end Wafer

/-! ### Meanings -/

/-- A write of RIB_VOL_CMD (R112, R289): volume 0 cannot be named. -/
def volCommand (s : State) (port : RibPort) (tag : BitVec 4) (vol : BitVec 6) (f : Wafer → Nat × Wafer) :
    Host.Outcome State Fault Refusal :=
  .next (s.writeWaf port 0x40 tag (fun w => if vol = 0 then (rInvalid, w) else (0, (f w).2)))

/-- VOL_CREATE (R282–R289). -/
def execVolCreate (port : RibPort) (tag : BitVec 4) (vol : BitVec 6) (profile : BitVec 8) (vf : BitVec 6) (vfValid : Bool)
    (s : State) : Host.Outcome State Fault Refusal :=
  volCommand s port tag vol (fun w => w.opCreate vol.toNat profile.toNat (if vfValid then some vf.toNat else none))

/-- VOL_RESET (R304–R309). -/
def execVolReset (port : RibPort) (tag : BitVec 4) (vol : BitVec 6) (s : State) : Host.Outcome State Fault Refusal :=
  volCommand s port tag vol (fun w => w.opReset vol.toNat)

/-- VOL_DESTROY (R290). -/
def execVolDestroy (port : RibPort) (tag : BitVec 4) (vol : BitVec 6) (s : State) : Host.Outcome State Fault Refusal :=
  volCommand s port tag vol (fun w => w.opDestroy vol.toNat)

/-- VOLUME_HUNG (R521): a volume with pending work and no progress for VOL_HB_MS is reset. -/
def Wafer.volPending (w : Wafer) (v : Nat) : Bool :=
  w.cmds.any (fun c => c.vol == v && c.isOpen) || (w.ringsOf v).any (fun x => w.rHeld (ringBlk x.1 x.2) != 0)

def execVolumeHung (vol : Fin 64) (s : State) : Host.Outcome State Fault Refusal :=
  .next (s.onWafer fun w =>
    let lim := w.get fltWBlk F.FLT_W_CFG.VOL_HB_MS
    if vol.val = 0 || !w.liveVol vol || lim = 0 || !w.col.boot.running || !w.volPending vol ||
      since (w.volInfo vol).progress w.now < ms lim then w
    else
      (((w.latch fltWBlk F.FLT_W_EVT.VOLUME_HUNG).logEntry 2 521 vol).opReset vol).2)

end Sys2Proof.Machine
end

