-- ==== Sys2Proof/Machine/Lost.lean ====
section
/-! DEFINITION. What the loss of a site takes with it, and what its buddy does then: coherence, the site's own state, the
takeover of its commands, and the rebuild of its rotation groups (R78, R145, R151, R335, R506, R515–R520). -/

namespace Sys2Proof.Machine
namespace Wafer

/-! ### Coherence (R223–R227, Table MEM-7) -/

/-- A message that the lost cache had sent arrives at once: dirty data comes home, a COMPLETE counts. -/
def sentByLost (w : Wafer) (L : Nat) : Wafer :=
  w.net.foldl (fun w m => match m with
    | .coh .fwdAck c h l (some d) => if c = L && h ≠ L then w.lineHome h l d else w
    | .coh .putE c h l (some d) =>
      if c = L && h ≠ L && (match w.dirAt h l with | some (.excl o _) => o == L | _ => false) then w.lineHome h l d else w
    | _ => w) w

/-- The directory entry of a line without the lost site. -/
def dirWithout (L : Nat) : Dir → Option Dir
  | .excl o n => if o = L then none else some (.excl o n)
  | .shared s n => let r := s.filter (· ≠ L); if r.isEmpty then none else some (.shared r n)
  | .coarse g n => some (.coarse g n)

/-- A home request without the lost site: its own GET only collects. -/
def reqWithout (L : Nat) : HomeReq → HomeReq
  | .getS c => if c = L then .gone else .getS c
  | .getE c => if c = L then .evict else .getE c
  | r => r

/-- The lost site leaves the protocol: as a home with its lines, as a cache with its copies and requests. -/
def cohLost (w : Wafer) (L : Nat) : Wafer :=
  let w := w.sentByLost L
  let cacheOf (k : Nat) : Nat := k / 2 ^ 28
  let homeOf (k : Nat) : Nat := k / 2 ^ 21 % 128
  let keep (k : Nat) : Bool := cacheOf k != L && homeOf k != L
  let mine : HomeReq → Bool
    | .getS c | .getE c => c == L
    | _ => false
  let old := w.coh.tx
  let w := { w with
    net := w.net.filter (fun m => match m with | .coh _ c h _ _ => c != L && h != L | _ => true),
    coh := { w.coh with
      lines := w.coh.lines.filter (fun e => keep e.1),
      wback := w.coh.wback.filter (fun e => keep e.1),
      dir := w.coh.dir.filterMap (fun e => if e.1 / 2 ^ 21 = L then none else (dirWithout L e.2).map (fun d => (e.1, d))),
      tx := (w.coh.tx.filter (fun e => e.1 / 2 ^ 21 != L)).map (fun e =>
        (e.1, { e.2 with acks := e.2.acks.filter (· ≠ L), queue := e.2.queue.filter (fun r => !mine r),
                         req := if e.2.granted then e.2.req else reqWithout L e.2.req })) } }
  (old.filter (fun e => e.1 / 2 ^ 21 != L)).foldl (fun w e =>
    let h := e.1 / 2 ^ 21
    let l := e.1 % 2 ^ 21
    match w.txAt h l with
    | none => w
    | some t =>
      if t.granted then (if mine t.req then serve.next serveFuel w h l t else w)
      else if t.acks.isEmpty then serve.act serveFuel w h l t else w) w

/-! ### The state of the site itself -/

/-- Registers of a lost site that outlive it: contexts of WORK and COMPLETION rings, which the mirror holds, the control
words of its sync objects, and its twin ranges (R519). -/
def outlives (w : Wafer) (L k : Nat) : Bool :=
  let o := keyOff k
  (0x003000000000 ≤ o && o < 0x003000020000 && w.get (ringBlk L ((o - 0x003000000000) / 64)) F.QUE_RING_CTRL.KIND ≤ 1 &&
    w.flag (ringBlk L ((o - 0x003000000000) / 64)) F.QUE_RING_CTRL.ENABLE) ||
  (0x003000050000 ≤ o && o < 0x003000054000) || (0x00F000140020 ≤ o && o < 0x00F000140420)

/-- A message from or to the lost site. -/
def ofLost (L : Nat) : Msg → Bool
  | .rsp _ who _ _ _ => who.die.val == L
  | .queueRsp who _ _ _ _ _ => who.die.val == L
  | .wake who _ _ _ => who.die.val == L
  | .turnReq s _ => s == L
  | .leaveGrant s _ _ _ _ => s == L
  | .leaveDenial s _ _ _ _ => s == L
  | .leaveRecall s _ => s == L
  | _ => false

/-- Everything the site holds beyond its commands is lost; its leave is returned (R487, R518). -/
def stopSite (w : Wafer) (L : Nat) : Wafer :=
  let off {α : Type} (d : Nat) (t : Tab α) : Tab α := t.filter (fun e => e.1 / d != L)
  let w := w.cohLost L
  let w := (w.siteCmds L).foldl (fun w c => w.leaveSession L c.idx false) w
  let w := w.dropLeave (fun g => g.site == L) (fun r => r.site == L)
  let w := w.clearRegs (fun k => k / 2 ^ 48 == L && !w.outlives L k)
  let w := w.zero (dieAddr L 0) (2 ^ 48)
  { w with
    net := w.net.filter (fun m => !ofLost L m),
    out := w.out.filter (fun o => o.who.die.val != L),
    eng := off 8 w.eng, core := off 96 w.core, rot := off 16 w.rot,
    asc := { w.asc with moves := off 64 w.asc.moves, scrub := off 64 w.asc.scrub,
                        bad := w.asc.bad.filter (fun x => x / 4096 / 64 != L) },
    lve := { w.lve with told := off 1024 w.lve.told, meas := off 1 w.lve.meas, cool := off 1 w.lve.cool,
                        paced := off 1 w.lve.paced },
    fol := { w.fol with seen := off 16 w.fol.seen, staleSince := off 16 w.fol.staleSince,
                        beacons := w.fol.beacons.map (fun b => { b with sites := b.sites.filter (· ≠ L) }) },
    que := { w.que with
      waits := w.que.waits.filter (fun x => x.who.die.val != L),
      lastServed := off 4 w.que.lastServed, stuck := off 2048 w.que.stuck,
      fullWait := w.que.fullWait.filter (fun x => x / 2048 != L),
      bursts := w.que.bursts.filter (fun b => b.site != L),
      copying := w.que.copying.filter (· ≠ L), bare := w.que.bare.filter (· ≠ L),
      claims := w.que.claims.filter (fun c => c.ring / 2048 != L) },
    col := { w.col with heard := Tab.drop w.col.heard L } }

/-! ### Rotation groups (R335) -/

/-- A rotation group as it stood before the loss: slot, members in order, and the lost member's slot words. -/
structure RotGroup where
  slot : Nat
  members : List Nat
  cfg : Word
  size : Word
  image : Word
deriving DecidableEq, Repr

/-- The groups the site is a member of. -/
def groupsOf (w : Wafer) (L : Nat) : List RotGroup :=
  (List.range 16).filterMap (fun g =>
    let b := rotBlk L g
    let st := w.get b F.CMD_ROT_CFG.STATE
    if w.flag b F.CMD_ROT_CFG.VALID && st != 0 && st != 4 then
      some { slot := g, members := w.rotMembers g (w.get b F.CMD_ROT_CFG.FIRST), cfg := w.reg b, size := w.reg (b + 0x20),
             image := w.reg (b + 0x28) }
    else none)

/-- Load page j of the group's image into the current half of a member (R331, R335). -/
def loadPage (w : Wafer) (site g j : Nat) (h : Bool) : Wafer :=
  let b := rotBlk site g
  let a := (w.reg (b + 0x28)).toNat + j * w.get b F.CMD_ROT_SIZE.STRIDE
  let n := w.get b F.CMD_ROT_BANKS.BANKS
  w.putPage site g h ((List.range n).map (fun i => w.load (a + i * 0x20000) 0x20000))
    (w.load (a + n * 0x20000) (w.get b F.CMD_ROT_SIZE.SRAM_BYTES))

/-- Load the resident section of an image at a site (R454). -/
def loadResident (w : Wafer) (site g image : Nat) : Wafer :=
  let b := ensBlk site g
  let a := image + fromLE (w.load (image + 56) 8)
  w.save (w.reg (b + 0x8)).toNat (w.load a (w.get b F.ENS_SLOT_RESLEN.BYTES))

/-- The site that replaces a lost member: the buddy if it lies in the span and is no member, else the lowest active site of
the span that is not one. -/
def replacement (w : Wafer) (B : Nat) (x : RotGroup) : Option Nat :=
  let v := getF x.cfg F.CMD_ROT_CFG.VOLUME.lo 6
  let fits (s : Nat) : Bool := w.active s && w.inSpan v s && !x.members.contains s &&
    !w.flag (rotBlk s x.slot) F.CMD_ROT_CFG.VALID
  if fits B then some B else (w.spanSites v).find? fits

/-- Abort a bound command that runs on a member that is left, and hold it (R335). -/
def holdBound (w : Wafer) (c : Cmd) : Wafer :=
  let k := cmdBlk c.site
  let w := if c.run.isSome then (w.latch k F.CMD_EVT.ABORT).bump k F.CMD_EVT.ABORTS else w
  (w.stopRun c.site c.idx).recChange { c with run := none, aborting := some (c.aborting.getD w.now), rebuild := true }

/-- FAILED with a DETAIL the spec leaves open. -/
def failOpen (w : Wafer) (c : Cmd) (code : Nat) : Wafer := let f := w.fresh; f.2.fail c code f.1.toNat

/-- Rebuild or dissolve a group that has lost a member. -/
def rebuildGroup (w : Wafer) (L : Nat) (x : RotGroup) (repl : Option Nat) : Wafer :=
  let g := x.slot
  let on (s : Nat) : Bool := x.members.contains s && s != L
  let mine := w.cmds.filter (fun c => c.rotSlot == some g && on c.site && c.isOpen)
  let w := x.members.foldl (fun w s => if s = L then w else w.latch (cmdBlk s) F.CMD_EVT.ROT_REBUILD) w
  let w := { w with net := w.net.filter (fun m => match m with | .turnReq s k => !(k == g && x.members.contains s) | _ => true) }
  let busy (c : Cmd) : Bool := c.run.isSome || c.aborting.isSome
  let w := (mine.filter busy).foldl (fun w c => match w.cmd? c.site c.idx with | some c => w.holdBound c | none => w) w
  match repl with
  | none =>
    let w := x.members.foldl (fun w s => if s = L then w else w.set (rotBlk s g) F.CMD_ROT_CFG.STATE 4) w
    (mine.filter (fun c => !busy c)).foldl (fun w c => match w.cmd? c.site c.idx with | some c => w.failOpen c 0x119 | none => w) w
  | some R =>
    let w := w.setReg (rotBlk R g) x.cfg
    let w := match w.asc.ens.find? (fun e => e.1 == 128 * g + getF x.cfg F.CMD_ROT_CFG.FIRST.lo 7) with
      | some e => (w.set (ensBlk R g) F.ENS_SLOT_CFG.VALID 1).loadResident R g e.2.image
      | none => w
    let ms := x.members.map (fun s => if s = L then R else s)
    (List.range ms.length).foldl (fun w j =>
      let s := ms.getD j 0
      let b := rotBlk s g
      let w := ((w.setReg (b + 0x30) 0).set b F.CMD_ROT_CFG.PAGE j).set b F.CMD_ROT_CFG.STATE 1
      (w.setTurn s g Turn.init).loadPage s g j (w.flag b F.CMD_ROT_CFG.HALF)) w

/-! ### Takeover (R516, R517) -/

/-- A command as its mirrored record gives it; one whose record had not reached the mirror yet counts as ACCEPTED. -/
def fromMirror (c : Cmd) : Cmd :=
  let m := c.mir
  if m.isEmpty then { c with st := .accepted }
  else
    { c with st := (match leAt m 0 1 with | 2 => .running | 3 => .aborted | 4 => .committing | 5 => .final | _ => .accepted),
             replays := leAt m 1 1, defWritten := Nat.testBit (leAt m 3 1) 2, firstStart := leAt m 24 8,
             atomics := BitVec.ofNat 8 (leAt m 40 1), lastFault := leAt m 42 2, lastDetail := BitVec.ofNat 64 (leAt m 48 8),
             listRead := c.listRead && leAt m 128 64 != 0 }

/-- The site that replays a command of the lost site L with buddy B. -/
def replaySite (w : Wafer) (L B : Nat) (c : Cmd) (groups : List (RotGroup × Option Nat)) : Option Nat :=
  match c.rotSlot.bind (fun g => groups.find? (fun x => x.1.slot == g)) with
  | some x => x.2
  | none =>
    if w.inSpan c.vol B && w.active B then some B
    else
      ((w.spanSites c.vol).filter w.active).foldl (fun b s =>
        match b with
        | none => some s
        | some t => if max s L - min s L < max t L - min t L then some s else some t) none

/-- The buddy acts on one mirrored record of the lost site. -/
def takeOne (w : Wafer) (L B : Nat) (groups : List (RotGroup × Option Nat)) (c0 : Cmd) : Wafer :=
  let c := fromMirror c0
  let key := some (L, c0.idx)
  if c.st = .final then
    let w := w.setCmd { c0 with mirrored := true }
    { w with que := { w.que with pend := w.que.pend.map (fun p => if p.cmd = key then { p with writer := B } else p) } }
  else
    let group := c.rotSlot.bind (fun g => groups.find? (fun x => x.1.slot == g))
    let dst := w.replaySite L B c groups
    let R := dst.getD B
    let idx := (w.freeIdx R).getD (1024 + c.order)
    let w := if idx < 1024 then w.latch (fltBlk R) F.FLT_EVT.BUDDY_RUN else w
    let pends := (w.que.pend.filter (fun p => !(p.cmd == key && (p.final || !c.defWritten)))).map (fun p =>
      if p.cmd = key then { p with cmd := some (R, idx), writer := B } else p)
    let claims := w.que.claims.map (fun x => if x.site = L && x.idx = c0.idx then { x with site := R, idx := idx } else x)
    let begun := c.st != .accepted
    let limit := begun && decide (w.get (fltBlk R) F.FLT_CFG.MAX_REPLAYS ≤ c.replays)
    let c1 : Cmd :=
      { c with site := R, idx := idx, buddyRun := true, run := none, aborting := none, noReplay := false, rebuild := false,
               mirrored := false, mir := [], st := if begun then .aborted else .accepted,
               replays := if begun && !limit then c.replays + 1 else c.replays,
               handed := if c.home = L || c.handed = some L then some B else c.handed }
    let w := { w with cmds := w.cmds.map (fun x => if x = c0 then c1 else x), que := { w.que with pend := pends, claims := claims } }
    match group, dst with
    | some _, none => w.failOpen c1 0x119
    | none, none => let f := w.fresh; f.2.failOpen c1 (f.1.toNat % 4096)
    | _, some _ =>
      match w.sourceGone c1 with
      | some a => w.fail c1 0x164 a
      | none =>
        if limit then
          let w := w.latch (fltBlk R) F.FLT_EVT.REPLAY_LIMIT
          if c1.lastFault = 0 then (let f := w.fresh; f.2.failOpen c1 (f.1.toNat % 4096))
          else w.fail c1 (c1.lastFault % 4096) c1.lastDetail.toNat
        else w

/-- The buddy takes over every command of the lost site, and the final records it wrote for others. -/
def takeOver (w : Wafer) (L B : Nat) (groups : List (RotGroup × Option Nat)) : Wafer :=
  let cs := sortBy (fun a b : Cmd => decide (a.order < b.order)) (w.siteCmds L)
  let w := cs.foldl (fun w c => w.takeOne L B groups c) w
  { w with
    cmds := w.cmds.map (fun c => if c.handed = some L then { c with handed := some B } else c),
    que := { w.que with pend := w.que.pend.map (fun p => if p.writer = L then { p with writer := B } else p) } }

/-! ### Buddies change (R145, R506) -/

/-- Sites whose buddy has changed copy their records to the new one; those whose old buddy is the lost site have no mirror
until the copy ends. -/
def rebuddy (w : Wafer) (old : List (Nat × Nat)) (lost : Option Nat) : Wafer :=
  w.activeSites.foldl (fun w s =>
    match old.find? (fun x => x.1 == s) with
    | none => w
    | some x =>
      if x.2 = w.buddy s then w
      else
        let q := w.que
        let add (l : List Nat) : List Nat := if l.contains s then l else l ++ [s]
        ({ w with que := { q with copying := add q.copying, bare := if some x.2 = lost then add q.bare else q.bare } }).latch
          (fltBlk s) F.FLT_EVT.REMIRROR) w

/-- Every active site with its buddy. -/
def buddies (w : Wafer) : List (Nat × Nat) := w.activeSites.map (fun s => (s, w.buddy s))

/-- A site is lost: `mark` takes it out of service. -/
def siteGone (w : Wafer) (L : Nat) (mark : Wafer → Wafer) : Wafer :=
  let B := w.buddy L
  let old := w.buddies
  let groups := w.groupsOf L
  let w := mark (w.stopSite L)
  let plan := groups.map (fun x => (x, w.replacement B x))
  let w := plan.foldl (fun w p => w.rebuildGroup L p.1 p.2) w
  let w := w.takeOver L B plan
  let w := w.rebuddy old (some L)
  w.activeSites.foldl (fun w s => w.evaluateSite s) w

end Wafer
end Sys2Proof.Machine
end

