-- ==== Sys2Proof/Machine/Recovery.lean ====
section
/-! DEFINITION. Fences, retired links and routes at run time, site resets and rejoin, timeouts of requests, twin ranges, and
the service watchdog (R58, R136–R138, R146–R160, R179, R190–R193, R494, R498–R525). -/

namespace Sys2Proof.Machine

/-! ### The sewing test (R135–R138) -/

/-- A failing wire of the direction that `node` sends on its link `dir`. -/
def failsOn (node dir : Nat) (f : WireFail) : Bool :=
  f.node == node && (f.dir == dir || (f.dir == 4 && node < 144 && (outwardEdge node dir).isSome))

/-- One direction of a link (R138): each group's guard carries at most one failed data wire; none: the direction fails. -/
def sewDirection (fails : List WireFail) (node dir : Nat) : Option (List (Nat × Nat)) :=
  let l := (fails.filter (failsOn node dir)).map (·.wire)
  (List.range 68).foldl (fun acc g =>
    match acc with
    | none => none
    | some r =>
      match (l.filter (fun x => x < 2176 && x / 32 == g)).dedup with
      | [] => some r
      | [x] => if l.contains (2176 + g) then none else some (r ++ [(g, x % 32)])
      | _ => none) (some [])

namespace Wafer

/-- Sew a link, named by one of its ports: both directions with the guards of what each end receives, or none. -/
def sewLink (fails : List WireFail) (k : Nat) : Option (List (Nat × Nat) × List (Nat × Nat)) :=
  match sewDirection fails (farKey k / 4) (farKey k % 4), sewDirection fails (k / 4) (k % 4) with
  | some a, some b => some (a, b)
  | _, _ => none

/-- A link comes into service with fresh state at both ends; the latency measured stays unless it is measured again. -/
def linkIn (w : Wafer) (k : Nat) (g : List (Nat × Nat) × List (Nat × Nat)) : Wafer :=
  let up (w : Wafer) (j : Nat) (x : List (Nat × Nat)) : Wafer :=
    w.setPort j { Port.init with state := 1, latency := (w.port j).latency, guards := x }
  up (up w k g.1) (farKey k) g.2

/-- A link leaves service: what is held or queued on it is gone (R190, R193). -/
def linkOut (w : Wafer) (k : Nat) : Wafer :=
  let down (w : Wafer) (j : Nat) : Wafer :=
    let p := w.port j
    w.setPort j { p with state := 2, held := [], outq := [], replay := none, switchAt := none, owed := false, nak := false }
  down (down w k) (farKey k)

/-- A link in service of a node. -/
def hasLink (w : Wafer) (node : Nat) : Bool :=
  (portsOf node).any (fun d => match neighbour node d with
    | some m => (w.dieInfo m).state == 1 && !((w.port (portKey node d)).state == 2)
    | none => false)

/-- Nodes that a route from the acting root's edge die reaches (R147). -/
def reachable (w : Wafer) : List Nat :=
  let t := w.topoNow
  let root := 144 + (if w.col.root8 then 8 else 0)
  let near := (List.range 2).filterMap (fun i => if t.linkUp root i then neighbour root i else none)
  let l := (near.flatMap (fun b => (t.dist b).map (·.1))).dedup
  root :: l ++ ((List.range 16).map (· + 144)).filter (fun e => (List.range 2).any (fun i =>
    t.linkUp e i && (match neighbour e i with | some b => l.contains b | none => false)))

/-- Routes, envelope, PHASE and report after a change of the dies or links in service (R148, R163, R164, R488). -/
def afterChange (w : Wafer) : Wafer := w.nameSwitch.envelopeNow.review

/-- FOLIO work whose deadline counter lies on a lost edge die (R58). -/
def sourceLost (w : Wafer) (e : Nat) : Wafer :=
  (w.cmds.filter (fun c => c.isOpen && c.dlValid && c.dlCounter / 16 == e)).foldl (fun w c =>
    match w.cmd? c.site c.idx with
    | none => w
    | some c =>
      let i := imgKey c.site c.dlCounter
      let c := { c with srcLost := some (BitVec.ofNat 64 (w.get i F.FOL_IMG.POSITION + c.dlCounter * 2 ^ 48 +
        w.get i F.FOL_IMG.EPOCH * 2 ^ 56)) }
      let w := w.setCmd c
      if c.cls ≠ 0 then w
      else if c.st == .running || c.st == .committing then (if c.runLate then w else w.abortFinish c clsLate 4 0)
      else w.refuse c 3 0) w

/-- Every entry of a lost edge die shows SOURCE_OFF; its beacons are gone (Table FOL-5). -/
def imagesOff (w : Wafer) (e : Nat) : Wafer :=
  let w := { w with fol := { w.fol with beacons := w.fol.beacons.filter (fun b => b.edge != e) } }
  w.activeSites.foldl (fun w s => (List.range 16).foldl (fun w i => w.set (imgKey s (16 * e + i)) F.FOL_IMG.SOURCE_OFF 1) w) w

end Wafer

namespace State

/-! ### Ends of requests to a die that is gone (R179, R518) -/

/-- Requests that `hit` selects end: a SYNC_WAIT wakes POISONED, every other request ends with FENCED_TARGET. -/
def endOuts (s : State) (hit : Out → Bool) : State :=
  (s.waf.out.filter hit).foldl (fun s o =>
    if o.kind.isSome then s.onWafer (fun w => w.rspEnds o stFenced)
    else if o.isWait then queArrive s o.who o.tag stOk qPoisoned poisonVal []
    else queArrive s o.who o.tag stFenced 0 0 []) s

/-- Requests outstanding to a lost site. -/
def endRequests (s : State) (L : Nat) : State :=
  (s.onWafer (fun w => { w with que := { w.que with waits := w.que.waits.filter (fun x => x.site != L) } })).endOuts (fun o =>
    o.die == L && o.who.die.val != L &&
    (o.kind.isNone || (adRegion o.addr.toNat == 0 && adWafer o.addr.toNat == s.waf.col.wafer)))

/-- Requests outstanding to a lost edge die, its HBM stack or its PCIe ports. -/
def endEdgeRequests (s : State) (e : Nat) : State :=
  s.endOuts (fun o =>
    let a := o.addr.toNat
    o.kind.isSome && o.who.die.val != 128 + e && adWafer a == s.waf.col.wafer &&
    (match adRegion a with
     | 0 => o.die == 128 + e
     | 2 => (match hbmKey (adDie a) (adOff a) with | some k => k / 4096 % 16 == e | none => false)
     | 4 => adDie a / 2 == e
     | _ => false))

/-! ### The fence list (R158, R192) -/

/-- Add an entry; a 65th is applied without being listed, with a FATAL log entry. -/
def addFence (s : State) (f : Fence) : State :=
  if s.sup.fences.any (fun x => x.kind == f.kind && x.rowEdge == f.rowEdge && x.col == f.col && x.dir == f.dir) then s
  else if s.sup.fences.length < 64 then
    (s.onSup (fun p => { p with fences := p.fences ++ [f] })).onWafer (fun w => w.alert 1)
  else s.onWafer (fun w => w.logEntry 3 158 0)

/-- The entry of a die, and that of a link under its naming port. -/
def dieFence (node reason : Nat) (byRibbon : Bool) : Fence :=
  if node < 144 then { kind := 1, rowEdge := node / 12, col := node % 12, dir := 0, byRibbon := byRibbon, reason := reason }
  else { kind := 2, rowEdge := node - 144, col := 0, dir := 0, byRibbon := byRibbon, reason := reason }
def linkFence (k reason : Nat) (byRibbon : Bool) : Fence :=
  let n := linkName (k / 4) (k % 4)
  { kind := 3, rowEdge := n.1 / 12, col := n.1 % 12, dir := n.2, byRibbon := byRibbon, reason := reason }

/-! ### Fences at run time (R151, R158, R159) -/

/-- RIB_RESET_STAT when the reset that RIB_RESET began has ended; DONE becoming set raises RESET (Tables RIB-9, RIB-11). -/
def resetDone (w : Wafer) : Wafer :=
  let v := w.rib32 0x31
  let w := w.setRib32 0x31 ((v &&& 0x7F06) ||| 8)
  if v.getLsbD 3 then w else w.alert 10

/-- The SITE reset of a site has ended. -/
def siteResetEnds (s : State) (L : Nat) : State :=
  s.onWafer (fun w =>
    let v := w.rib32 0x31
    if v.getLsbD 0 && get32 v 1 2 == 2 && get32 v 8 7 == L then resetDone w else w)

/-- A site is lost together with the mirror of its records (R520): internal reset with cause RECORDS_LOST. -/
def recordsLost (s : State) : State := (s.onSup (fun p => { p with lastReset := 2 })).internalReset

/-- No mirror holds the site's records: its old buddy is lost and the copy has not ended, or no other site is left. -/
def noMirror (s : State) (L : Nat) : Bool := s.waf.que.bare.contains L || s.waf.activeSites.all (· == L)

/-- Fence a site (R151, R159); `state` 2 fenced or 3 unreachable. -/
def fenceSite (s : State) (L reason state : Nat) (byRibbon : Bool) : State :=
  match s.waf.nodeOf L with
  | none => s
  | some node =>
    let resting := Tab.look (fun _ => 0) s.waf.col.rejoin L != 0
    if !resting && s.noMirror L then s.recordsLost
    else
      let B := s.waf.buddy L
      let mark (w : Wafer) : Wafer :=
        let nodes := (List.range w.col.sites.length).filter (fun m => w.combineSite m == L)
        let w := w.setDieInfo node { w.dieInfo node with state := state, reason := reason }
        { w with col := { w.col with rejoin := Tab.drop w.col.rejoin L,
                                     moved := nodes.foldl (fun t m => Tab.put (fun k => k) t m B) w.col.moved } }
      let s := s.onWafer (fun w => if resting then mark w else w.siteGone L mark)
      let s := (s.endRequests L).addFence (dieFence node reason byRibbon)
      (s.onWafer (fun w => ((w.logEntry 2 159 node).latch lveWBlk F.LVE_W_EVT.POOL_CHANGE).afterChange)).siteResetEnds L

/-- Fence an edge die (R58, R158, R179): its counters, stack, ports and spine links are gone. -/
def fenceEdge (s : State) (e reason state : Nat) (byRibbon : Bool) : State :=
  let node := 144 + e
  let s := s.onWafer (fun w =>
    let w := (w.sourceLost e).setDieInfo node { w.dieInfo node with state := state, reason := reason }
    let w := w.imagesOff e
    (List.range 2).foldl (fun w i => if w.spineUp (2 * e + i) then w.retireSpine (2 * e + i) else w) w)
  let s := (s.endEdgeRequests e).addFence (dieFence node reason byRibbon)
  s.onWafer (fun w => (w.activeSites.foldl (fun w x => w.evaluateSite x) (w.logEntry 2 159 node)).afterChange)

/-- Fence a node: a position or 144 + edge die. -/
def fenceNode (s : State) (node reason state : Nat) (byRibbon : Bool) : State :=
  if 144 ≤ node then s.fenceEdge (node - 144) reason state byRibbon
  else match s.waf.logicalOf node with
    | some L => s.fenceSite L reason state byRibbon
    | none => s

/-- A die in service that no route from the root reaches is fenced UNREACHABLE (Table COL-8). -/
def sweep : Nat → State → State
  | 0, s => s
  | f + 1, s =>
    if s.waf.col.phase = 3 || s.waf.col.phase = 4 then
      let r := s.waf.reachable
      match (s.waf.col.sites ++ (List.range 16).map (· + 144)).find? (fun n => (s.waf.dieInfo n).state == 1 && !r.contains n) with
      | some n => sweep f (s.fenceNode n 4 3 false)
      | none => s
    else s

/-- Retire a link (Table LNK-9 steps 6 and 7, R192): a site left without a link is fenced LINKS_LOST. -/
def retireLink (s : State) (k reason : Nat) (byRibbon : Bool) : State :=
  let far := Wafer.farKey k / 4
  let node := k / 4
  let gone := 2 ≤ (s.waf.dieInfo node).state || 2 ≤ (s.waf.dieInfo far).state
  let s := s.onWafer (fun w => w.linkOut k)
  let s := if gone then s else s.addFence (linkFence k reason byRibbon)
  let s := s.onWafer (fun w => (w.logEntry 2 190 k).afterChange)
  let bare := [node, far].filter (fun n => n < 144 && (s.waf.dieInfo n).state == 1 && !s.waf.hasLink n)
  (bare.foldl (fun s n => s.fenceNode n 5 2 false) s).sweep 160

/-! ### Site reset and rejoin (R160, R500, R501, R518, R519) -/

/-- What Unhal restores at a site that has rejoined (R519). -/
def restoreSite (s : State) (L : Nat) : State :=
  (s.onWafer (fun w =>
    let old := w.buddies
    let w := { w with col := { w.col with rejoin := Tab.drop w.col.rejoin L,
                                          heard := Tab.put (fun _ => 0) w.col.heard L w.now } }
    let rings := (List.range 2048).filter (fun r => Tab.look (fun _ => (0 : Word)) w.regs (ringBlk L r + 8) != 0)
    let w := rings.foldl (fun w r =>
      let b := ringBlk L r
      ((w.set b F.QUE_RING_CTRL.ENABLE 1).set b F.QUE_RING_CTRL.ARMED 1).set b F.QUE_RING_CTRL.STALLED 0) w
    let syncs := (List.range 2048).filter (fun j => w.syncLive L j)
    let w := syncs.foldl (fun w j => w.setSync L j poisonVal) w
    let w := (w.twins L).foldl (fun w t => w.copy (hbmAddr t.2.2) (dieAddr L t.1) t.2.1) w
    ((w.rebuddy old none).logEntry 0 519 L).afterChange)).siteResetEnds L

/-- The site's links are sewn again: those that pass come into service, the others stay retired with reason SEWING. -/
def resew (s : State) (node : Nat) (fails : List WireFail) : State :=
  (portsOf node).foldl (fun s d =>
    match neighbour node d with
    | none => s
    | some m =>
      let k := Wafer.portKey node d
      let held := s.sup.fences.find? (fun f => f.kind == 3 && (f.rowEdge, f.col, f.dir) ==
        ((linkFence k 0 false).rowEdge, (linkFence k 0 false).col, (linkFence k 0 false).dir))
      if (s.waf.dieInfo m).state ≠ 1 || held.any (·.byRibbon) then s
      else
        match Wafer.sewLink fails k with
        | some g =>
          (s.onSup (fun p => { p with fences := p.fences.filter (fun f => some f != held) })).onWafer (fun w =>
            (if held.isSome then w.alert 1 else w).linkIn k g)
        | none => (s.onWafer (fun w => w.linkOut k)).addFence (linkFence k 6 false)) s

/-- The rejoin of a site in reset, taken as one step from its tests (R160). One that would end after 8 ms stays until
REJOIN_FAIL. -/
def rejoinSite (s : State) (L : Nat) (x : SewIn) : State :=
  match s.waf.nodeOf L with
  | none => s
  | some node =>
    if 8000 < x.endsUs then s
    else if x.code ≠ 0 || !x.stageOk then (s.fenceSite L 8 2 false).sweep 160
    else
      let s := s.resew node x.wires
      if !s.waf.hasLink node || !s.waf.reachable.contains node then (s.fenceSite L 8 2 false).sweep 160
      else (s.restoreSite L).sweep 160

/-- A site reset begins (R501, R518): 1 HEARTBEAT, 2 ABORT_SLOW, 3 RIBBON. -/
def beginReset (s : State) (L reason : Nat) (r : Option SewIn) : State :=
  if s.noMirror L then s.recordsLost
  else
    let s := s.onWafer (fun w =>
      let w := w.setReg (fltWBlk + 0x10) (BitVec.ofNat 64 (L + reason * 128))
      let w := if reason = 3 then w else w.latch fltWBlk F.FLT_W_EVT.SITE_RESET
      let w := (w.logEntry 2 501 L).siteGone L (fun w =>
        { w with col := { w.col with rejoin := Tab.put (fun _ => 0) w.col.rejoin L (w.now + 1) } })
      w.envelopeNow)
    match r with
    | none => s.onWafer (fun w => w.send (.siteLost L))
    | some x => (s.endRequests L).rejoinSite L x

/-! ### Boot images and Unhal's restart (R152–R154, R522) -/

/-- The 48 MiB of a slot of the acting root's flash. -/
def slotImage (s : State) (slot : Bool) : List Byte :=
  let k := (if s.waf.col.root8 then 16 else 0) + (if slot then 1 else 0)
  (tabGet s.sup.flash k).getD (Config.factoryImage k)

def secMin (s : State) : Nat := s.sup.blown.getD Config.fusedSecVersion

/-- The checks of R153 on an image. -/
def imageVerifies (s : State) (img : List Byte) : Bool :=
  let z (i n : Nat) : Bool := ((img.drop i).take n).all (· == 0)
  let be (i n : Nat) : Nat := fromBE ((img.drop i).take n)
  let len := leAt img 16 4
  leAt img 0 4 == 0x4C484E55 && leAt img 4 2 == 1 && z 6 2 && z 169 7 && z 272 240 &&
  len % 64 == 0 && 64 ≤ len && len ≤ 2 ^ 25 && 512 + len ≤ img.length &&
  sha384 ((img.drop 72).take 97) == (List.range 48).map Config.rootKeyHash &&
  leAt img 12 4 ≤ 63 && s.secMin ≤ leAt img 12 4 &&
  leAt img 72 1 == 4 && ecdsaOk (be 73 48) (be 121 48) (be 176 48) (be 224 48) (sha384 (img.take 176)) &&
  sha384 ((img.drop 512).take len) == (img.drop 24).take 48

/-- A slot verifies; `ok` is what the silicon adds: the flash reads, and the code starts. -/
def slotVerifies (s : State) (slot ok : Bool) : Bool := ok && s.imageVerifies (s.slotImage slot)

/-- Unhal starts from a slot (RIB_ID_BOOT, RIB_ID_UNHAL; Table COL-2 step 9): it serves once it declares readiness. -/
def startUnhal (s : State) (slot : Bool) (tries : Nat) : State :=
  let version := leAt (s.slotImage slot) 8 4
  s.onWafer (fun w =>
    { ((w.setRib32 5 (BitVec.ofNat 32 ((if slot then 1 else 0) + 6))).setRib32 6 (BitVec.ofNat 32 version)) with
      col := { w.col with kick := w.now, boot := { w.col.boot with slot := slot, started := w.now, running := false,
                                                                    ready := false, svcTries := tries } } })

/-- Restart Unhal from NEXT_SLOT, else from the other slot, else reset the wafer with cause SERVICE (R522). `tried`: the
slot NEXT_SLOT has been tried already. -/
def restartUnhal (s : State) (ok tried : Bool) : State :=
  let n := s.sup.nextSlot
  let s := s.onWafer (fun w => { (w.setRib32 5 (w.rib32 5 &&& 3)) with
    col := { w.col with boot := { w.col.boot with running := false } } })
  if !tried && s.slotVerifies n ok then s.startUnhal n 1
  else if s.slotVerifies (!n) ok then (s.startUnhal (!n) 2).onWafer (fun w => { w with col := { w.col with fallback := true } })
  else (s.onSup (fun p => { p with lastReset := 1 })).internalReset

end State

/-! ### Meanings -/

/-- LINK_RETIRE (R190): after the switch and the drain. -/
def execLinkRetire (port : LinkEnd) (s : State) : Host.Outcome State Fault Refusal :=
  .next (match s.waf.endKey port with
    | none => s
    | some k =>
      let p := s.waf.port k
      let q := s.waf.port (Wafer.farKey k)
      let idle := p.held.isEmpty && p.outq.isEmpty && q.held.isEmpty && q.outq.isEmpty
      match p.switchAt with
      | none => s
      | some t =>
        if !(p.state == 5 || p.state == 4) || p.reason = 0 || s.waf.now < t || !s.waf.col.boot.running ||
            !(idle || t + us 200 ≤ s.waf.now) then s
        else
          let s := if idle then s else s.onWafer (fun w => w.linkEvent k F.LNK_EVT.DRAIN_DISCARD)
          s.retireLink k p.reason false)

/-- ROUTE_SWITCH (R148): every router changes bank; declarations that came after the naming go into the next switch. -/
def execRouteSwitch (s : State) : Host.Outcome State Fault Refusal :=
  .next (s.onWafer fun w =>
    match w.col.switchAt with
    | none => w
    | some t =>
      if w.now < t then w
      else
        let again := w.col.again
        let w := { w with col := { w.col with bank := !w.col.bank, switched := some t, switchAt := none, again := false } }
        if again then w.nameSwitch.coverDraining else w)

/-- ABORT_SLOW (R500). -/
def execAbortSlow (site : Fin 128) (rec_ : Fin 1024) (rejoin : Option SewIn) (s : State) : Host.Outcome State Fault Refusal :=
  .next (match s.waf.cmd? site rec_ with
    | some c =>
      match c.aborting with
      | some t =>
        if s.waf.active site && us (s.waf.get (fltBlk site) F.FLT_CFG.ABORT_US) ≤ since t s.waf.now then
          let r := s.beginReset site 2 rejoin
          if r.sup.inReset then r else r.onWafer (fun w => w.latch (fltBlk site) F.FLT_EVT.ABORT_SLOW)
        else s
      | none => s
    | none => s)

/-- SITE_TRIP (R494): a base-die sensor at 105 °C or above. -/
def execSiteTrip (site : Fin 128) (s : State) : Host.Outcome State Fault Refusal :=
  .next (
    let hot := (List.range 8).any (fun i =>
      decide (105 * 16 ≤ signed 16 (getF (s.waf.reg (lveBlk site + 0x20 + 8 * i)) 0 16)))
    if s.waf.active site && hot then (s.fenceSite site 9 2 false).sweep 160 else s)

/-- TRANSFER_TIMEOUT (R499): the request is retired and its command faults, the one whose unit a core runs included; any other
core traps. TRANSFER_US is that of the
requester's site; an edge die has none and uses the default. -/
def execTransferTimeout (who : Requester) (tag : BitVec 12) (s : State) : Host.Outcome State Fault Refusal :=
  .next (match s.waf.out.find? (fun o => o.who == who && o.tag == tag.toNat) with
    | none => s
    | some o =>
      let site := who.die.val
      let lim := if site < 128 then s.waf.get (fltBlk site) F.FLT_CFG.TRANSFER_US else 50
      if o.isWait || since o.since s.waf.now < us lim then s
      else
        let s := s.onWafer (fun w => w.retire who tag.toNat)
        let s := if site < 128 then s.onWafer (fun w => w.latch (fltBlk site) F.FLT_EVT.TRANSFER_TIMEOUT) else s
        match o.cmd.bind (fun x => s.waf.cmd? x.1 x.2) with
        | some c =>
          s.onWafer (fun w => if c.run.isSome then w.faultCmd c { code := 0x161, detail := o.addr.toNat, replay := true } else w)
        | none =>
          let k := who.unit.toNat
          if 128 ≤ site || 96 ≤ k then s
          else
            let c := s.coreAt site k
            match c.wait with
            | some (x, t) =>
              if t ≠ tag.toNat then s
              else if c.draining then s.setCore site k { c with wait := none, draining := false }
              else match s.waf.unitCmd site c with
                | some cmd =>
                  (s.setCore site k { c with wait := none }).onWafer (fun w =>
                    w.faultCmd cmd { code := 0x161, detail := o.addr.toNat, replay := true })
                | none => s.coreTrap site k { c with wait := none } (if coreRow x = .qpop then 5 else 7) o.addr
            | none => s)

/-- HEARTBEAT_CHECK (R501): `beats` are the sites whose heartbeat word has changed since the last check. -/
def execHeartbeatCheck (beats : List (Fin 128)) (rejoin : Option SewIn) (s : State) : Host.Outcome State Fault Refusal :=
  .next (
    let w := s.waf
    if w.now % 10000 ≠ 0 || !(w.col.phase == 3 || w.col.phase == 4) || !w.col.boot.running then s
    else
      let s := s.onWafer (fun w => { w with col := { w.col with
        heard := beats.foldl (fun t b => Tab.put (fun _ => 0) t b.val w.now) w.col.heard } })
      let lim := ms (w.get fltWBlk F.FLT_W_CFG.SITE_MS)
      let late := s.waf.activeSites.filter (fun L => lim ≤ since (Tab.look (fun _ => 0) s.waf.col.heard L) s.waf.now)
      late.foldl (fun s L => if s.waf.active L then s.beginReset L 1 rejoin else s) s)

/-- SITE_LOST (R518): the broadcast reaches the requesters. -/
def execSiteLost (site : Fin 128) (s : State) : Host.Outcome State Fault Refusal :=
  .next (
    let p (m : Msg) : Bool := m == .siteLost site
    if (s.waf.incoming p).isNone then s else (s.onWafer (fun w => w.take p)).endRequests site)

/-- REJOIN_FAIL (R160): a rejoin that has not ended 8 ms after the reset. -/
def execRejoinFail (site : Fin 128) (s : State) : Host.Outcome State Fault Refusal :=
  .next (
    let t := Tab.look (fun _ => 0) s.waf.col.rejoin site
    if t = 0 || since (t - 1) s.waf.now < ms 8 then s else (s.fenceSite site 8 2 false).sweep 160)

/-- TWIN_SET (R19, R502, R515). -/
def execTwinSet (src : Src) (site : Fin 128) (index : Fin 64) (value : BitVec 64) (s : State) : Host.Outcome State Fault Refusal :=
  .next (s.onWafer fun w => if configSrc src && w.active site then (w.twinSet site index value).getD w else w)

/-- SVC_KICK (R522): only Unhal kicks. -/
def execSvcKick (src : Src) (s : State) : Host.Outcome State Fault Refusal :=
  .next (s.onWafer fun w => if src = .unhal then w.kickSvc else w)

/-- SVC_WATCHDOG (R522, R523): a kick is missed, the first one of a restarted Unhal included. -/
def execSvcWatchdog (slotOk : Bool) (s : State) : Host.Outcome State Fault Refusal :=
  .next (
    let w := s.waf
    let tries := w.col.boot.svcTries
    if !(w.col.phase == 3 || w.col.phase == 4) || !(w.col.boot.running || tries != 0) ||
        since w.col.kick w.now < ms (w.get fltWBlk F.FLT_W_CFG.SVC_MS) then s
    else if 2 ≤ tries then (s.onSup (fun p => { p with lastReset := 1 })).internalReset
    else (s.onWafer (fun w => (w.latch fltWBlk F.FLT_W_EVT.SVC_RESTART).logEntry 1 522 tries)).restartUnhal slotOk (tries == 1))

end Sys2Proof.Machine
end

