-- ==== Sys2Proof/Machine/Ports.lean ====
section
/-! DEFINITION. PCIe, Ethernet and HBM ports (spec file 17: R526–R546). -/

namespace Sys2Proof.Machine
namespace Wafer

/-! ### PCIe -/

/-- The volume a VF is bound to (R530). -/
def vfVol (w : Wafer) (vf : Nat) : Option Nat := w.liveVols.find? (fun v => (w.volInfo v).vf == some vf)

/-- The port offers the VF and its link is in L0: a host reaches it (R528). -/
def vfHere (w : Wafer) (e p vf : Nat) : Bool :=
  w.active (128 + e) && w.vfPort vf == some (e, p) && w.flag (pcieBlk e p) F.PRT_PCIE_STAT.LINK_UP

/-- A host request is answered Unsupported Request (Table PRT-2). -/
def urSent (w : Wafer) (e p : Nat) : Wafer := w.latch (pcieBlk e p) F.PRT_PCIE_EVT.UR_SENT

/-- Bytes a request of R526 may carry: reads up to 4,096, writes up to 512; an AtomicOp never. -/
def hostOpLen : HostOp → Option Nat
  | .read n => if n ≤ 4096 then some n else none
  | .write d => if d.length ≤ 512 then some d.length else none
  | .atomic => none

/-- Perform a memory request from PCIe at a wafer address with a volume's authority (R284), or answer Unsupported Request. -/
def hostAccess (w : Wafer) (e p v a : Nat) (op : HostOp) : Wafer :=
  match op, hostOpLen op with
  | .write d, some n => if w.writeStatus (volSrc v) a n = stOk then w.save a d else w.urSent e p
  | .read _, some n => if w.ramStatus (volSrc v) a n false = stOk then w else w.urSent e p
  | _, _ => w.urSent e p

/-- The inbound window of a root port that holds [a, a + n): volume and wafer address (R533). -/
def inWindow (w : Wafer) (e p a n : Nat) : Option (Nat × Nat) :=
  (List.range 8).findSome? (fun k =>
    let b := pcieBlk e p + 0x40 + 0x18 * k
    let base := (w.reg b).toNat
    let len := getF (w.reg (b + 8)) 0 48
    if len ≠ 0 && base ≤ a && a + n ≤ base + len then some (getF (w.reg (b + 8)) 48 6, (w.reg (b + 16)).toNat + (a - base)) else none)

/-- Sub-links of a port in force (R526, R527). -/
def subLinks (w : Wafer) (e p : Nat) : Nat :=
  if w.pcieCfg e p F.PRT_PCIE_CFG.ROLE = 0 then 1 else 2 ^ min 2 (w.pcieCfg e p F.PRT_PCIE_CFG.SPLIT)

/-- A link leaves L0 (R535). -/
def pcieDown (w : Wafer) (e p sub : Nat) : Wafer :=
  let b := pcieBlk e p
  let root := w.pcieCfg e p F.PRT_PCIE_CFG.ROLE == 1
  let up := w.get b F.PRT_PCIE_STAT.UP
  let was := if root then Nat.testBit up sub else w.flag b F.PRT_PCIE_STAT.LINK_UP && sub == 0
  if !was then w
  else
    let mine (o : Nat) : Bool := !root || (w.prt.bridge.any (fun x => x.1 == 2 * e + p && x.2.1 == sub && decide (x.2.2.1 ≤ o) &&
      decide (o < x.2.2.1 + x.2.2.2)))
    let w := if sub = 0 then
      (((w.set b F.PRT_PCIE_STAT.LINK_UP 0).set b F.PRT_PCIE_STAT.RATE 0).set b F.PRT_PCIE_STAT.WIDTH 0).set b F.PRT_PCIE_STAT.FLIT 0
      else w
    let w := if root then w.set b F.PRT_PCIE_STAT.UP (up - 2 ^ sub) else w
    (w.latch b F.PRT_PCIE_EVT.LINK_DOWN).hostErrors (2 * e + p) mine

/-! ### Ethernet: a frame's fields (R536, R538) -/

/-- The 16-bit one's-complement sum of a byte list, folded. -/
def onesSum (l : List Byte) : Nat :=
  let s := (List.range ((l.length + 1) / 2)).foldl (fun a i => a + fromBE (fit 2 ((l.drop (2 * i)).take 2))) 0
  let s := s % 65536 + s / 65536
  s % 65536 + s / 65536

/-- What a frame shows the rules: tag, EtherType, protocol (none: not testable), destination port, payload. -/
structure Frame where
  vlan : Option Nat
  etype : Nat
  proto : Option Nat
  port : Nat
  payload : List Byte
deriving DecidableEq, Repr

/-- IPv6 extension headers. -/
def v6Ext : List Nat := [0, 43, 44, 50, 51, 60, 135, 139, 140]

/-- The transport part: destination port, payload; none: a check fails. `pseudo` is the sum of the pseudo-header. -/
def transport (proto : Nat) (l : List Byte) (pseudo : List Byte) : Option (Nat × List Byte) :=
  let be (i n : Nat) : Nat := fromBE ((l.drop i).take n)
  if proto = 17 then
    let n := be 4 2
    if l.length < 8 || n < 8 || l.length < n then none
    else if be 6 2 ≠ 0 && onesSum (pseudo ++ [0, 17] ++ toBE 2 n ++ l.take n) ≠ 65535 then none
    else some (be 2 2, (l.take n).drop 8)
  else if proto = 6 then
    let h := 4 * (be 12 1 / 16)
    if l.length < 20 || h < 20 || l.length < h then none else some (be 2 2, l.drop h)
  else some (0, l)

/-- Parse a frame, its last four bytes the FCS; none: it fails a check of Table PRT-4. -/
def parseFrame (f : List Byte) : Option Frame :=
  let be (l : List Byte) (i n : Nat) : Nat := fromBE ((l.drop i).take n)
  let tagged := be f 12 2 == 0x8100
  let vlan := if tagged then some (be f 14 2 % 4096) else none
  let at_ := if tagged then 16 else 12
  let et := be f at_ 2
  let l := (f.take (f.length - 4)).drop (at_ + 2)
  let plain (proto : Option Nat) : Option Frame := some { vlan := vlan, etype := et, proto := proto, port := 0, payload := l }
  if f.length < 64 || 9216 < f.length || (tagged && et == 0x8100) then none
  else if et = 0x0800 then
    let h := 4 * (be l 0 1 % 16)
    let n := be l 2 2
    if be l 0 1 / 16 ≠ 4 || h < 20 || n < h || l.length < n || onesSum (l.take h) ≠ 65535 then none
    else if be l 6 2 % 16384 ≠ 0 then plain none
    else
      let proto := be l 9 1
      match transport proto ((l.take n).drop h) ((l.drop 12).take 8) with
      | none => none
      | some x => some { vlan := vlan, etype := et, proto := some proto, port := x.1,
                         payload := if proto = 17 || proto = 6 then x.2 else l }
  else if et = 0x86DD then
    let n := be l 4 2
    let proto := be l 6 1
    if be l 0 1 / 16 ≠ 6 || l.length < 40 + n then none
    else if v6Ext.contains proto then plain none
    else
      match transport proto ((l.drop 40).take n) ((l.drop 8).take 32) with
      | none => none
      | some x => some { vlan := vlan, etype := et, proto := some proto, port := x.1,
                         payload := if proto = 17 || proto = 6 then x.2 else l }
  else plain none

/-- Words 0 and 1 of rule k (Table PRT-6). -/
def ruleWord (w : Wafer) (e k i : Nat) : Word := w.reg (ethRuleKey e k i)

/-- A rule matches a frame of a sub-port (R538). -/
def ruleHits (r : Word) (sub : Nat) (f : Frame) : Bool :=
  let isIp := f.etype == 0x0800 || f.etype == 0x86DD
  getF r 0 1 == 1 && (getF r 57 3 == 7 || getF r 57 3 == sub) &&
  (getF r 3 1 == 0 || f.vlan == some (getF r 4 12)) && getF r 16 16 == f.etype &&
  (!isIp || (f.proto == some (getF r 32 8) &&
    (getF r 56 1 == 1 || ((f.proto == some 17 || f.proto == some 6) && f.port == getF r 40 16))))

/-- The first valid rule, in ascending index, that matches. -/
def ruleFor (w : Wafer) (e sub : Nat) (f : Frame) : Option Nat :=
  (List.range 64).find? (fun k => ruleHits (w.ruleWord e k 0) sub f)

/-! ### Ethernet: placement, holding, PAUSE (R539–R541) -/

/-- What becomes of the frame at the head of its queue. -/
inductive Placed where
  | done (w : Wafer)
  | full

/-- Sub-ports of a mode. -/
def subPorts (m : Nat) : Nat := match m with | 0 => 1 | 1 => 2 | _ => 4
def ethMode (w : Wafer) (e : Nat) : Nat := Tab.look (fun _ => 0) w.prt.mode e

/-- The rule index that stands for Unhal's default ring. -/
abbrev noRule : Nat := 64

/-- Place a frame (R539, R540): RING_OFF, FOREIGN, OVERSIZE, then the full ring's policy (log entry 61). -/
def placeFrame (w : Wafer) (e sub : Nat) (h : Held) : Placed :=
  let b := ethBlk e
  if h.rule = noRule then .done { w with prt := { w.prt with unhal := w.prt.unhal ++ [(e, sub, h.payload)] } }
  else
    let r0 := w.ruleWord e h.rule 0
    let r1 := w.ruleWord e h.rule 1
    let id := getF r1 0 18
    let site := id / 2048
    let k := ringBlk site (id % 2048)
    let off := !w.active site || !w.ringOn k || w.rKind k != 2
    if off then .done (w.bump b F.PRT_ETH_DROP.RING_OFF)
    else if w.rVol k ≠ getF r1 18 6 then .done (w.bump b F.PRT_ETH_DROP2.FOREIGN)
    else if w.rEsize k < h.payload.length + 16 then .done (w.bump b F.PRT_ETH_DROP.OVERSIZE)
    else if w.rSize k ≤ w.rHeld k then
      (if getF r0 1 1 = 1 then .full else .done (w.bump b F.PRT_ETH_DROP.RING_FULL))
    else
      let l := toLE 4 h.payload.length ++ toLE 2 h.rule ++ toLE 1 h.flags ++ [0] ++ toLE 8 h.seen ++ h.payload
      if w.writeStatus (volSrc (w.rVol k)) (w.rSlot k (w.rPI k)) l.length = stOk then .done (w.produce k l) else .done w

def setHeld (w : Wafer) (e sub : Nat) (l : List Held) : Wafer :=
  { w with prt := { w.prt with held := Tab.put (fun _ => []) w.prt.held (4 * e + sub) l } }

/-- Send a PAUSE frame with q quanta; 0 ends the paused state (R541). -/
def sendPause (w : Wafer) (e sub q : Nat) : Wafer :=
  { w with prt := { w.prt with pauses := w.prt.pauses ++ [(e, sub, q)],
                               pausedAt := Tab.put (fun _ => 0) w.prt.pausedAt (4 * e + sub) (if q = 0 then 0 else w.now + 1) } }

/-- The sub-port enters the paused state: its head frame waits. -/
def enterPause (w : Wafer) (e sub : Nat) : Wafer :=
  let x := w.sendPause e sub (w.get (ethBlk e) F.PRT_ETH_CFG.PAUSE_QUANTA)
  { x with prt := { x.prt with pausedAt := Tab.put (fun _ => 0) x.prt.pausedAt (4 * e + sub) (w.now + 1) } }

/-- Frames at the head of a sub-port's queue leave it until one finds its ring full under PAUSE. -/
def drainHeld (w : Wafer) (e sub : Nat) : List Held → Wafer
  | [] => w.setHeld e sub []
  | h :: r =>
    match w.placeFrame e sub h with
    | .full => (w.setHeld e sub (h :: r)).enterPause e sub
    | .done w' => drainHeld w' e sub r

/-- A frame with its stamp applied takes its place (R540, R541). -/
def takeFrame (w : Wafer) (e sub : Nat) (h : Held) : Wafer :=
  let q := w.ethHeld e sub
  if q.isEmpty then
    match w.placeFrame e sub h with
    | .done w' => w'
    | .full =>
      if 2 ^ 22 < w.ethUsed e + h.bytes then w.bump (ethBlk e) F.PRT_ETH_DROP2.BUF_FULL
      else (w.setHeld e sub [h]).enterPause e sub
  else if 2 ^ 22 < w.ethUsed e + h.bytes then w.bump (ethBlk e) F.PRT_ETH_DROP2.BUF_FULL
  else w.setHeld e sub (q ++ [h])

/-- The stamp of a matching frame (R540): applied on arrival, whatever becomes of the frame. -/
def frameStamp (w : Wafer) (e k : Nat) (payload : List Byte) : Bool × Wafer :=
  let o := getF (w.ruleWord e k 1) 32 12
  if getF (w.ruleWord e k 0) 2 1 = 0 then (false, w)
  else if payload.length < o + 16 then (false, w.bump (ethBlk e) F.PRT_ETH_DROP2.STAMP_SHORT)
  else (true, w.stamp e ((payload.drop o).take 16))

/-- Reference cycles of q pause quanta on a sub-port, in thousandths (R541): 0.64 ns at 800 Gb/s. -/
def pauseTime (mode q : Nat) : Nat := q * 64 * subPorts mode

/-- The sub-port exists in the mode in force and has link. -/
def subUp (w : Wafer) (e sub : Nat) : Bool :=
  w.active (128 + e) && decide (sub < subPorts (w.ethMode e)) && Nat.testBit (w.get (ethBlk e) F.PRT_ETH_STAT.UP) sub

end Wafer

/-! ### Meanings -/

/-- PCIE_RESTART (R527): a write of PRT_PCIE_CFG with RESTART set. -/
def execPcieRestart (src : Src) (edge : Fin 16) (port : Fin 2) (value : BitVec 64) (s : State) : Host.Outcome State Fault Refusal :=
  .next (s.onWafer fun w =>
    if w.active (128 + edge.val) then (w.edgeWrite src edge (pcieBlk edge port) (value ||| 0x80)).2 else w)

/-- VF_DOORBELL (R530): one doorbell word in 8 bytes; another size is dropped and counted. -/
def execVfDoorbell (edge : Fin 16) (port : Fin 2) (vf : Fin 64) (data : List Byte) (s : State) : Host.Outcome State Fault Refusal :=
  .next (s.onWafer fun w =>
    match w.vfVol vf with
    | none => w
    | some v =>
      if !w.vfHere edge port vf then w
      else if data.length ≠ 8 then w.bump (pcieBlk edge port) F.PRT_PCIE_CNT.DB_DROPS
      else
        let x : Word := BitVec.ofNat 64 (fromLE data)
        let id := getF x 0 18
        w.doorbell (.vf (Fin.ofNat 64 v)) (id / 2048) (id % 2048) (fun w => w.doorbellWord (id / 2048) (id % 2048) x))

/-- VF_HBM_ACCESS (R530, R531). -/
def execVfHbmAccess (edge : Fin 16) (port : Fin 2) (vf : Fin 64) (offset : Nat) (op : HostOp) (s : State) :
    Host.Outcome State Fault Refusal :=
  .next (s.onWafer fun w =>
    match w.vfVol vf with
    | none => w
    | some v =>
      let win := w.hbmWin v
      if !w.vfHere edge port vf then w
      else
        match Wafer.hostOpLen op with
        | none => w.urSent edge port
        | some n =>
          if win.2 < offset + n || win.2 ≤ offset then w.urSent edge port
          else w.hostAccess edge port v (w.ownAddr (hbmAddr (win.1 + offset))) op)

/-- HOST_COMPLETION (R532): the completions of a device read; one without its request is late. -/
def execHostCompletion (edge : Fin 16) (port : Fin 2) (who : Requester) (tag : BitVec 12) (error : Bool) (data : List Byte) (s : State) :
    Host.Outcome State Fault Refusal :=
  .next (s.onWafer fun w =>
    let b := pcieBlk edge port
    let answered := w.net.any (fun m => match m with | .rsp _ q t _ _ => q == who && t == tag.toNat | _ => false)
    match w.out.find? (fun o => o.who == who && o.tag == tag.toNat) with
    | none => if w.active (128 + edge.val) then w.bump b F.PRT_PCIE_CNT.LATE_CPL else w
    | some o =>
      let a := o.addr.toNat
      if answered || o.kind ≠ some .read || adRegion a ≠ 4 || adDie a ≠ 2 * edge.val + port.val then w
      else if error then (w.bump b F.PRT_PCIE_CNT.HOST_ERRS).send (.rsp .read who tag.toNat stHost [])
      else w.send (.rsp .read who tag.toNat stOk data))

/-- RP_INBOUND (R533): a downstream device's request in root-port role. -/
def execRpInbound (edge : Fin 16) (port : Fin 2) (busAddr : Nat) (op : HostOp) (s : State) : Host.Outcome State Fault Refusal :=
  .next (s.onWafer fun w =>
    let b := pcieBlk edge port
    if !w.active (128 + edge.val) || w.pcieCfg edge port F.PRT_PCIE_CFG.ROLE = 0 || w.get b F.PRT_PCIE_STAT.UP = 0 then w
    else
      match (Wafer.hostOpLen op).bind (fun n => w.inWindow edge port busAddr n) with
      | some x => w.hostAccess edge port x.1 x.2 op
      | none => w.urSent edge port)

/-- MSIX_UNMASK (R534). -/
def execMsixUnmask (vf : Fin 64) (vector : Fin 2048) (s : State) : Host.Outcome State Fault Refusal :=
  .next (s.onWafer fun w =>
    match w.vfVol vf, w.vfPort vf with
    | some _, some q =>
      if !w.vfHere q.1 q.2 vf then w
      else
        let m := w.msixAt vf vector
        let w := w.setMsix vf vector { m with mask := false, pend := false }
        if m.pend then { w with prt := { w.prt with raised := w.prt.raised ++ [(vf.val, vector.val)] } } else w
    | _, _ => w)

/-- FLR (R535): the volume's reset starts with the receipt. -/
def execFlr (vf : Fin 64) (s : State) : Host.Outcome State Fault Refusal :=
  .next (s.onWafer fun w =>
    match w.vfPort vf with
    | none => w
    | some q =>
      if !w.vfHere q.1 q.2 vf then w
      else
        let w := w.latch (pcieBlk q.1 q.2) F.PRT_PCIE_EVT.FLR
        match w.vfVol vf with | some v => (w.opReset v).2 | none => w)

/-- PCIE_LINK_DOWN (R535). -/
def execPcieLinkDown (edge : Fin 16) (port : Fin 2) (sub : Fin 4) (s : State) : Host.Outcome State Fault Refusal :=
  .next (s.onWafer fun w => if w.active (128 + edge.val) then w.pcieDown edge port sub else w)

/-- PCIE_LINK_UP (R526, R527): a link trains into L0 within its settings. -/
def execPcieLinkUp (edge : Fin 16) (port : Fin 2) (sub : Fin 4) (rate : Fin 6) (width : BitVec 5) (flit : Bool) (s : State) :
    Host.Outcome State Fault Refusal :=
  .next (s.onWafer fun w =>
    let b := pcieBlk edge port
    let n := w.subLinks edge port
    let ok := [1, 2, 4, 8, 16].contains width.toNat && width.toNat * n ≤ 16 && rate ≤ w.pcieCfg edge port F.PRT_PCIE_CFG.MAX_RATE &&
      decide (sub.val < n) && (rate.val != 5 || flit)
    if !w.active (128 + edge.val) || !ok then w
    else
      let w := if w.pcieCfg edge port F.PRT_PCIE_CFG.ROLE = 1 then
        w.set b F.PRT_PCIE_STAT.UP (w.get b F.PRT_PCIE_STAT.UP ||| 2 ^ sub.val) else w
      if sub.val ≠ 0 then w
      else (((w.set b F.PRT_PCIE_STAT.RATE rate).set b F.PRT_PCIE_STAT.WIDTH width.toNat).set b F.PRT_PCIE_STAT.LINK_UP 1).set b
        F.PRT_PCIE_STAT.FLIT (if flit then 1 else 0))

/-- ETH_FRAME (R536–R541): checks, rules, stamp, placement. -/
def execEthFrame (edge : Fin 16) (sub : Fin 4) (frame : List Byte) (fcsGood : Bool) (s : State) : Host.Outcome State Fault Refusal :=
  .next (s.onWafer fun w =>
    let b := ethBlk edge
    if !w.subUp edge sub then w
    else if !fcsGood then w.bump b F.PRT_ETH_DROP.CHECK
    else
      let w := w.count b F.PRT_ETH_RX.FRAMES
      match Wafer.parseFrame frame with
      | none => w.bump b F.PRT_ETH_DROP.CHECK
      | some f =>
        let held (k fl : Nat) (l : List Byte) : Held :=
          { rule := k, payload := l, seen := w.refcount (128 + edge.val), bytes := frame.length, flags := fl }
        match w.ruleFor edge sub f with
        | none => w.takeFrame edge sub (held Wafer.noRule 0 frame)
        | some k =>
          let st := w.frameStamp edge k f.payload
          st.2.takeFrame edge sub (held k ((if st.1 then 1 else 0) + (if f.vlan.isSome then 2 else 0)) f.payload))

/-- ETH_PAUSE_FRAME (R536): the sub-port sends nothing until the pause ends. -/
def execEthPauseFrame (edge : Fin 16) (sub : Fin 4) (quanta : BitVec 16) (s : State) : Host.Outcome State Fault Refusal :=
  .next (s.onWafer fun w =>
    if !w.subUp edge sub then w
    else
      let t := if quanta = 0 then 0 else w.now + (Wafer.pauseTime (w.ethMode edge) quanta.toNat + 999) / 1000
      { w with prt := { w.prt with quietTo := Tab.put (fun _ => 0) w.prt.quietTo (4 * edge + sub) t } })

/-- HELD_FRAME_WRITE (R541): the head frame is written once its ring has room, with a PAUSE of 0 quanta; frames behind it
follow. -/
def execHeldFrameWrite (edge : Fin 16) (sub : Fin 4) (s : State) : Host.Outcome State Fault Refusal :=
  .next (s.onWafer fun w =>
    match w.ethHeld edge sub with
    | [] => w
    | h :: r =>
      if !w.active (128 + edge.val) then w
      else
        match w.placeFrame edge sub h with
        | .full => w
        | .done w' => (w'.sendPause edge sub 0).drainHeld edge sub r)

/-- PAUSE_REFRESH (R541): half of the pause time has passed in the paused state. -/
def execPauseRefresh (edge : Fin 16) (sub : Fin 4) (s : State) : Host.Outcome State Fault Refusal :=
  .next (s.onWafer fun w =>
    let t := Tab.look (fun _ => 0) w.prt.pausedAt (4 * edge + sub)
    let q := w.get (ethBlk edge) F.PRT_ETH_CFG.PAUSE_QUANTA
    if t = 0 || (w.ethHeld edge sub).isEmpty || !w.active (128 + edge.val) ||
        since (t - 1) w.now * 2000 < Wafer.pauseTime (w.ethMode edge) q then w
    else w.enterPause edge sub)

/-- ETH_RESTART (R537): a write of PRT_ETH_CFG with RESTART set. -/
def execEthRestart (src : Src) (edge : Fin 16) (value : BitVec 64) (s : State) : Host.Outcome State Fault Refusal :=
  .next (s.onWafer fun w =>
    if w.active (128 + edge.val) then (w.edgeWrite src edge (ethBlk edge) (value ||| 4)).2 else w)

/-- HBM_REFRESH (R543): a refresh changes no contents; its interval is timing. -/
def execHbmRefresh (_edge : Fin 16) (s : State) : Host.Outcome State Fault Refusal := .next s

/-- HBM_TEMP_SAMPLE (R543): the temperature chooses the interval. -/
def execHbmTempSample (edge : Fin 16) (temp : BitVec 8) (s : State) : Host.Outcome State Fault Refusal :=
  .next (s.onWafer fun w =>
    let b := hbmBlk edge
    let t := temp.toNat
    if w.active (128 + edge.val) then
      (w.set b F.PRT_HBM_STAT.TEMP t).set b F.PRT_HBM_STAT.REFRESH (if t ≤ 85 then 0 else if t ≤ 95 then 1 else 2)
    else w)

/-- PATROL_SCRUB (R544, Table MEM-7): a word of the stack, by its index. -/
def execPatrolScrub (edge : Fin 16) (word : Nat) (finds : RowCheck) (s : State) : Host.Outcome State Fault Refusal :=
  .next (s.onWafer fun w =>
    let b := hbmBlk edge
    match hbmKey edge (8 * word) with
    | none => w
    | some o =>
      if !w.stackUp edge then w
      else
        match finds with
        | .clean => w
        | .corrected => w.bump b F.PRT_HBM_ECC.CORRECTED
        | .uncorrectable =>
          let w := w.bump b F.PRT_HBM_ECC.UNCORRECTED
          if w.poisoned (hbmAddr o) 8 then w else (w.poisonWord (hbmAddr o)).bump b F.PRT_HBM_REPAIR.PENDING)

/-- ETH_LINK_DOWN (Table PRT-5). -/
def execEthLinkDown (edge : Fin 16) (sub : Fin 4) (s : State) : Host.Outcome State Fault Refusal :=
  .next (s.onWafer fun w =>
    let b := ethBlk edge
    let up := w.get b F.PRT_ETH_STAT.UP
    if w.active (128 + edge.val) && Nat.testBit up sub then w.set b F.PRT_ETH_STAT.UP (up - 2 ^ sub.val) else w)

/-- ETH_LINK_UP (Tables PRT-4, PRT-5): a sub-port of the mode in force gains link. -/
def execEthLinkUp (edge : Fin 16) (sub : Fin 4) (s : State) : Host.Outcome State Fault Refusal :=
  .next (s.onWafer fun w =>
    let b := ethBlk edge
    if w.active (128 + edge.val) && decide (sub.val < Wafer.subPorts (w.ethMode edge)) then
      w.set b F.PRT_ETH_STAT.UP (w.get b F.PRT_ETH_STAT.UP ||| 2 ^ sub.val)
    else w)

end Sys2Proof.Machine
end

