-- ==== Sys2Proof/Machine/Unhal.lean ====
section
/-! DEFINITION. Calls of Unhal through the mailboxes (R279, R280): how a call is heard and answered, and the calls of spec
files 01 to 08, 10, 13 and 15 to 17. Those that load banks and images are in Images. -/

namespace Sys2Proof.Machine

/-- Return codes of Table QUE-15. -/
abbrev cDone : Nat := 0
abbrev cNotAuth : Nat := 1
abbrev cBadArg : Nat := 3
abbrev cNoRes : Nat := 4
abbrev cUnavail : Nat := 5
abbrev cBusy : Nat := 6
abbrev cNotOwner : Nat := 7

/-- The code of an access status: a fenced target is UNAVAILABLE, every other failure a bad argument. -/
def codeOf (st : Nat) : Nat := if st = stOk then cDone else if st = stFenced then cUnavail else cBadArg

namespace Wafer

/-! ### Hearing and answering (R271–R274, R279) -/

/-- The volume that calls through a channel: secure channels belong to volume 0. -/
def callerOf (w : Wafer) (e ch : Nat) : Nat := if ch < 16 then 0 else w.get (chanBlk e ch) F.QUE_MBX_CFG.VOLUME

/-- RIB_VOL_AUTH of a volume; volume 0 needs none (R279). -/
def volAuth (w : Wafer) (v : Nat) : Bool := v == 0 || (w.rib32 (0x42 + v / 32)).getLsbD (v % 32)

/-- A channel in use: the ribbon's own, or one that is bound. -/
def chanUsed (w : Wafer) (e ch : Nat) : Bool := mbxRibbon e ch || w.flag (chanBlk e ch) F.QUE_MBX_CFG.BOUND

/-- The COMMAND of the request posted. -/
def postedCall (w : Wafer) (e ch : Nat) : Nat :=
  let b := dirBlk e ch false
  if w.mbxForm e ch true then w.get b F.QUE_MBX_HDR.COMMAND else w.get b F.QUE_MBX_WORD.WORD / 65536

/-- Unhal takes the request. On an EMPTY direction the client posts it first (log entry 62); a direction that holds another
message discards it with OVERRUN: none. -/
def hearCall (w : Wafer) (e ch num : Nat) (args : List Nat) : Option Wafer :=
  match w.mbxState e ch false with
  | 0 =>
    let w := if w.mbxForm e ch true then w.mbxGo e ch false args.length num
      else w.mbxPost e ch false (BitVec.ofNat 64 (num * 65536 + args.headD 0 % 65536))
    some (w.mbxTake e ch false)
  | 1 => if w.postedCall e ch = num then some (w.mbxTake e ch false) else none
  | _ => none

/-- The call ends: ACK under RETURN, and the REPLY, once its direction is EMPTY. -/
def answerCall (w : Wafer) (e ch num code : Nat) (res : List Nat) : Wafer :=
  if !w.chanUsed e ch then w
  else
    let w := if w.mbxState e ch false = 2 then w.mbxAck e ch false code else w
    let r : Reply := { edge := e, ch := ch, cmd := num, words := code :: res }
    if w.mbxState e ch true = 0 then w.postReply r else { w with que := { w.que with replies := w.que.replies ++ [r] } }

end Wafer

/-- An Unhal call: its number, the words of its long form, whether it is a configuration call, and what it does for the
calling volume: return code, results, state. The form is checked first, then authority, then the phase (log entry 63). The
call waits while its edge die is out of service, Unhal does not run or the channel is not in use. -/
def unhalCall (via : Via) (num : Nat) (args : List Nat) (config : Bool) (s : State) (f : Nat → State → Nat × List Nat × State) :
    Host.Outcome State Fault Refusal :=
  let e := via.edge.val
  let ch := via.ch.val
  .next (
    if !s.waf.active (128 + e) || !s.waf.col.boot.running || !s.waf.chanUsed e ch then s
    else
      match s.waf.hearCall e ch num args with
      | none => s.onWafer (fun w => w.mbxOverrun e ch false)
      | some w =>
        let s := s.onWafer (fun _ => w)
        let v := w.callerOf e ch
        let r : Nat × List Nat × State :=
          if !w.mbxForm e ch true && (args.length ≠ 1 || 65536 ≤ args.headD 0) then (cBadArg, [], s)
          else if config && !w.volAuth v then (cNotAuth, [], s)
          else if !(w.col.phase == 3 || w.col.phase == 4) then (cUnavail, [], s)
          else f v s
        r.2.2.onWafer (fun w => w.answerCall e ch num r.1 r.2.1))

/-- A call that works on the wafer alone. -/
def onWaf (f : Nat → Wafer → Nat × List Nat × Wafer) (v : Nat) (s : State) : Nat × List Nat × State :=
  let r := f v s.waf
  (r.1, r.2.1, s.onWafer (fun _ => r.2.2))

namespace Wafer

/-- What rules a site argument out: not numbered, or not in the caller's span; fenced or in rejoin. -/
def siteCode (w : Wafer) (v site : Nat) : Nat :=
  if w.col.sites.length ≤ site || !w.inSpan v site then cBadArg else if !w.active site then cUnavail else cDone

/-- The same for a site that need not lie in the caller's span. -/
def anySite (w : Wafer) (site : Nat) : Nat :=
  if w.col.sites.length ≤ site then cBadArg else if !w.active site then cUnavail else cDone

/-- Copy data into the caller's buffer. -/
def toBuffer (w : Wafer) (v addr len : Nat) (data : List Byte) : Nat × List Nat × Wafer :=
  if len < data.length then (cBadArg, [], w)
  else
    let st := w.writeStatus (volSrc v) addr data.length
    if st = stOk then (cDone, [], w.save addr data) else (codeOf st, [], w)

/-- The lowest of n places that is free, or the one named if it is free. -/
def pickFree (n pick : Nat) (free : Nat → Bool) : Option Nat :=
  if pick < n && free pick then some pick else (List.range n).find? free

/-! ### Sync objects named by a reference of R442 -/

def syncRefWafer (r : Nat) : Nat := r / 2 ^ 18 % 16

/-- What rules a signal out before the work it ends. -/
def refCode (w : Wafer) (v r : Nat) : Nat :=
  let site := r % 2 ^ 18 / 2048
  let obj := r % 2048
  if 2 ^ 22 ≤ r then cBadArg
  else if syncRefWafer r ≠ w.col.wafer then (if w.col.shelf.contains (syncRefWafer r) then cDone else cUnavail)
  else if w.anySite site ≠ cDone then w.anySite site
  else if !w.syncLive site obj then cBadArg
  else if !queAllowed (volSrc v) (w.syncVol site obj) then cNotOwner else cDone

/-- Signal it; an object of another wafer changes there. -/
def refAdd (w : Wafer) (r : Nat) (x : BitVec 64) : Wafer :=
  if syncRefWafer r = w.col.wafer then (w.syncAddAt (r % 2 ^ 18 / 2048) (r % 2048) x).2 else w

/-! ### Folio (R24, R35, R41) -/

/-- The stall threshold that Unhal gives a source by default: three advance intervals where they are more than 5 ms apart. -/
def stallDefault (nominal : Nat) : Nat :=
  if nominal = 0 || 2 ^ 32 ≤ 5000 * nominal then 5000 else min (2 ^ 32 - 1) ((3 * 2 ^ 32 + nominal - 1) / nominal)

def folBind (w : Wafer) (ctr source input window : Nat) (stall : Option Nat) (nominal : Nat) : Nat × Wafer :=
  let st := stall.getD (stallDefault nominal)
  if 256 ≤ ctr || 8 ≤ source || 2 ≤ input || 32 ≤ window || 2 ^ 32 ≤ st then (cBadArg, w)
  else if !w.edgeUp (ctr / 16) then (cUnavail, w)
  else
    match w.writeCntCfg ctr (BitVec.ofNat 64 (source + input * 8 + 14 * 2 ^ 8 + window * 2 ^ 16 + st * 2 ^ 32)) with
    | none => (cBadArg, w)
    | some w => (cDone, (w.writeNomrate ctr (BitVec.ofNat 64 nominal)).loadPosition ctr 0)

/-- An alarm of a site is free while ENABLE is 0. -/
def almFree (w : Wafer) (site a : Nat) : Bool := !w.flag (almBlk site a) F.FOL_ALM_CFG.ENABLE

/-- Arm a free alarm on the target's site (R41): volumes use alarms 0–239, volume 0 alarms 240–255. -/
def armAlarm (w : Wafer) (v ctr pos action target value dir period istep pick : Nat) : Nat × List Nat × Wafer :=
  let site := target / 2048
  let ok (c : Nat) : Nat × List Nat × Wafer := (c, [], w)
  if 256 ≤ ctr || 2 ^ 48 ≤ pos || 2 < action || 2 ^ 18 ≤ target || 2 ^ 32 ≤ value || 2 < dir || 2 ^ 47 ≤ period || 256 ≤ istep then
    ok cBadArg
  else if w.siteCode v site ≠ cDone then ok (w.siteCode v site)
  else
    let base := if v = 0 then 240 else 0
    let used := ((List.range 240).filter (fun a => !w.almFree site a && w.get (almBlk site a) F.FOL_ALM_CFG.VOLUME == v)).length
    if v ≠ 0 && w.volField v 0 37 8 ≤ used then ok cNoRes
    else
      match pickFree (if v = 0 then 16 else 240) (pick - base) (fun i => w.almFree site (base + i)) with
      | none => ok cNoRes
      | some i =>
        let a := base + i
        let put (w : Wafer) (k x : Nat) : Wafer := (w.writeAlarm .unhal site a k (BitVec.ofNat 64 x)).getD w
        let w := put (put (put (put w 4 0xFF1E) 1 pos) 2 period) 3 (target + istep * 2 ^ 18 + value * 2 ^ 32)
        (cDone, [site * 256 + a],
          put w 0 (1 + dir * 2 + (if period = 0 then 0 else 8) + action * 16 + ctr * 256 + v * 65536))

def disarmAlarm (w : Wafer) (v site a : Nat) : Nat × List Nat × Wafer :=
  let k := almBlk site a
  if w.anySite site ≠ cDone then (w.anySite site, [], w)
  else if w.get k F.FOL_ALM_CFG.VOLUME ≠ v then (cNotOwner, [], w)
  else (cDone, [], (w.writeAlarm .unhal site a 0 (putF (w.reg k) 0 1 0)).getD w)

/-! ### Memory (R207, R230, R231, R282) -/

/-- SRAM in use on a site, as offsets from `base`. -/
def sramUsed (w : Wafer) (site base : Nat) : List (Nat × Nat) :=
  (w.que.allocs.filter (fun a => a.kind != 1 && adDie a.addr.toNat == site && base ≤ adOff a.addr.toNat)).map
    (fun a => (adOff a.addr.toNat - base, a.bytes))

/-- The lowest free offset of a volume's SRAM window on a site. -/
def sramRoom (w : Wafer) (v site n : Nat) : Option Nat :=
  (lowestRun (w.sramUsed site (w.sramWin v).1) (w.sramWin v).2 n).map ((w.sramWin v).1 + ·)

/-- Offsets within a stack that an HBM range takes, and the stack (none: every stack). -/
def stackRange (a n : Nat) : Option Nat × Nat × Nat :=
  let o := adOff a
  if adDie a = 16 then (none, o / 65536 * 4096, (o + n + 65535) / 65536 * 4096) else (some (adDie a), o, o + n)

/-- Two HBM ranges meet. -/
def hbmMeet (a n b m : Nat) : Bool :=
  let x := stackRange a n
  let y := stackRange b m
  (x.1.isNone || y.1.isNone || x.1 == y.1) && decide (x.2.1 < y.2.2) && decide (y.2.1 < x.2.2)

/-- Memory of a kind (0 SRAM, 1 HBM, 2 HBM_INTERLEAVED) may be placed at an address. -/
def placeFits (w : Wafer) (v kind site n a : Nat) : Bool :=
  let o := adOff a
  let win := w.hbmWin v
  let free := (w.que.allocs.filter (·.kind == 1)).all (fun x => !hbmMeet a n x.addr.toNat x.bytes)
  adWafer a == w.col.wafer &&
  (match kind with
   | 0 => adRegion a == 0 && adDie a == site && within (w.sramWin v) o n &&
       (w.sramUsed site 0).all (fun u => o + n ≤ u.1 || u.1 + u.2 ≤ o)
   | 1 => adRegion a == 2 && decide (adDie a < 16) && w.stackUp (adDie a) && within (win.1 / 16, win.2 / 16) o n && free
   | _ => adRegion a == 2 && adDie a == 16 && within win o n && free)

/-- Where Unhal places it: where the operand says, else at the lowest place that is free (the spec leaves the choice open). -/
def placeFor (w : Wafer) (v kind site n place : Nat) : Option Nat :=
  let base := w.col.wafer * 2 ^ 56
  let ends := (w.que.allocs.filter (·.kind == 1)).map (fun x => stackRange x.addr.toNat x.bytes)
  if w.placeFits v kind site n place then some place
  else
    match kind with
    | 0 => (w.sramRoom v site n).map (fun o => base + dieAddr site o)
    | 1 =>
      let offs := (w.hbmWin v).1 / 16 :: ends.map (·.2.2)
      ((List.range 16).flatMap (fun d => offs.map (fun o => base + 2 * 2 ^ 60 + dieAddr d o))).find? (w.placeFits v 1 site n)
    | _ =>
      let offs := (w.hbmWin v).1 :: ends.map (fun x => x.2.2 * 16)
      (offs.map (fun o => base + hbmAddr o)).find? (w.placeFits v 2 site n)

def addAlloc (w : Wafer) (v kind a n : Nat) : Wafer :=
  if n = 0 then w
  else { w with que := { w.que with allocs := w.que.allocs ++ [{ vol := v, kind := kind, addr := BitVec.ofNat 64 a, bytes := n }] } }

def memAlloc (w : Wafer) (v kind n site place : Nat) : Nat × List Nat × Wafer :=
  if 2 < kind || n = 0 then (cBadArg, [], w)
  else if kind = 0 && w.siteCode v site ≠ cDone then (w.siteCode v site, [], w)
  else
    match w.placeFor v kind site n place with
    | none => (cNoRes, [], w)
    | some a => (cDone, [a], w.addAlloc v (if kind = 0 then 0 else 1) a n)

def memFree (w : Wafer) (v a : Nat) : Nat × List Nat × Wafer :=
  let p (x : Alloc) : Bool := x.addr.toNat == a && x.kind != 2
  match w.que.allocs.find? p with
  | none => (cBadArg, [], w)
  | some x => if x.vol ≠ v then (cNotOwner, [], w) else (cDone, [], { w with que := { w.que with allocs := dropFirst p w.que.allocs } })

/-- The copy, access by access, and its signal. A fault ends it; what has been written stays. -/
def memCopy (w : Wafer) (p : Sup) (v dest source n ref : Nat) (x : BitVec 64) : Nat × List Nat × Wafer :=
  if w.refCode v ref ≠ cDone then (w.refCode v ref, [], w)
  else
    let r := moveBytes p (volSrc v) (volSrc v) (n + 2) w source dest n
    if r.1 = stOk then (cDone, [], r.2.2.refAdd ref x) else (codeOf r.1, [], r.2.2)

/-! ### Rings and sync objects (R236, R238–R243, R264, R282) -/

/-- Rings of a volume on a site. -/
def ringCount (w : Wafer) (v site : Nat) : Nat := ((w.ringsOf v).filter (fun x => x.1 == site)).length

/-- A context no one has written. -/
def ringUnused (w : Wafer) (site r : Nat) : Bool := w.reg (ringBlk site r + 8) == 0 && w.reg (ringBlk site r) == 0

/-- The context of a new ring. COMPLETION rings are consumed by doorbell, the others by QPOP or a claim (log entry 64). -/
def ringWord (v kind size esize cr : Nat) : Nat :=
  kind + size * 2 ^ 2 + esize * 2 ^ 7 + v * 2 ^ 12 + (if kind = 1 then 2 ^ 21 else 0) + cr * 2 ^ 48

def ringCreate (w : Wafer) (v kind site size esize mem cr pick : Nat) : Nat × List Nat × Wafer :=
  let no (c : Nat) : Nat × List Nat × Wafer := (c, [], w)
  let cb := ringBlk site (cr % 2048)
  let quota := if v = 0 then 64 else w.volField v 0 0 11
  if w.siteCode v site ≠ cDone then no (w.siteCode v site)
  else if 3 < kind || 20 < size || 16 < esize then no cBadArg
  else if kind = 0 && (cr / 2048 ≠ site || w.rKind cb ≠ 1 || w.ringUnused site (cr % 2048)) then no cBadArg
  else if kind = 0 && w.rVol cb ≠ v then no cNotOwner
  else
    let n := 2 ^ (size + esize)
    let st := w.writeStatus (volSrc v) mem n
    if st ≠ stOk then no (codeOf st)
    else
      match pickFree 2048 pick (w.ringUnused site) with
      | none => no cNoRes
      | some r =>
        let b := ringBlk site r
        let x := ringWord v kind size esize (if kind = 0 then cr % 2048 else 0)
        let w' := (w.setReg b (BitVec.ofNat 64 mem)).setReg (b + 8) (BitVec.ofNat 64 x)
        if !w'.ringFits b then no cBadArg
        else if quota ≤ w.ringCount v site then no cNoRes
        else
          let w' := w'.save mem (List.replicate n 0)
          let w' := (((w'.setReg (b + 0x10) 0).setReg (b + 0x18) 0).setReg (b + 0x20) 0).setReg (b + 0x28) 0
          (cDone, [site * 2048 + r], w'.ringCtrl site r (BitVec.ofNat 64 (x + 2 ^ 18)))

/-- A ring in use: not empty, commands of it without a final completion, slots reserved, or named by a work ring. -/
def ringInUse (w : Wafer) (site r : Nat) : Bool :=
  let b := ringBlk site r
  w.rHeld b != 0 || w.get b F.QUE_RING_RESV.RESERVED != 0 || w.cmds.any (fun c => c.home == site && c.ring == r) ||
  w.que.bursts.any (fun x => x.site == site && x.ring == r) ||
  (w.rKind b == 1 && (List.range 2048).any (fun i => !w.ringUnused site i && w.rKind (ringBlk site i) == 0 &&
    w.get (ringBlk site i) F.QUE_RING_CTRL.COMPL_RING == r))

def ringDestroy (w : Wafer) (v id : Nat) : Nat × List Nat × Wafer :=
  let site := id / 2048
  let r := id % 2048
  if 2 ^ 18 ≤ id || w.anySite site ≠ cDone then (if 2 ^ 18 ≤ id then cBadArg else w.anySite site, [], w)
  else if w.ringUnused site r then (cBadArg, [], w)
  else if w.rVol (ringBlk site r) ≠ v then (cNotOwner, [], w)
  else if w.ringInUse site r then (cBusy, [], w)
  else (cDone, [], w.clearRegs (fun k => ringBlk site r ≤ k && k < ringBlk site r + 64))

def syncAlloc (w : Wafer) (v site : Nat) (initial : BitVec 64) (pick : Nat) : Nat × List Nat × Wafer :=
  let quota := if v = 0 then 256 else w.volField v 0 11 11
  let used := ((w.syncsOf v).filter (fun x => x.1 == site && w.syncLive x.1 x.2)).length
  if w.siteCode v site ≠ cDone then (w.siteCode v site, [], w)
  else if initial = poisonVal then (cBadArg, [], w)
  else if quota ≤ used then (cNoRes, [], w)
  else
    match pickFree 2048 pick (fun j => !w.syncLive site j) with
    | none => (cNoRes, [], w)
    | some j =>
      (cDone, [site * 2048 + j], (w.setReg (syncCtlBlk site j) (BitVec.ofNat 64 (v + 2 ^ 6))).setReg (syncKey site j) initial)

/-- A wait that is still registered wakes POISONED before the object returns to the pool (R269). -/
def syncFree (w : Wafer) (v id : Nat) : Nat × List Nat × Wafer :=
  let site := id / 2048
  let j := id % 2048
  if 2 ^ 18 ≤ id || w.anySite site ≠ cDone then (if 2 ^ 18 ≤ id then cBadArg else w.anySite site, [], w)
  else if !w.syncLive site j then (cBadArg, [], w)
  else if w.syncVol site j ≠ v then (cNotOwner, [], w)
  else (cDone, [], ((w.setSync site j poisonVal).setReg (syncCtlBlk site j) 0).setReg (syncKey site j) 0)

/-! ### Volumes (R286, R288, R304, R307) -/

/-- The code of an operation of Table VOL-4. -/
def volCode (r : Nat × Wafer) : Nat × List Nat × Wafer :=
  ((if r.1 = 0 then cDone else if r.1 = vNoResource then cNoRes else cBadArg), [], r.2)

/-- An operation on a volume that a call may name. -/
def volCall (w : Wafer) (vol : Nat) (f : Wafer → Nat × Wafer) : Nat × List Nat × Wafer :=
  if vol = 0 || 64 ≤ vol then (cBadArg, [], w) else volCode (f w)

/-- Set a host window; a length of 0 leaves it out of force. -/
def setHostwin (w : Wafer) (vol i port base len wr : Nat) : Nat × List Nat × Wafer :=
  if vol = 0 || 64 ≤ vol || !w.liveVol vol || 4 ≤ i || 32 ≤ port || base % 4096 ≠ 0 || 2 ^ 48 ≤ base || len % 4096 ≠ 0 ||
      2 ^ 48 ≤ len || 1 < wr then (cBadArg, [], w)
  else
    let b := hostwinBlk vol i
    let w := w.setReg b (BitVec.ofNat 64 (base + port * 2 ^ 48 + (if len = 0 then 0 else 2 ^ 63)))
    (cDone, [], { w.setReg (b + 8) (BitVec.ofNat 64 (len + wr * 2 ^ 48)) with que := { w.que with hostwinAt := w.now } })

/-- The result of `unhal_vol_query`: profile words, VOL_WIN words, VF with [6] valid, LOST (log entry 65). -/
def volReport (w : Wafer) (vol : Nat) : List Byte :=
  let i := w.volInfo vol
  ((List.range 4).flatMap (fun k => toLE 8 (i.prof.getD k 0).toNat)) ++
  ((List.range 4).flatMap (fun k => toLE 8 (w.reg (volwinKey vol k)).toNat)) ++
  toLE 8 (match i.vf with | some f => f + 64 | none => 0) ++ toLE 8 i.lost

def volQuery (w : Wafer) (v vol addr len : Nat) : Nat × List Nat × Wafer :=
  if 64 ≤ vol || !(vol == 0 || w.liveVol vol) then (cBadArg, [], w)
  else if v ≠ 0 && vol ≠ v then (cNotOwner, [], w)
  else w.toBuffer v addr len (w.volReport vol)

/-! ### Engines, cores, leave (R366, R448, R495) -/

/-- The accumulator view of an engine (R366). -/
def viewBytes (w : Wafer) (site e : Nat) : List Byte :=
  let m := w.engineMat site e
  (List.range 2048).flatMap (fun i =>
    toLE 8 (match m with
      | none => 0
      | some m => let x := m.1.cellAt m.2 (i / 256) (i % 256 / 16) (i % 16); x.1 + MatIn.imageFlags x.2 * 2 ^ 32))

/-- Halt, copy the view, resume (R366, R367). -/
def matDump (w : Wafer) (v site e addr len : Nat) : Nat × List Nat × Wafer :=
  if w.anySite site ≠ cDone then (w.anySite site, [], w)
  else if 8 ≤ e then (cBadArg, [], w)
  else
    let w := w.haltEngine site e
    let r := w.toBuffer v addr len (w.viewBytes site e)
    (r.1, [], r.2.2.resumeEngine site e)

/-- Registers copied in the order of their table. -/
def regBytes (w : Wafer) (site : Nat) (offs : List Nat) : List Byte := offs.flatMap (fun o => toLE 8 (w.siteWord site o).toNat)

/-- Table COR-9, word by word in its order. -/
def coreRegs : List Nat :=
  [0x00F0000E0000, 0x00F0000E0008, 0x00F0000E0010] ++
  (List.range 12).flatMap (fun c => (List.range 3).map (fun i => 0x00F0000E0100 + 0x20 * c + 8 * i))

/-- Tables LVE-4 and LVE-5, word by word in their order. -/
def leaveBytes (w : Wafer) (p : Sup) (site : Nat) : List Byte :=
  w.regBytes site ((List.range 12).map (fun i => 0x00F000130000 + 8 * i)) ++
  (List.range 5).flatMap (fun i => toLE 8 (w.edgeWord p (w.actingRoot - 128) (lveWBlk + 8 * i)).toNat)

/-! ### Twin ranges (R515) -/

/-- A range lies in the caller's SRAM window; 64 MiB is the most a site's ranges may hold; a length of 0 ends the range. -/
def twinCall (w : Wafer) (v site n off len : Nat) : Nat × List Nat × Wafer :=
  let k := fltBlk site + 0x20 + 0x10 * n
  let old := w.reg k
  let taken := getF old 63 1 == 1 && !within (w.sramWin v) (getF old 0 32) (getF old 32 31)
  let others := sumOf (((List.range 64).filter (fun i => i != n && getF (w.reg (fltBlk site + 0x20 + 0x10 * i)) 63 1 == 1)).map
    (fun i => getF (w.reg (fltBlk site + 0x20 + 0x10 * i)) 32 31))
  if 64 ≤ n then (cBadArg, [], w)
  else if w.siteCode v site ≠ cDone then (w.siteCode v site, [], w)
  else if taken then (cNotOwner, [], w)
  else if len = 0 then (cDone, [], (w.twinSet site n 0).getD w)
  else if !within (w.sramWin v) off len then (cBadArg, [], w)
  else if 0x4000000 < others + len then (cNoRes, [], w)
  else
    match w.twinSet site n (BitVec.ofNat 64 (off + len * 2 ^ 32 + 2 ^ 63)) with
    | some x => (cDone, [], x)
    | none => (cBadArg, [], w)

/-! ### Ports (R527, R533, R536, R539) -/

/-- A port takes a role and a split, and trains again. -/
def pcieRole (w : Wafer) (port role split : Nat) : Nat × List Nat × Wafer :=
  let e := port / 2
  let p := port % 2
  let x := putF (putF (w.reg (pcieBlk e p)) 0 1 role) 4 2 split
  if 32 ≤ port || 2 ≤ role || 4 ≤ split then (cBadArg, [], w)
  else if !w.active (128 + e) then (cUnavail, [], w)
  else if !w.pcieCfgOk e p x then (cBadArg, [], w)
  else (cDone, [], ((w.setReg (pcieBlk e p) x)).restartPcie e p)

/-- Blocks come from a shelf behind a root port into the caller's memory. Without data of `blocks` logical blocks of 512 or
4,096 bytes the shelf has not delivered. -/
def nvmeRead (w : Wafer) (v port blocks dest ref : Nat) (x : BitVec 64) (data : List Byte) : Nat × List Nat × Wafer :=
  let b := pcieBlk (port / 2) (port % 2)
  let st := w.writeStatus (volSrc v) dest data.length
  if 32 ≤ port || blocks = 0 then (cBadArg, [], w)
  else if !w.active (128 + port / 2) then (cUnavail, [], w)
  else if w.pcieCfg (port / 2) (port % 2) F.PRT_PCIE_CFG.ROLE = 0 then (cBadArg, [], w)
  else if w.refCode v ref ≠ cDone then (w.refCode v ref, [], w)
  else if w.get b F.PRT_PCIE_STAT.UP = 0 || !(data.length == 512 * blocks || data.length == 4096 * blocks) then (cUnavail, [], w)
  else if st ≠ stOk then (codeOf st, [], w)
  else (cDone, [], (w.save dest data).refAdd ref x)

/-- Unhal writes a parse rule: `match` is word 0 of Table PRT-6 but for its POLICY (log entry 66). A ring takes rules of one
port only (R539). -/
def ethRule (w : Wafer) (v port k word0 ring off policy : Nat) : Nat × List Nat × Wafer :=
  let site := ring / 2048
  let b := ringBlk site (ring % 2048)
  let old0 := w.reg (ethRuleKey port k 0)
  let old1 := w.reg (ethRuleKey port k 1)
  let elsewhere := (List.range 16).any (fun e => e != port && (List.range 64).any (fun i =>
    getF (w.reg (ethRuleKey e i 0)) 0 1 == 1 && getF (w.reg (ethRuleKey e i 1)) 0 18 == ring))
  if 16 ≤ port || 64 ≤ k || 2 ^ 60 ≤ word0 || 2 ^ 18 ≤ ring || 4096 ≤ off || 2 ≤ policy then (cBadArg, [], w)
  else if !w.active (128 + port) then (cUnavail, [], w)
  else if w.anySite site ≠ cDone then (w.anySite site, [], w)
  else if getF old0 0 1 = 1 && getF old1 18 6 ≠ v then (cNotOwner, [], w)
  else if w.rKind b ≠ 2 || w.ringUnused site (ring % 2048) then (cBadArg, [], w)
  else if w.rVol b ≠ v then (cNotOwner, [], w)
  else if elsewhere then (cBadArg, [], w)
  else
    let w := w.setReg (ethRuleKey port k 1) (BitVec.ofNat 64 (ring + v * 2 ^ 18 + off * 2 ^ 32))
    (cDone, [], w.setReg (ethRuleKey port k 0) (putF (BitVec.ofNat 64 word0) 1 1 policy))

/-- A flow: its number is the lowest that is free. -/
def ethFlow (w : Wafer) (v port sub mac : Nat) (ip : List Byte) (src dst : Nat) : Nat × List Nat × Wafer :=
  if 16 ≤ port || subPorts (w.ethMode port) ≤ sub || 2 ^ 48 ≤ mac || !(ip.length == 4 || ip.length == 16) || 65536 ≤ src ||
      65536 ≤ dst then (cBadArg, [], w)
  else if !w.active (128 + port) then (cUnavail, [], w)
  else
    let n := ((List.range (w.prt.flows.length + 1)).find? (fun i => !w.prt.flows.any (·.id == i))).getD 0
    let f : Flow := { id := n, vol := v, edge := port, sub := sub, mac := mac, ip := ip, src := src, dst := dst }
    (cDone, [n], { w with prt := { w.prt with flows := w.prt.flows ++ [f] } })

/-- One datagram: what is sent is recorded from the destination MAC on, without the fields that only the port knows (its own
addresses, checksums, FCS). -/
def ethSend (w : Wafer) (v flow addr len ref : Nat) (x : BitVec 64) : Nat × List Nat × Wafer :=
  match w.prt.flows.find? (·.id == flow) with
  | none => (cBadArg, [], w)
  | some f =>
    let st := w.readStatus (volSrc v) addr len
    if f.vol ≠ v then (cNotOwner, [], w)
    else if 9216 < len + (if f.ip.length = 4 then 46 else 66) then (cBadArg, [], w)
    else if w.refCode v ref ≠ cDone then (w.refCode v ref, [], w)
    else if st ≠ stOk then (codeOf st, [], w)
    else if !w.subUp f.edge f.sub then (cUnavail, [], w)
    else
      let l := toBE 6 f.mac ++ f.ip ++ toBE 2 f.src ++ toBE 2 f.dst ++ w.load addr len
      (cDone, [], ({ w with prt := { w.prt with sent := w.prt.sent ++ [(f.edge, f.sub, l)] } }).refAdd ref x)

end Wafer

namespace State

/-- A snapshot of Table MOD-2. -/
def modBytes (s : State) : List Byte := (List.range 8).flatMap (fun i => toLE 8 (if i = 2 then s.sup.iin else s.sup.reg (8 * i)).toNat)

/-- A new image is verified, then written to the slot of both flashes (R153). -/
def bootUpdate (s : State) (v slot addr len : Nat) : Nat × List Nat × State :=
  let st := s.waf.readStatus (volSrc v) addr len
  if 2 ≤ slot || len < 512 || 48 * 2 ^ 20 < len then (cBadArg, [], s)
  else if st ≠ stOk then (codeOf st, [], s)
  else
    let img := s.waf.load addr len
    if !s.imageVerifies img then (cBadArg, [], s)
    else (cDone, [], s.onSup (fun p => { p with flash := tabSet (tabSet p.flash slot (some img)) (16 + slot) (some img) }))

/-- The fused minimum rises to a version, and never falls (R155). -/
def commitVersion (s : State) (n : Nat) : Nat × List Nat × State :=
  if 63 < n then (cBadArg, [], s) else (cDone, [], s.onSup (fun p => { p with blown := some (max s.secMin n) }))

end State

/-! ### Meanings -/

/-- UNHAL_FOL_BIND (R24). -/
def execUnhalFolBind (via : Via) (ctr source input : BitVec 64) (windowLog2 stallUs nominal : Option (BitVec 64)) (s : State) :
    Host.Outcome State Fault Refusal :=
  let n (o : Option (BitVec 64)) (d : Nat) : Nat := (o.map (·.toNat)).getD d
  unhalCall via 0x0101 [ctr.toNat, source.toNat, input.toNat, n windowLog2 16, n stallUs 5000, n nominal 0] true s (onWaf fun _ w =>
    let r := w.folBind ctr.toNat source.toNat input.toNat (n windowLog2 16) (stallUs.map (·.toNat)) (n nominal 0)
    (r.1, [], r.2))

/-- UNHAL_FOL_ALARM_ARM (R41): INDEX_STEP is 1 by default for a periodic DOORBELL alarm, else 0. -/
def execUnhalFolAlarmArm (via : Via) (ctr position action target value : BitVec 64) (direction period istep : Option (BitVec 64))
    (pick : Nat) (s : State) : Host.Outcome State Fault Refusal :=
  let n (o : Option (BitVec 64)) (d : Nat) : Nat := (o.map (·.toNat)).getD d
  let st := n istep (if action = 2 && n period 0 ≠ 0 then 1 else 0)
  unhalCall via 0x0102 [ctr.toNat, position.toNat, action.toNat, target.toNat, value.toNat, n direction 0, n period 0, st] false s
    (onWaf fun v w => w.armAlarm v ctr.toNat position.toNat action.toNat target.toNat value.toNat (n direction 0) (n period 0) st pick)

/-- UNHAL_FOL_ALARM_DISARM (R41). -/
def execUnhalFolAlarmDisarm (via : Via) (site : Fin 128) (alarm : Fin 256) (s : State) : Host.Outcome State Fault Refusal :=
  unhalCall via 0x0103 [site.val * 256 + alarm.val] false s (onWaf fun v w => w.disarmAlarm v site alarm)

/-- UNHAL_MOD_STATUS (R68). -/
def execUnhalModStatus (via : Via) (buffer length : BitVec 64) (s : State) : Host.Outcome State Fault Refusal :=
  unhalCall via 0x0201 [buffer.toNat, length.toNat] false s (fun v s =>
    onWaf (fun v w => w.toBuffer v buffer.toNat length.toNat s.modBytes) v s)

/-- UNHAL_BOOT_UPDATE (R153). -/
def execUnhalBootUpdate (via : Via) (slot image length : BitVec 64) (s : State) : Host.Outcome State Fault Refusal :=
  unhalCall via 0x0401 [slot.toNat, image.toNat, length.toNat] true s (fun v s =>
    s.bootUpdate v slot.toNat image.toNat length.toNat)

/-- UNHAL_BOOT_COMMIT_VERSION (R155). -/
def execUnhalBootCommitVersion (via : Via) (version : BitVec 64) (s : State) : Host.Outcome State Fault Refusal :=
  unhalCall via 0x0402 [version.toNat] true s (fun _ s => s.commitVersion version.toNat)

/-- UNHAL_MEM_ALLOC (R207). -/
def execUnhalMemAlloc (via : Via) (kind bytes site place : BitVec 64) (s : State) : Host.Outcome State Fault Refusal :=
  unhalCall via 0x0601 [kind.toNat, bytes.toNat, site.toNat] false s (onWaf fun v w =>
    w.memAlloc v kind.toNat bytes.toNat site.toNat place.toNat)

/-- UNHAL_MEM_FREE (R207). -/
def execUnhalMemFree (via : Via) (address : BitVec 64) (s : State) : Host.Outcome State Fault Refusal :=
  unhalCall via 0x0602 [address.toNat] false s (onWaf fun v w => w.memFree v address.toNat)

/-- UNHAL_MEM_FLUSH (R230): the flush starts; FLUSH_DONE ends it and answers the call. -/
def execUnhalMemFlush (via : Via) (site : BitVec 64) (s : State) : Host.Outcome State Fault Refusal :=
  let e := via.edge.val
  let ch := via.ch.val
  let w := s.waf
  if w.active (128 + e) && w.col.boot.running && w.chanUsed e ch && (w.col.phase == 3 || w.col.phase == 4) &&
      (w.mbxForm e ch true || site.toNat < 65536) && w.anySite site.toNat = cDone then
    .next (s.onWafer fun w =>
      match w.hearCall e ch 0x0603 [site.toNat] with
      | none => w.mbxOverrun e ch false
      | some w =>
        let w := w.startFlush site.toNat
        { w with que := { w.que with flushes := w.que.flushes ++ [(site.toNat, e, ch)] } })
  else unhalCall via 0x0603 [site.toNat] false s (onWaf fun _ w => (w.anySite site.toNat, [], w))

/-- FLUSH_DONE (R230): every PUT_ACK has arrived; the calls that wait for it end. A site lost meanwhile is UNAVAILABLE. -/
def execFlushDone (site : Fin 128) (s : State) : Host.Outcome State Fault Refusal :=
  .next (s.onWafer fun w =>
    let up := w.active site
    if up && (!w.flag (memBlk site) F.MEM_STAT.FLUSH_BUSY || w.coh.wback.any (fun e => e.1 / 2 ^ 28 == site.val)) then w
    else
      let mine := w.que.flushes.filter (fun x => x.1 == site.val)
      let w := if up then w.set (memBlk site) F.MEM_STAT.FLUSH_BUSY 0 else w
      let w := { w with que := { w.que with flushes := w.que.flushes.filter (fun x => x.1 != site.val) } }
      mine.foldl (fun w x => w.answerCall x.2.1 x.2.2 0x0603 (if up then cDone else cUnavail) []) w)

/-- UNHAL_MEM_COPY (R231). -/
def execUnhalMemCopy (via : Via) (dest source bytes sync value : BitVec 64) (s : State) : Host.Outcome State Fault Refusal :=
  unhalCall via 0x0604 [dest.toNat, source.toNat, bytes.toNat, sync.toNat, value.toNat] false s (fun v s =>
    onWaf (fun v w => w.memCopy s.sup v dest.toNat source.toNat bytes.toNat sync.toNat value) v s)

/-- UNHAL_RING_CREATE (R239). -/
def execUnhalRingCreate (via : Via) (kind site sizeLog2 esizeLog2 memory completionRing : BitVec 64) (pick : Nat) (s : State) :
    Host.Outcome State Fault Refusal :=
  unhalCall via 0x0701 [kind.toNat, site.toNat, sizeLog2.toNat, esizeLog2.toNat, memory.toNat, completionRing.toNat] false s
    (onWaf fun v w =>
      w.ringCreate v kind.toNat site.toNat sizeLog2.toNat esizeLog2.toNat memory.toNat completionRing.toNat pick)

/-- UNHAL_RING_DESTROY (R239). -/
def execUnhalRingDestroy (via : Via) (ring : BitVec 64) (s : State) : Host.Outcome State Fault Refusal :=
  unhalCall via 0x0702 [ring.toNat] false s (onWaf fun v w => w.ringDestroy v ring.toNat)

/-- UNHAL_SYNC_ALLOC (R264). -/
def execUnhalSyncAlloc (via : Via) (site initial : BitVec 64) (pick : Nat) (s : State) : Host.Outcome State Fault Refusal :=
  unhalCall via 0x0703 [site.toNat, initial.toNat] false s (onWaf fun v w => w.syncAlloc v site.toNat initial pick)

/-- UNHAL_SYNC_FREE (R264). -/
def execUnhalSyncFree (via : Via) (id : BitVec 64) (s : State) : Host.Outcome State Fault Refusal :=
  unhalCall via 0x0704 [id.toNat] false s (onWaf fun v w => w.syncFree v id.toNat)

/-- UNHAL_VOL_CREATE (R288): a VF of 64 or more asks for none. -/
def execUnhalVolCreate (via : Via) (vol profile vf : BitVec 64) (s : State) : Host.Outcome State Fault Refusal :=
  unhalCall via 0x0801 [vol.toNat, profile.toNat, vf.toNat] true s (onWaf fun _ w =>
    w.volCall vol.toNat (fun w => w.opCreate vol.toNat profile.toNat (if vf.toNat < 64 then some vf.toNat else none)))

/-- UNHAL_VOL_RESET (R304). -/
def execUnhalVolReset (via : Via) (vol : BitVec 64) (s : State) : Host.Outcome State Fault Refusal :=
  unhalCall via 0x0802 [vol.toNat] true s (onWaf fun _ w => w.volCall vol.toNat (fun w => w.opReset vol.toNat))

/-- UNHAL_VOL_DESTROY (R290). -/
def execUnhalVolDestroy (via : Via) (vol : BitVec 64) (s : State) : Host.Outcome State Fault Refusal :=
  unhalCall via 0x0803 [vol.toNat] true s (onWaf fun _ w => w.volCall vol.toNat (fun w => w.opDestroy vol.toNat))

/-- UNHAL_VOL_HOSTWIN (R286). -/
def execUnhalVolHostwin (via : Via) (vol index port base length write : BitVec 64) (s : State) : Host.Outcome State Fault Refusal :=
  unhalCall via 0x0804 [vol.toNat, index.toNat, port.toNat, base.toNat, length.toNat, write.toNat] true s (onWaf fun _ w =>
    w.setHostwin vol.toNat index.toNat port.toNat base.toNat length.toNat write.toNat)

/-- UNHAL_VOL_QUERY (R307). -/
def execUnhalVolQuery (via : Via) (vol buffer length : BitVec 64) (s : State) : Host.Outcome State Fault Refusal :=
  unhalCall via 0x0805 [vol.toNat, buffer.toNat, length.toNat] false s (onWaf fun v w =>
    w.volQuery v vol.toNat buffer.toNat length.toNat)

/-- UNHAL_MAT_DUMP (R366). -/
def execUnhalMatDump (via : Via) (site engine buffer length : BitVec 64) (s : State) : Host.Outcome State Fault Refusal :=
  unhalCall via 0x0A01 [site.toNat, engine.toNat, buffer.toNat, length.toNat] true s (onWaf fun v w =>
    w.matDump v site.toNat engine.toNat buffer.toNat length.toNat)

/-- UNHAL_CORE_QUERY (R448). -/
def execUnhalCoreQuery (via : Via) (site buffer length : BitVec 64) (s : State) : Host.Outcome State Fault Refusal :=
  unhalCall via 0x0D01 [site.toNat, buffer.toNat, length.toNat] false s (onWaf fun v w =>
    if w.anySite site.toNat ≠ cDone then (w.anySite site.toNat, [], w)
    else w.toBuffer v buffer.toNat length.toNat (w.regBytes site.toNat Wafer.coreRegs))

/-- UNHAL_LVE_STATUS (R495). -/
def execUnhalLveStatus (via : Via) (site buffer length : BitVec 64) (s : State) : Host.Outcome State Fault Refusal :=
  unhalCall via 0x0F01 [site.toNat, buffer.toNat, length.toNat] false s (fun v s => onWaf (fun v w =>
    if w.anySite site.toNat ≠ cDone then (w.anySite site.toNat, [], w)
    else w.toBuffer v buffer.toNat length.toNat (w.leaveBytes s.sup site.toNat)) v s)

/-- UNHAL_FLT_TWIN (R515). -/
def execUnhalFltTwin (via : Via) (site index offset bytes : BitVec 64) (s : State) : Host.Outcome State Fault Refusal :=
  unhalCall via 0x1001 [site.toNat, index.toNat, offset.toNat, bytes.toNat] false s (onWaf fun v w =>
    w.twinCall v site.toNat index.toNat offset.toNat bytes.toNat)

/-- UNHAL_PRT_PCIE_ROLE (R527). -/
def execUnhalPrtPcieRole (via : Via) (port role split : BitVec 64) (s : State) : Host.Outcome State Fault Refusal :=
  unhalCall via 0x1101 [port.toNat, role.toNat, split.toNat] true s (onWaf fun _ w => w.pcieRole port.toNat role.toNat split.toNat)

/-- UNHAL_NVME_READ (R533): namespace and LBA choose the data, which is the shelf's. -/
def execUnhalNvmeRead (via : Via) (port nspace lba blocks dest sync value : BitVec 64) (data : List Byte) (s : State) :
    Host.Outcome State Fault Refusal :=
  unhalCall via 0x1102 [port.toNat, nspace.toNat, lba.toNat, blocks.toNat, dest.toNat, sync.toNat, value.toNat] false s
    (onWaf fun v w => w.nvmeRead v port.toNat blocks.toNat dest.toNat sync.toNat value data)

/-- UNHAL_ETH_RULE (R539). -/
def execUnhalEthRule (via : Via) (port rule word0 ring stampOffset policy : BitVec 64) (s : State) : Host.Outcome State Fault Refusal :=
  unhalCall via 0x1103 [port.toNat, rule.toNat, word0.toNat, ring.toNat, stampOffset.toNat, policy.toNat] false s (onWaf fun v w =>
    w.ethRule v port.toNat rule.toNat word0.toNat ring.toNat stampOffset.toNat policy.toNat)

/-- UNHAL_ETH_FLOW (R536). -/
def execUnhalEthFlow (via : Via) (port subport dstMac : BitVec 64) (dstIp : List Byte) (srcPort dstPort : BitVec 64) (s : State) :
    Host.Outcome State Fault Refusal :=
  unhalCall via 0x1104 ([port.toNat, subport.toNat, dstMac.toNat] ++ (if dstIp.length = 16 then [leAt dstIp 0 8, leAt dstIp 8 8]
      else [fromLE dstIp]) ++ [srcPort.toNat, dstPort.toNat]) false s (onWaf fun v w =>
    w.ethFlow v port.toNat subport.toNat dstMac.toNat dstIp srcPort.toNat dstPort.toNat)

/-- UNHAL_ETH_SEND (R536). -/
def execUnhalEthSend (via : Via) (flow buffer length sync value : BitVec 64) (s : State) : Host.Outcome State Fault Refusal :=
  unhalCall via 0x1105 [flow.toNat, buffer.toNat, length.toNat, sync.toNat, value.toNat] false s (onWaf fun v w =>
    w.ethSend v flow.toNat buffer.toNat length.toNat sync.toNat value)

end Sys2Proof.Machine
end

