-- ==== Sys2Proof/Machine/Images.lean ====
section
/-! DEFINITION. Calls of Unhal that load banks, rotation groups and ensemble images (R331, R394–R396, R403, R410–R412, R451,
R453–R455, R458). -/

namespace Sys2Proof.Machine
namespace Wafer

/-! ### Banks (R394–R396, R410–R412) -/

/-- The absolute bank of a relative one in the caller's run on a site, or the code that rules it out: a bank of a rotation
group, or one with a move or a commit under way, is in use. -/
def callBank (w : Wafer) (v site rel : Nat) : Except Nat Nat :=
  let b := (w.bankWin v).1 + rel
  if w.siteCode v site ≠ cDone then .error (w.siteCode v site)
  else if (w.bankWin v).2 ≤ rel then .error cBadArg
  else if (w.rotOf site b).isSome || (w.moveAt site b).isSome || w.flag (bankBlk site b) F.ASC_PAIR_STAT.BUSY then .error cBusy
  else .ok b

/-- WIDTH code of an entry of u units. -/
def widthCode (u : Nat) : Nat := match u with | 1 => 0 | 2 => 1 | _ => 2

/-- The rows of an entry of u units: bytes 0–27 of each as given, the metadata word as R395 asks. -/
def entryRows (u : Nat) (l : List Byte) : List (List Byte) :=
  (List.range u).map (fun i => fit 28 ((l.drop (32 * i)).take 28) ++ toLE 4 (1 + widthCode u * 2 + i * 8))

/-- Rows written in one slot (R411): staged, their targets set, committed. -/
def pairRows (w : Wafer) (site b : Nat) (l : List (Nat × List Byte)) : Wafer :=
  let k := bankBlk site b
  let stage (w : Wafer) (i : Nat) (row : List Byte) : Wafer :=
    (List.range 4).foldl (fun w q => w.setReg (stageRowKey site b i + 8 * q) (BitVec.ofNat 64 (leAt row (8 * q) 8))) w
  let w := (List.range l.length).foldl (fun w i => stage w i (l.getD i (0, [])).2) w
  let tgt (j : Nat) : Nat :=
    sumOf ((List.range 4).map (fun i => match l[4 * j + i]? with | some x => (0x8000 + x.1) * 2 ^ (16 * i) | none => 0))
  let w := (w.setReg (k + 0x1018) (BitVec.ofNat 64 (tgt 0))).setReg (k + 0x1020) (BitVec.ofNat 64 (tgt 1))
  (w.set k F.ASC_PAIR_STAT.BUSY 1).pairApply site b

/-- Rows h to h + u − 1 with what they become. -/
def at_ (h : Nat) (rows : List (List Byte)) : List (Nat × List Byte) :=
  (List.range rows.length).map (fun i => (h + i, rows.getD i []))

/-- Entries in order from row 0, with a hole of entry width after every `spacing` entries (R394). Rows past them keep what
they hold (log entry 67). -/
def ascLoad (w : Wafer) (v site rel addr len count u spacing : Nat) : Nat × List Nat × Wafer :=
  match w.callBank v site rel with
  | .error c => (c, [], w)
  | .ok b =>
    let n := 32 * u * count
    let st := w.readStatus (volSrc v) addr n
    if !(u == 1 || u == 2 || u == 4) || len < n then (cBadArg, [], w)
    else if 4096 < u * (count + (if spacing = 0 then 0 else count / spacing)) then (cNoRes, [], w)
    else if st ≠ stOk && n ≠ 0 then (codeOf st, [], w)
    else
      let img := w.load addr n
      let hole := List.replicate u (List.replicate 32 (0 : Byte))
      let rows := (List.range count).flatMap (fun i =>
        entryRows u ((img.drop (32 * u * i)).take (32 * u)) ++ (if spacing ≠ 0 && (i + 1) % spacing == 0 then hole else []))
      (cDone, [], w.putRows site b 0 rows.flatten)

/-- A fingerprint search block (R403): S = 1, 96-bit keys from the start of the record, BEST, THUMB_EN. -/
def groupBlock (first banks : Nat) (ranks : List (BitVec 4)) : List Byte :=
  let nib (b : Nat) : Nat := if first ≤ b && b < first + banks then (ranks.getD (b - first) 0).toNat else 0
  toLE 1 1 ++ toLE 1 0 ++ toLE 1 1 ++ toLE 1 0 ++ toLE 2 1 ++ toLE 1 banks ++ toLE 1 0 ++ toLE 1 first ++ toLE 1 0 ++ toLE 2 0 ++
  toLE 8 0 ++ toLE 4 0 ++ toLE 2 96 ++ toLE 2 0 ++ toLE 2 0 ++ toLE 2 0 ++
  (List.range 32).flatMap (fun i => toLE 1 (nib (2 * i) + 16 * nib (2 * i + 1)))

def ascGroup (w : Wafer) (v addr len first banks : Nat) (ranks : List (BitVec 4)) : Nat × List Nat × Wafer :=
  if banks = 0 || 64 < banks || (w.bankWin v).2 < first + banks || addr % 64 ≠ 0 || ranks.length ≠ banks then (cBadArg, [], w)
  else w.toBuffer v addr len (groupBlock first banks ranks)

/-- Steps of a move until it ends. -/
def runMove : Nat → Wafer → Nat → Nat → Wafer
  | 0, w, _, _ => w
  | f + 1, w, site, b => if (w.moveAt site b).isSome then runMove f (w.moveStep site b) site b else w

/-- Where an insertion goes, and the block move that makes its hole: first, last, toward lower rows. -/
structure Ins where
  row : Nat
  move : Option (Nat × Nat × Bool)
deriving DecidableEq, Repr

/-- The placing of R410's basic control: the hole just ahead; else the nearest hole that a uniform run of entries leads to,
the one with fewer entries to move, toward higher rows on a tie. -/
def insertAt (m : Memory) (site b u p : Nat) : Option Ins :=
  let valid := validRows m site b
  let hole (h : Nat) : Bool := h + u ≤ 4096 && !valid.any (fun r => h ≤ r && r < h + u)
  let above := ((List.range (p / u)).map (fun i => p - u - i * u)).find? hole
  let below := ((List.range ((4096 - p) / u)).map (fun i => p + i * u)).find? hole
  let up (h : Nat) : Option (Nat × Ins) :=
    if h + u = p then some (0, { row := h, move := none })
    else if uniformRows m site b (h + u) p u then some ((p - h) / u - 1, { row := p - u, move := some (h + u, p - u, true) }) else none
  let down (h : Nat) : Option (Nat × Ins) :=
    if h = p then some (0, { row := p, move := none })
    else if uniformRows m site b p h u then some ((h - p) / u, { row := p, move := some (p, h - u, false) }) else none
  match above.bind up, below.bind down with
  | some x, some y => if x.2.move.isNone then some x.2 else if x.1 < y.1 then some x.2 else some y.2
  | some x, none => some x.2
  | none, some y => some y.2
  | none, none => none

def ascInsert (w : Wafer) (v site rel p : Nat) (entry : List Byte) : Nat × List Nat × Wafer :=
  let u := entry.length / 32
  match w.callBank v site rel with
  | .error c => (c, [], w)
  | .ok b =>
    if !(u == 1 || u == 2 || u == 4) || entry.length ≠ 32 * u || p % u ≠ 0 || 4096 < p then (cBadArg, [], w)
    else
      match insertAt (bankCells w site b) site b u p with
      | none => (cNoRes, [], w)
      | some x =>
        let w := match x.move with
          | some m => runMove 4097 (w.moveStart site b m.1 m.2.1 m.2.2 (widthCode u)) site b
          | none => w
        (cDone, [x.row], w.pairRows site b (at_ x.row (entryRows u entry)))

/-- The rows of a deleted entry are zeroed in one slot (log entry 44). -/
def ascDelete (w : Wafer) (v site rel row : Nat) : Nat × List Nat × Wafer :=
  match w.callBank v site rel with
  | .error c => (c, [], w)
  | .ok b =>
    match (if row < 4096 then entryAt (bankCells w site b) site b row else none) with
    | none => (cBadArg, [], w)
    | some u => (cDone, [], w.pairRows site b (at_ row (List.replicate u (List.replicate 32 0))))

def ascReplace (w : Wafer) (v site rel row : Nat) (entry : List Byte) : Nat × List Nat × Wafer :=
  match w.callBank v site rel with
  | .error c => (c, [], w)
  | .ok b =>
    match (if row < 4096 then entryAt (bankCells w site b) site b row else none) with
    | none => (cBadArg, [], w)
    | some u => if entry.length ≠ 32 * u then (cBadArg, [], w) else (cDone, [], w.pairRows site b (at_ row (entryRows u entry)))

/-! ### Rotation groups (R331) -/

/-- Banks of a site that slots hold, within the caller's run and from its start. -/
def banksUsed (w : Wafer) (v site : Nat) : List (Nat × Nat) :=
  let rot := (List.range 16).flatMap (fun g =>
    let k := rotBlk site g
    let n := w.get k F.CMD_ROT_BANKS.BANKS
    if n = 0 then [] else [(w.get k F.CMD_ROT_BANKS.HALF_A, n), (w.get k F.CMD_ROT_BANKS.HALF_B, n)])
  let img := (w.asc.ens.filter (fun e => e.2.first ≤ site && site < e.2.first + e.2.sites && e.2.banks != 0)).map
    (fun e => (e.2.bank, e.2.banks * e.2.replicas))
  ((rot ++ img).filter (fun u => (w.bankWin v).1 ≤ u.1)).map (fun u => (u.1 - (w.bankWin v).1, u.2))

/-- The lowest free run of n banks of the caller on a site. -/
def bankRoom (w : Wafer) (v site n : Nat) : Option Nat :=
  (lowestRun (w.banksUsed v site) (w.bankWin v).2 n).map ((w.bankWin v).1 + ·)

/-- Take SRAM on a site for Unhal's own use of a volume: address and wafer. -/
def takeSram (w : Wafer) (v site n : Nat) : Option (Nat × Wafer) :=
  (w.sramRoom v site n).map (fun o => (w.ownAddr (dieAddr site o), w.addAlloc v 2 (w.ownAddr (dieAddr site o)) n))

/-- Give it back. -/
def dropSram (w : Wafer) (a : Nat) : Wafer :=
  { w with que := { w.que with allocs := w.que.allocs.filter (fun x => !(x.kind == 2 && x.addr.toNat == a)) } }

/-- Reserve a slot of a site: two halves of banks, two page areas (R331). -/
def rotReserve (w : Wafer) (v site g banks sram stride image : Nat) : Option Wafer := do
  let k := rotBlk site g
  let a ← w.bankRoom v site banks
  let w := w.setReg (k + 8) (BitVec.ofNat 64 (a + a * 2 ^ 8 + banks * 2 ^ 16))
  let b ← w.bankRoom v site banks
  let w := w.set k F.CMD_ROT_BANKS.HALF_B b
  let x ← w.takeSram v site sram
  let y ← x.2.takeSram v site sram
  return (((y.2.setReg (k + 0x10) (BitVec.ofNat 64 x.1)).setReg (k + 0x18) (BitVec.ofNat 64 y.1)).setReg (k + 0x20)
    (BitVec.ofNat 64 (sram + stride * 2 ^ 32))).setReg (k + 0x28) (BitVec.ofNat 64 image)

/-- Some site of the span holds the slot. -/
def slotTaken (w : Wafer) (v g : Nat) : Bool :=
  (w.spanSites v).any (fun s => w.get (rotBlk s g) F.CMD_ROT_BANKS.BANKS != 0 || w.get (ensBlk s g) F.ENS_SLOT_RESLEN.BYTES != 0 ||
    w.flag (ensBlk s g) F.ENS_SLOT_CFG.VALID)

/-- Sites of the span in service. -/
def spanUp (w : Wafer) (v : Nat) : List Nat := (w.spanSites v).filter w.active

/-- Sites [first, first + n) all lie in the span; and all are in service. -/
def sitesCode (w : Wafer) (v first n : Nat) : Nat :=
  if !(w.inSpan v first && w.inSpan v (first + n - 1)) || w.col.sites.length < first + n then cBadArg
  else if !((List.range n).all (fun i => w.active (first + i))) then cUnavail else cDone

/-- Create a rotation group: reserve on every site of the span, load member j with page j, start (R331). -/
def rotCreate (w : Wafer) (v g first members image sram stride banks : Nat) : Nat × List Nat × Wafer :=
  let st := w.readStatus (volSrc v) image (members * stride)
  if 16 ≤ g || members < 2 || 128 < members || banks = 0 || 32 < banks || stride % 4096 ≠ 0 || 2 ^ 32 ≤ stride ||
      stride < banks * 0x20000 + sram then (cBadArg, [], w)
  else if w.sitesCode v first members ≠ cDone then (w.sitesCode v first members, [], w)
  else if w.slotTaken v g then (cBusy, [], w)
  else if st ≠ stOk then (codeOf st, [], w)
  else
    match (w.spanUp v).foldl (fun (o : Option Wafer) s => o.bind (fun w => w.rotReserve v s g banks sram stride image)) (some w) with
    | none => (cNoRes, [], w)
    | some w =>
      (cDone, [], (List.range members).foldl (fun w j =>
        let s := first + j
        let cfg := 1 + v * 2 + first * 2 ^ 7 + members * 2 ^ 14 + j * 2 ^ 22 + 2 ^ 32
        ((w.setReg (rotBlk s g) (BitVec.ofNat 64 cfg)).setTurn s g Turn.init).loadPage s g j false) w)

/-- Members of a volume's group in a slot. -/
def groupSites (w : Wafer) (v g : Nat) : List Nat :=
  (w.spanSites v).filter (fun s => w.flag (rotBlk s g) F.CMD_ROT_CFG.VALID && w.get (rotBlk s g) F.CMD_ROT_CFG.VOLUME == v)

/-- A command is bound to the group. -/
def groupBound (w : Wafer) (v g : Nat) : Bool :=
  w.cmds.any (fun c => c.isOpen && c.vol == v && c.rotSlot == some g && (w.groupSites v g).contains c.site)

/-- Free the slot on every site of the span. -/
def rotFree (w : Wafer) (v g : Nat) : Wafer :=
  (w.spanSites v).foldl (fun w s =>
    let k := rotBlk s g
    let w := (w.dropSram (w.reg (k + 0x10)).toNat).dropSram (w.reg (k + 0x18)).toNat
    (w.clearRegs (fun x => k ≤ x && x < k + 0x40)).setTurn s g Turn.init) w

/-- Remove a group; one that carries a loaded image is in use by it. -/
def rotDestroy (w : Wafer) (v g : Nat) : Nat × List Nat × Wafer :=
  if 16 ≤ g then (cBadArg, [], w)
  else if (w.groupSites v g).isEmpty then
    ((if (List.range 128).any (fun s => w.flag (rotBlk s g) F.CMD_ROT_CFG.VALID) then cNotOwner else cBadArg), [], w)
  else if w.groupBound v g || (w.groupSites v g).any (fun s => w.flag (ensBlk s g) F.ENS_SLOT_CFG.VALID) then (cBusy, [], w)
  else (cDone, [], w.rotFree v g)

/-! ### Ensemble images (R450–R455, R458) -/

/-- Set a slot's registers but for CFG (Table ENS-3), with the resident section loaded on a member. -/
def ensRes (w : Wafer) (v site g bytes page image : Nat) (member : Bool) : Option Wafer := do
  let x ← w.takeSram v site bytes
  let k := ensBlk site g
  let w := (x.2.setReg (k + 8) (BitVec.ofNat 64 x.1)).setReg (k + 0x10) (BitVec.ofNat 64 (bytes + page * 2 ^ 32))
  return (if member then w.loadResident site g image else w)

/-- A one-page image on one site: resident section, page data, and the banks of each replica (R451, R453). -/
def ensSite (w : Wafer) (v g image : Nat) (h : List Byte) (reps site : Nat) : Option Wafer := do
  let w ← w.ensRes v site g (iResident h) (iSram h) image true
  let x ← w.takeSram v site (iSram h)
  let k := ensBlk site g
  let page := image + iPage0 h
  let base := (w.bankWin v).1
  let w := (x.2.setReg (k + 0x18) (BitVec.ofNat 64 x.1)).save x.1 (w.load (page + iBanks h * 0x20000) (iSram h))
  let w := (List.range (reps * iBanks h)).foldl (fun w i =>
    w.putRows site (base + i) 0 (w.load (page + i % iBanks h * 0x20000) 0x20000)) w
  return w.setReg k (BitVec.ofNat 64 (1 + v * 2 + reps * 2 ^ 8))

/-- Replicas stand from relative bank 0: those banks must be free on every site. -/
def repsFit (w : Wafer) (v first sites n : Nat) : Bool :=
  decide (n ≤ (w.bankWin v).2) &&
  (List.range sites).all (fun i => (w.banksUsed v (first + i)).all (fun u => n ≤ u.1 || u.2 == 0))

def ensKeep (w : Wafer) (v g image first sites reps : Nat) (h : List Byte) : Wafer :=
  let x : EnsImg := { vol := v, image := image, page0 := iPage0 h, stride := iStride h, banks := if iPages h = 1 then iBanks h else 0,
                      replicas := reps, first := first, sites := sites, bank := (w.bankWin v).1 }
  { w with asc := { w.asc with ens := tabSet w.asc.ens (128 * g + first) (some x) } }

/-- Load an image (R451): one page in replicas, several pages as a rotation group of the same slot. -/
def ensLoad (w : Wafer) (v g image first sites reps : Nat) : Nat × List Nat × Wafer :=
  let head := w.readStatus (volSrc v) image 4096
  let h := w.load image 4096
  let bad (r : Nat) : Nat × List Nat × Wafer := (cBadArg, [r], w)
  if 16 ≤ g then (cBadArg, [], w)
  else if w.slotTaken v g then (cBusy, [], w)
  else if head ≠ stOk then (codeOf head, if codeOf head = cBadArg then [1] else [], w)
  else if !imageHeaderOk h || w.readStatus (volSrc v) image (iBytes h) ≠ stOk then bad 1
  else
    let why := imageReason (w.load image (iBytes h))
    let st := w.sitesCode v first sites
    if why ≠ 0 then bad why
    else if sites = 0 || st = cBadArg || reps = 0 || 4 < reps || (iPages h ≠ 1 && (sites ≠ iPages h || reps ≠ 1)) then bad 6
    else if st ≠ cDone then (st, [], w)
    else if iPages h = 1 then
      if !w.repsFit v first sites (reps * iBanks h) then (cNoRes, [], w)
      else
        match (List.range sites).foldl (fun (o : Option Wafer) i => o.bind (fun w => w.ensSite v g image h reps (first + i))) (some w) with
        | none => (cNoRes, [], w)
        | some x => (cDone, [], x.ensKeep v g image first sites reps h)
    else
      let r := w.rotCreate v g first sites (image + iPage0 h) (iSram h) (iStride h) (iBanks h)
      if r.1 ≠ cDone then (r.1, [], w)
      else
        match (w.spanUp v).foldl (fun (o : Option Wafer) s => o.bind (fun x =>
            let on := first ≤ s && s < first + sites
            (x.ensRes v s g (iResident h) (iSram h) image on).map (fun x =>
              x.setReg (ensBlk s g) (BitVec.ofNat 64 ((if on then 1 else 0) + v * 2 + 2 ^ 7 + 2 ^ 8))))) (some r.2.2) with
        | none => (cNoRes, [], w)
        | some x => (cDone, [], x.ensKeep v g image first sites 1 h)

/-- Sites on which the volume's image is loaded. -/
def ensSites (w : Wafer) (v g : Nat) : List Nat :=
  (List.range 128).filter (fun s => w.flag (ensBlk s g) F.ENS_SLOT_CFG.VALID && w.get (ensBlk s g) F.ENS_SLOT_CFG.VOLUME == v)

/-- An address is a reference to the slot (Table ENS-4). -/
def refersTo (g a : Nat) : Bool := adRegion a == 8 && a / 2 ^ 56 % 16 == 0 && a / 2 ^ 52 % 16 == g

/-- A command holds a reference to the slot: a PARAM, or a word of the 64-byte block that a PARAM names (log entry 68). -/
def holdsRef (w : Wafer) (g : Nat) (c : Cmd) : Bool :=
  c.stages.any (fun s => (sgKind s ≤ 4 || sgKind s == kGather) &&
    (refersTo g (sgParam s) || (adRegion (sgParam s) == 0 && sgParam s != 0 &&
      (List.range 8).any (fun i => refersTo g (fromLE (w.load (sgParam s + 8 * i) 8))))))

/-- Unload an image (R458). -/
def ensUnload (w : Wafer) (v g : Nat) : Nat × List Nat × Wafer :=
  let on := w.ensSites v g
  if 16 ≤ g then (cBadArg, [], w)
  else if on.isEmpty then
    ((if (List.range 128).any (fun s => w.flag (ensBlk s g) F.ENS_SLOT_CFG.VALID) then cNotOwner else cBadArg), [], w)
  else if w.groupBound v g || w.cmds.any (fun c => c.isOpen && c.vol == v && on.contains c.site && w.holdsRef g c) then (cBusy, [], w)
  else
    let rotated := on.any (fun s => w.flag (ensBlk s g) F.ENS_SLOT_CFG.ROTATED)
    let w := (w.spanSites v).foldl (fun w s =>
      let k := ensBlk s g
      if w.get k F.ENS_SLOT_CFG.VOLUME ≠ v then w
      else
        let w := (w.dropSram (w.reg (k + 8)).toNat).dropSram (w.reg (k + 0x18)).toNat
        w.clearRegs (fun x => k ≤ x && x < k + 0x40)) w
    let w := if rotated then w.rotFree v g else w
    (cDone, [], { w with asc := { w.asc with ens := w.asc.ens.filter (fun e => !(e.1 / 128 == g && e.2.vol == v)) } })

end Wafer

/-! ### Meanings -/

/-- UNHAL_ROT_CREATE (R331). -/
def execUnhalRotCreate (via : Via) (slot firstSite members image sramBytes stride banks : BitVec 64) (s : State) :
    Host.Outcome State Fault Refusal :=
  unhalCall via 0x0901 [slot.toNat, firstSite.toNat, members.toNat, image.toNat, sramBytes.toNat, stride.toNat, banks.toNat] false s
    (onWaf fun v w => w.rotCreate v slot.toNat firstSite.toNat members.toNat image.toNat sramBytes.toNat stride.toNat banks.toNat)

/-- UNHAL_ROT_DESTROY (R331). -/
def execUnhalRotDestroy (via : Via) (slot : BitVec 64) (s : State) : Host.Outcome State Fault Refusal :=
  unhalCall via 0x0902 [slot.toNat] false s (onWaf fun v w => w.rotDestroy v slot.toNat)

/-- UNHAL_ASC_LOAD (R394). -/
def execUnhalAscLoad (via : Via) (site : Fin 128) (bank image length count width spacing : BitVec 64) (s : State) :
    Host.Outcome State Fault Refusal :=
  unhalCall via 0x0C01 [bank.toNat, image.toNat, length.toNat, count.toNat, width.toNat, spacing.toNat] false s (onWaf fun v w =>
    w.ascLoad v site bank.toNat image.toNat length.toNat count.toNat width.toNat spacing.toNat)

/-- UNHAL_ASC_GROUP (R403). -/
def execUnhalAscGroup (via : Via) (buffer length firstBank banks : BitVec 64) (ranks : List (BitVec 4)) (s : State) :
    Host.Outcome State Fault Refusal :=
  unhalCall via 0x0C02 ([buffer.toNat, length.toNat, firstBank.toNat, banks.toNat] ++
    (List.range 4).map (fun i => sumOf ((List.range 16).map (fun j => (ranks.getD (16 * i + j) 0).toNat * 16 ^ j)))) false s
    (onWaf fun v w => w.ascGroup v buffer.toNat length.toNat firstBank.toNat banks.toNat ranks)

/-- UNHAL_ASC_INSERT (R412). -/
def execUnhalAscInsert (via : Via) (site : Fin 128) (bank beforeRow : BitVec 64) (entry : List Byte) (s : State) :
    Host.Outcome State Fault Refusal :=
  unhalCall via 0x0C03 [bank.toNat, beforeRow.toNat, 0, entry.length] false s (onWaf fun v w =>
    w.ascInsert v site bank.toNat beforeRow.toNat entry)

/-- UNHAL_ASC_DELETE (R395). -/
def execUnhalAscDelete (via : Via) (site : Fin 128) (bank row : BitVec 64) (s : State) : Host.Outcome State Fault Refusal :=
  unhalCall via 0x0C04 [bank.toNat, row.toNat] false s (onWaf fun v w => w.ascDelete v site bank.toNat row.toNat)

/-- UNHAL_ASC_REPLACE (R411). -/
def execUnhalAscReplace (via : Via) (site : Fin 128) (bank row : BitVec 64) (entry : List Byte) (s : State) :
    Host.Outcome State Fault Refusal :=
  unhalCall via 0x0C05 [bank.toNat, row.toNat, 0, entry.length] false s (onWaf fun v w =>
    w.ascReplace v site bank.toNat row.toNat entry)

/-- UNHAL_ENS_LOAD (R451). -/
def execUnhalEnsLoad (via : Via) (slot image firstSite sites replicas : BitVec 64) (s : State) : Host.Outcome State Fault Refusal :=
  unhalCall via 0x0E01 [slot.toNat, image.toNat, firstSite.toNat, sites.toNat, replicas.toNat] false s (onWaf fun v w =>
    w.ensLoad v slot.toNat image.toNat firstSite.toNat sites.toNat replicas.toNat)

/-- UNHAL_ENS_UNLOAD (R458). -/
def execUnhalEnsUnload (via : Via) (slot : BitVec 64) (s : State) : Host.Outcome State Fault Refusal :=
  unhalCall via 0x0E02 [slot.toNat] false s (onWaf fun v w => w.ensUnload v slot.toNat)

end Sys2Proof.Machine
end

