-- ==== Sys2Proof/Machine/Collation.lean ====
section
/-! DEFINITION. Full collation: root choice, self-test, sewing, discovery, numbering, boot of Unhal, readiness, the
measurement log (R129–R147, R152–R164). COLLATION runs in two commands: the first carries the wafer to PHASE 1 (steps 1 to
3 of Table COL-2), the second to PHASE 2 and the start of Unhal (DESIGN CHOICE, log entry 70). -/

namespace Sys2Proof.Machine

/-- A fence entry's die node (R158). -/
def Fence.node (f : Fence) : Nat := if f.kind = 2 then 144 + f.rowEdge else f.rowEdge * 12 + f.col

/-- The naming port of the link a fence entry names (R192). -/
def Fence.port (f : Fence) : Nat × Nat := linkName (f.rowEdge * 12 + f.col) f.dir

/-- Every die of the wafer: positions in serpentine order, then the edge dies. -/
def allDies : List Nat := serpentine ++ (List.range 16).map (· + 144)

namespace Wafer

/-! ### Sewing and discovery (R135–R143) -/

/-- Sew the link of a naming port, with the latencies measured at both ends (R135, R138). -/
def sewOne (inp : CollIn) (w : Wafer) (l : Nat × Nat) : Wafer :=
  let k := portKey l.1 l.2
  let f := farKey k
  let lat (j : Nat) : Nat := ((inp.latency.find? (fun x => x.1 == j / 4 && x.2.1 == j % 4)).map (·.2.2)).getD (w.port j).latency
  let w := (w.setPort k { w.port k with latency := lat k }).setPort f { w.port f with latency := lat f }
  match sewLink inp.wires k with
  | some g => w.linkIn k g
  | none => w.linkOut k

/-- One DISCOVER arrival more (R141): the earliest over a link in service at a die `ok` not reached yet. Entries: node, sum
of latencies, arrival port plus one. -/
def discoverOne (w : Wafer) (ok : Nat → Bool) (seen : List (Nat × Nat × Nat)) : Option (Nat × Nat × Nat) :=
  let l := seen.flatMap fun x => (portsOf x.1).filterMap fun d =>
    match neighbour x.1 d with
    | some m =>
      if ok m && (w.port (portKey x.1 d)).state == 1 && !(seen.any (fun y => y.1 == m)) then
        some (m, x.2.1 + (w.port (portKey x.1 d)).latency, backDir x.1 d + 1)
      else none
    | none => none
  l.foldl (fun b x => match b with | none => some x | some y => if x.2.1 < y.2.1 then some x else b) none

def discoverAll (w : Wafer) (ok : Nat → Bool) : Nat → List (Nat × Nat × Nat) → List (Nat × Nat × Nat)
  | 0, seen => seen
  | f + 1, seen =>
    match w.discoverOne ok seen with
    | some x => discoverAll w ok f (seen ++ [x])
    | none => seen

/-- What a DISCOVER from `root` reaches. -/
def discoverFrom (w : Wafer) (ok : Nat → Bool) (root : Nat) : List (Nat × Nat × Nat) := w.discoverAll ok 160 [(root, 0, 0)]

/-- Sites whose links are all retired or lead only to fenced dies, fenced in turn until none is left (Table COL-6). -/
def linksLost (w : Wafer) : Nat → List (Nat × Nat) → List (Nat × Nat)
  | 0, l => l
  | f + 1, l =>
    match serpentine.find? (fun p => !(l.any (fun x => x.1 == p)) && (List.range 4).all (fun d =>
        match neighbour p d with
        | some m => (w.port (portKey p d)).state == 2 || l.any (fun x => x.1 == m)
        | none => true)) with
    | some p => linksLost w f (l ++ [(p, 5)])
    | none => l

/-- The node that a die's straps read (R141): the position, or 144 + edge number; as its IDENT says, else as `straps`. -/
def strapOf (w : Wafer) (inp : CollIn) (n : Nat) : Nat :=
  match tabGet w.col.idents n with
  | some r => if r.isEdge then 144 + r.position else r.position
  | none => ((inp.straps.find? (fun x => x.1 == n)).map (·.2)).getD n

/-- Claims and acknowledgements of both candidates have arrived (R139): as ROOT_CLAIM and CROSSLINK_DOWN have said, else as
the silicon is. -/
def crosslinkUp (w : Wafer) (inp : CollIn) : Bool :=
  let one (to8 : Bool) : Bool :=
    match w.col.claims.find? (fun x => x.1 == to8) with
    | some x => x.2.2
    | none => inp.crosslink
  !w.col.crossDown && one true && one false

/-- A candidate qualifies by its root self-test and by its claim (R134, R139). -/
def qualifies (w : Wafer) (inp : CollIn) (is8 : Bool) : Bool :=
  (if is8 then inp.root8 else inp.root0) &&
  (match w.col.claims.find? (fun x => x.1 == !is8) with | some x => x.2.1 | none => true)

/-! ### The measurement log (R156) -/

/-- Append an entry of a kind; one beyond 64 is refused and logged as ERROR. -/
def measure (w : Wafer) (kind : Nat) (d : List Byte) : Wafer :=
  if w.col.measLog.length < 64 then
    { w with col := { w.col with measLog := w.col.measLog ++ [(kind, d)], measAcc := sha384 (w.col.measAcc ++ d) } }
  else w.logEntry 2 156 0

/-- The report's bytes (R162). -/
def reportBytes (w : Wafer) : List Byte :=
  w.reportHead ++ (List.range 144).flatMap w.reportSite ++ (List.range 16).flatMap w.reportEdge

end Wafer

namespace State

/-- The clocks reach `t` of FOL_REFCOUNT: the fixed times of Table COL-2. -/
def toTime (s : State) (t : Nat) : State :=
  let d := t - s.waf.now
  { s with waf := { s.waf with now := s.waf.now + d }, sup := { s.sup with clock := s.sup.clock + d } }

/-- HALTED with a reason of R162. -/
def halted (s : State) (reason : Nat) : State :=
  s.onWafer (fun w => ({ w with col := { w.col with halt := reason } }).setPhase 5)

/-! ### Steps 1 to 3 (R139) -/

/-- The map is served by a root. -/
def serve (s : State) (root8 : Bool) : State :=
  s.onWafer (fun w => ({ w with col := { w.col with root8 := root8, served := true } }))

def chooseRoot (s : State) (inp : CollIn) : State :=
  let s := if s.sup.fences.all (·.byRibbon) then s else s.onWafer (fun w => w.alert 1)
  let s := (s.onSup (fun p => { p with fences := p.fences.filter (·.byRibbon) })).toTime (us 1010)
  let s := s.onWafer (fun w => { w with col := { w.col with wafer := s.sup.waferNum, shelf := [s.sup.waferNum] } })
  let q0 := s.waf.qualifies inp false
  let q8 := s.waf.qualifies inp true
  if !q0 && !q8 then s.halted 1
  else if !s.waf.crosslinkUp inp then
    s.onWafer (fun w => ({ w with col := { w.col with crossDown := true } }).setPhase 1)
  else
    let s := (s.serve (!q0)).onWafer (fun w => w.setPhase 1)
    if q0 && q8 && !inp.fusesEqual then s.halted 2 else s

/-! ### Steps 4 to 7 (R133–R149, R158) -/

/-- Dies that fail self-test, then sites whose stage fails, each with its reason (R133). -/
def testFails (inp : CollIn) : List (Nat × Nat) :=
  let a := ((inp.selftest.filter (fun x => x.2 != 0 && allDies.contains x.1)).map (·.1)).dedup
  a.map (fun n => (n, 1)) ++ ((inp.stages.filter (fun p => serpentine.contains p && !a.contains p)).dedup).map (fun p => (p, 2))

/-- The root with the crosslink down (R140): edge die 0 if it qualifies and reaches at least 64 sites, else edge die 8. -/
def rootAlone (w : Wafer) (ok : Nat → Bool) (q0 q8 : Bool) : Option Bool :=
  let reach (n : Nat) : Bool := ok n && 64 ≤ ((w.discoverFrom ok n).filter (fun x => x.1 < 144)).length
  if q0 && reach 144 then some false else if q8 && reach 152 then some true else none

/-- Numbering, routes, tree and fence list are loaded and the report written (step 7). `fenced`: dies out of service with
their reasons, in the order decided; `tree`: what the root's DISCOVER reached. -/
def number (s : State) (inp : CollIn) (early fenced tree : List (Nat × Nat)) : State :=
  let kept := s.sup.fences
  let listed (f : Fence) : Bool := kept.any (fun g => (g.kind, g.rowEdge, g.col, g.dir) == (f.kind, f.rowEdge, f.col, f.dir))
  let dies (l : List (Nat × Nat)) : List Fence := (l.filter (fun x => x.2 != 10)).map (fun x => dieFence x.1 x.2 false)
  let out (n : Nat) : Bool := fenced.any (fun x => x.1 == n)
  let cuts := (allLinks.filter (fun l =>
    let k := Wafer.portKey l.1 l.2
    (s.waf.port k).state == 2 && !out (k / 4) && !out (Wafer.farKey k / 4))).map (fun l => linkFence (Wafer.portKey l.1 l.2) 6 false)
  let new := (dies early ++ cuts ++ dies (fenced.drop early.length)).filter (fun f => !listed f)
  let s := s.toTime (ms 9)
  let s := s.onSup (fun p => { p with fences := (kept ++ new).take 64 })
  let s := s.onWafer fun w =>
    let code (n : Nat) : Nat := match tabGet w.col.idents n with
      | some r => r.codes.toNat
      | none => ((inp.selftest.find? (fun x => x.1 == n)).map (·.2.toNat)).getD 0
    let info (n : Nat) : DieInfo :=
      match fenced.find? (fun x => x.1 == n) with
      | some x => { state := if x.2 = 4 then 3 else 2, reason := x.2, code := code n, hbmBad := false }
      | none => { state := 1, reason := 0, code := code n, hbmBad := 144 ≤ n && inp.hbmFail.any (fun e => n == 144 + e.val) }
    let w := allDies.foldl (fun w n => w.setDieInfo n (info n)) w
    let adj (n : Nat) : Int := if n = 144 + (if w.col.root8 then 8 else 0) then 0
      else ((Config.freeOf 16 (BitVec.ofNat 64 n) 0).toNat % 3 : Int) - 1
    let c := { w.col with
      sites := serpentine.filter (fun p => !out p),
      parents := tree.foldl (fun t x => if x.2 = 0 || (tabGet t x.1).isSome then t else tabSet t x.1 (some x.2)) w.col.parents,
      refAdj := tree.foldl (fun t x => if (tabGet w.col.parents x.1).isSome then t else Tab.put (fun _ => 0) t x.1 (adj x.1)) w.col.refAdj,
      tCollated := ms 8 + getF (w.fresh.1) 0 20 % (ms 1 + 1) }
    let w := { w.fresh.2 with col := c }
    let w := { w with col := { w.col with bank0 := w.topoNow, bank1 := w.topoNow } }
    (w.setLve (fun l => { l with env := w.envelope })).rewriteReport
  let s := if new.isEmpty then s else s.onWafer (fun w => w.alert 1)
  if 64 < kept.length + new.length then s.halted 4
  else if s.waf.col.sites.length < 64 then s.halted 3
  else s

/-- Self-test, sewing, discovery and the fences they decide, then step 7. -/
def collate (s : State) (inp : CollIn) : State :=
  let early := testFails inp
  let bad (n : Nat) : Bool := early.any (fun x => x.1 == n)
  let root0 := 144 + (if s.waf.col.root8 then 8 else 0)
  if !s.waf.col.crossDown && bad root0 then (s.toTime (ms 2)).halted 1
  else
    let ribbon := s.sup.fences.filter (·.byRibbon)
    let spared (n : Nat) : Bool := if s.waf.col.crossDown then n == 144 || n == 152 else n == root0
    let s := s.toTime (ms 8)
    let s := s.onWafer fun w =>
      let w := (allLinks.filter (fun l => !bad l.1 && !bad (Wafer.farKey (Wafer.portKey l.1 l.2) / 4))).foldl (Wafer.sewOne inp) w
      (ribbon.filter (fun f => f.kind == 3 && allLinks.contains f.port)).foldl
        (fun w f => w.linkOut (Wafer.portKey f.port.1 f.port.2)) w
    let asked := ((ribbon.filter (fun f => f.kind == 1 || f.kind == 2)).map Fence.node).filter (fun n =>
      allDies.contains n && !bad n && !spared n)
    let l1 := s.waf.linksLost 144 (early ++ asked.dedup.map (fun n => (n, 10)))
    let ok (n : Nat) : Bool := !(l1.any (fun x => x.1 == n))
    let root : Option Bool := if s.waf.col.crossDown then
        rootAlone s.waf ok (s.waf.qualifies inp false) (s.waf.qualifies inp true)
      else some s.waf.col.root8
    match root with
    | none => s.halted 1
    | some r8 =>
      let s := if s.waf.col.crossDown then s.serve r8 else s
      if s.waf.col.crossDown && s.waf.qualifies inp false && s.waf.qualifies inp true && !inp.fusesEqual then s.halted 2
      else
        let root := 144 + (if r8 then 8 else 0)
        let tree := s.waf.discoverFrom ok root
        let told (n : Nat) : Bool := n == root || (tree.any (fun x => x.1 == n) &&
          ((tabGet s.waf.col.idents n).isSome || !inp.silent.contains n))
        let lost := allDies.filter (fun n => ok n && !told n)
        let here := allDies.filter (fun n => ok n && told n)
        let read := s.waf.strapOf inp
        let wrong := here.filter (fun n => n != root && (read n != n || here.any (fun m => m != n && read m == n)))
        let l2 := s.waf.linksLost 144 (l1 ++ lost.map (fun n => (n, 4)) ++ wrong.map (fun n => (n, 3)))
        s.number inp early l2 (tree.map (fun x => (x.1, x.2.2)))

/-! ### Steps 8 and 9: boot (R152–R156) -/

/-- The boot ROM's five measurements, of the slot that has verified. -/
def measureBoot (s : State) (slot : Bool) (report : List Byte) : State :=
  let img := s.slotImage slot
  s.onWafer fun w =>
    ((((w.measure 0 ((List.range 48).map Config.bootRomDigest)).measure 0 ((List.range 48).map Config.fuseDigest)).measure 0
      (sha384 (img.take 176))).measure 0 ((img.drop 24).take 48)).measure 0 report

/-- The time the boot ROM takes over a slot at the latest (Table COL-2 step 9): BODY_LENGTH at 200 MB/s, and 2 ms. -/
def bootTime (s : State) (slot : Bool) : Nat := leAt (s.slotImage slot) 16 4 / 2 + ms 2

def bootRom (s : State) : State :=
  let report := sha384 s.waf.reportBytes
  let n := s.sup.nextSlot
  let s := s.onWafer fun w =>
    let w := (List.range 32).foldl (fun w l => w.setSpine l { w.spine l with since := w.now }) w
    w.setPhase 2
  let go (s : State) (slot : Bool) : State :=
    ((s.measureBoot slot report).startUnhal slot 0).onWafer (fun w =>
      ({ w with col := { w.col with fallback := slot != n, boot := { w.col.boot with triedBoth := slot != n } } }).rewriteReport)
  let s := s.toTime (s.waf.now + s.bootTime n)
  if s.slotVerifies n true then go s n
  else
    let s := s.toTime (s.waf.now + s.bootTime (!n))
    if s.slotVerifies (!n) true then go s (!n) else s.halted 5

/-! ### Step 10: readiness (R159, R164) -/

/-- Ribbon fences in the list that are not in force yet are applied. -/
def applyListed (s : State) : State :=
  (s.sup.fences.filter (·.byRibbon)).foldl (fun s f =>
    if f.kind = 3 then
      let k := Wafer.portKey f.port.1 f.port.2
      if allLinks.contains f.port && s.waf.linkState f.port.1 f.port.2 = 1 then s.retireLink k 10 true else s
    else if f.node ≠ 144 + (if s.waf.col.root8 then 8 else 0) && (s.waf.dieInfo f.node).state = 1 then
      s.fenceNode f.node 10 2 true
    else s) s

/-- Unhal serves: the watchdogs of sites start anew. -/
def serving (s : State) : State :=
  s.onWafer fun w => { w with col := { w.col with
    boot := { w.col.boot with running := true, ready := true },
    heard := w.activeSites.foldl (fun t L => Tab.put (fun _ => 0) t L w.now) w.col.heard } }

/-- The UNHAL reset that RIB_RESET began has ended (Table RIB-9). -/
def unhalResetEnds (s : State) : State :=
  s.onWafer fun w =>
    let v := w.rib32 0x31
    if v.getLsbD 0 && get32 v 1 2 == 1 then resetDone w else w

/-- Volume 0 comes to be; Unhal binds the secure channels, in the long form, to it (R270, R282; DESIGN CHOICE, log
entry 71). -/
def createVolume0 (s : State) : State :=
  s.onWafer fun w =>
    let w := { w with live := w.live ||| 1 }
    ((List.range 16).filter (fun e => w.active (128 + e))).foldl (fun w e =>
      ((List.range 16).filter (fun ch => !Wafer.mbxRibbon e ch)).foldl (fun w ch => w.resetChannel 0 e ch true) w) w

end State

/-! ### Meanings -/

/-- COLLATION (R130–R149, R152–R158). -/
def execCollation (inp : CollIn) (s : State) : Host.Outcome State Fault Refusal :=
  .next (
    if s.sup.inReset then s
    else if s.waf.col.phase = 0 then s.chooseRoot inp
    else if s.waf.col.phase = 1 then
      let s := s.collate inp
      if s.waf.col.phase = 1 then s.bootRom else s
    else s)

/-- ROOT_CLAIM (R139): a claim arrives at the candidate on edge die 8 (`to8`) or 0 before r + 1 ms; `acked`: its sender
gets the acknowledgement. -/
def execRootClaim (to8 qualifies acked : Bool) (s : State) : Host.Outcome State Fault Refusal :=
  .next (if s.sup.inReset || s.waf.col.phase ≠ 0 || ms 1 < s.waf.now then s
    else s.onWafer fun w => { w with col := { w.col with
      claims := w.col.claims.filter (fun x => x.1 != to8) ++ [(to8, qualifies, acked)] } })

/-- CROSSLINK_DOWN (R139): DOWN arrives by r + 1.01 ms; both candidates reach the same judgement. -/
def execCrosslinkDown (_to8 : Bool) (s : State) : Host.Outcome State Fault Refusal :=
  .next (if s.sup.inReset || s.waf.col.phase ≠ 0 || us 1010 < s.waf.now then s
    else s.onWafer fun w => { w with col := { w.col with crossDown := true } })

/-- DISCOVER (R141, R142): at a die that has had none in this collation, or at a site in rejoin. `stamp` is the root's count
in 1/128 cycles. -/
def execDiscover (node : Fin 160) (dir : Fin 5) (stamp : Nat) (s : State) : Host.Outcome State Fault Refusal :=
  .next (s.onWafer fun w =>
    let rejoins := match w.logicalOf node with
      | some L => Tab.look (fun _ => 0) w.col.rejoin L != 0
      | none => false
    let first := w.col.phase == 1 && (tabGet w.col.parents node.val).isNone
    if s.sup.inReset || !allDies.contains node.val || !(first || rejoins) then w
    else { w with col := { w.col with
      parents := tabSet w.col.parents node.val (some (dir.val + 1)),
      refAdj := Tab.put (fun _ => 0) w.col.refAdj node.val (((stamp + 64) / 128 : Nat) - (w.now : Int)) } })

/-- IDENT (R141): it reaches the root along the parent chain, from a die that has had its DISCOVER, by r + 8 ms. -/
def execIdent (node : Fin 160) (report : DieReport) (s : State) : Host.Outcome State Fault Refusal :=
  .next (s.onWafer fun w =>
    if s.sup.inReset || w.col.phase ≠ 1 || ms 8 < w.now || (tabGet w.col.parents node.val).isNone then w
    else { w with col := { w.col with idents := tabSet w.col.idents node.val (some report) } })

/-- UNHAL_READY (R130, R159, R164, R522): at most 500 ms after Unhal started; during a restart it ends the restart. -/
def execUnhalReady (s : State) : Host.Outcome State Fault Refusal :=
  .next (
    let c := s.waf.col
    if s.sup.inReset || c.boot.running then s
    else if c.phase = 2 then
      if ms 500 < since c.boot.started s.waf.now then s
      else if s.waf.sitesActive < 64 then s.halted 3
      else
        let s := s.serving.createVolume0
        let s := s.onWafer (fun w => w.setPhase (if w.allWell then 3 else 4))
        s.applyListed.sweep 160
    else if c.phase = 3 || c.phase = 4 then
      (s.serving.unhalResetEnds.applyListed).sweep 160
    else s)

/-- UNHAL_START_TIMEOUT (R154): no readiness within 500 ms of the start. -/
def execUnhalStartTimeout (s : State) : Host.Outcome State Fault Refusal :=
  .next (
    let b := s.waf.col.boot
    if s.sup.inReset || s.waf.col.phase ≠ 2 || b.running || since b.started s.waf.now < ms 500 then s
    else
      let s := s.onWafer (fun w => w.setRib32 5 (w.rib32 5 &&& 3))
      let t := !b.slot
      if b.triedBoth then s.halted 6
      else
        let s := s.toTime (s.waf.now + s.bootTime t)
        if s.slotVerifies t true then
          (s.startUnhal t 0).onWafer (fun w => ({ w with col := { w.col with
            fallback := t != s.sup.nextSlot, boot := { w.col.boot with triedBoth := true } } }).rewriteReport)
        else s.halted 6)

/-- MEAS_APPEND (R156): Unhal appends; nobody else writes the log. -/
def execMeasAppend (src : Src) (digest : BitVec 384) (s : State) : Host.Outcome State Fault Refusal :=
  .next (s.onWafer fun w => if src = .unhal && w.col.boot.running then w.measure 1 (toBE 48 digest.toNat) else w)

end Sys2Proof.Machine
end

