-- ==== Sys2Proof/Machine/Control.lean ====
section
/-! DEFINITION. Writes of the ribbon map: every register's write effect, same-slot pairs, resets, fence requests, folio
commands, window aborts and ends of window accesses (R106–R128, R159, R160). -/

namespace Sys2Proof.Machine

namespace Wafer

/-! ### Folio sources (R112, R114) -/

/-- RIB_FOL_CMD OP 1 BIND, 2 CONFIG, 3 FETCH on the counter that RIB_FOL_SEL selects. -/
def folCommand (w : Wafer) (op : Nat) : Nat × Wafer :=
  let c := (w.rib32 0x50).toNat % 256
  if op = 0 then (rInvalid, w)
  else if !w.edgeUp (c / 16) then (rUnavailable, w)
  else if op = 3 then
    let v := w.reg (cntBlk c)
    let n := w.reg (cntBlk c + 0x28)
    (0, (((w.setRib32 0x51 (BitVec.ofNat 32 (getF v 0 21))).setRib32 0x52 (BitVec.ofNat 32 (getF v 32 32))).setRib32 0x53
      (BitVec.ofNat 32 (getF n 0 32))).setRib32 0x54 (BitVec.ofNat 32 (getF n 32 32)))
  else
    let cfg : Word := BitVec.ofNat 64 ((w.rib32 0x51).toNat % 2 ^ 21 + (w.rib32 0x52).toNat * 2 ^ 32)
    let nom : Word := BitVec.ofNat 64 ((w.rib32 0x53).toNat + (w.rib32 0x54).toNat * 2 ^ 32)
    match w.writeCntCfg c cfg with
    | none => (rInvalid, w)
    | some w =>
      let w := w.writeNomrate c nom
      (0, if op = 1 then w.loadPosition c 0 else w)

/-! ### Short mailboxes (R115) -/

/-- RIB_MBX_OUTk: post a word; BUSY while the last one has not been taken. -/
def mbxOut (w : Wafer) (p : RibPort) (k : Nat) (x : BitVec 32) : Nat × Wafer :=
  let e := match p with | .a => 0 | .b => 8
  if !w.active (128 + e) then (rUnavailable, w)
  else if w.mbxState e k false ≠ 0 then (rBusy, w)
  else (0, w.mbxPost e k false (x.zeroExtend 64))

/-- RIB_MBX_FLAGS: IN_FULL takes, WITHDRAW withdraws a word not taken yet, WITHDRAWN clears. -/
def mbxFlagsWrite (w : Wafer) (p : RibPort) (v : BitVec 32) : Wafer :=
  let e := match p with | .a => 0 | .b => 8
  (List.range 8).foldl (fun w k =>
    let w := if v.getLsbD (8 + k) && w.mbxState e k true == 1 then w.mbxTake e k true else w
    let w := if v.getLsbD (24 + k) then w.set (dirBlk e k false) F.QUE_MBX_STAT.WITHDRAWN 0 else w
    if v.getLsbD (16 + k) && w.mbxState e k false == 1 then w.mbxWithdraw e k false else w) w

/-! ### Leave policy (Table RIB-9) -/

/-- Every field of an LVE register lies in its stated range. -/
def lveOk (a : Nat) (v : BitVec 32) : Bool :=
  let within (x lo hi : Nat) : Bool := lo ≤ x && x ≤ hi
  match a with
  | 0x48 => within (get32 v 0 16) 100 2000
  | 0x49 => within (get32 v 0 10) 500 600
  | 0x4A => get32 v 0 8 + get32 v 8 8 + get32 v 16 8 + get32 v 24 8 ≤ 100
  | 0x4B => within (get32 v 0 12) 100 2000
  | _ => within (get32 v 0 16) 10 200

/-! ### Window accesses (R127) -/

/-- FAULT_KIND of a status; a status without a kind shows a free value (log entry 72). -/
def winKind (w : Wafer) (st : Nat) : Nat × Wafer :=
  if st = stAddr then (1, w) else if st = stProt then (2, w) else if st = stFenced then (3, w)
  else (getF w.fresh.1 0 8, w.fresh.2)

/-- The access of window n faults with a kind; TIMEOUT as well if it has timed out. -/
def winFault (w : Wafer) (n kind : Nat) (timeout : Bool) : Wafer :=
  let w := w.setWin n { w.win n with acc := none, faulted := true }
  let w := w.setRib32 (winAddr n 5) (put32 (w.rib32 (winAddr n 5)) 8 8 kind)
  let w := w.winFlag n 1
  if timeout then w.winFlag n 2 else w

/-- An access has completed (RIB_WINn_COUNT). -/
def winCounted (w : Wafer) (n : Nat) : Wafer := w.setRib32 (winAddr n 6) (w.rib32 (winAddr n 6) + 1)

/-- The address lies in die 0xFF. -/
def isBroadcast (w : Wafer) (a : Nat) : Bool := match w.locate a with | .all _ => true | _ => false

end Wafer

namespace State

/-- The write of an abandoned access, which may still land (R127). -/
def winLands (s : State) (n : Nat) : State :=
  match (s.waf.win n).acc with
  | some x => match x.data with
    | some v => (s.busWrite .ribbon x.addr.toNat (toLE 8 v.toNat)).2
    | none => s
  | none => s

/-- The access in flight at window n ends. -/
def winDone (s : State) (n : Nat) : State :=
  match (s.waf.win n).acc with
  | none => s
  | some x =>
    let a := x.addr.toNat
    let s := s.onWafer (fun w => w.winCounted n)
    match x.data with
    | some v =>
      let r := s.busWrite .ribbon a (toLE 8 v.toNat)
      if r.1 = stOk then r.2.onWafer (fun w => w.setWin n { w.win n with acc := none })
      else s.onWafer (fun w => let k := w.winKind r.1; k.2.winFault n k.1 false)
    | none =>
      if s.waf.isBroadcast a then s.onWafer (fun w => w.winFault n 5 false)
      else
        let r := s.waf.busRead s.sup .ribbon a 8
        if r.1 = stOk then
          s.onWafer (fun _ => r.2.2.setWin n { r.2.2.win n with acc := none, buf := BitVec.ofNat 64 (fromLE r.2.1) })
        else s.onWafer (fun w => let k := w.winKind r.1; k.2.winFault n k.1 false)

/-! ### Resets (Table RIB-9, R160, R522) -/

/-- RIB_RESET: exactly one of WAFER, UNHAL, SITE, with CONFIRM 0xA5C3. -/
def ribReset (s : State) (kind confirm site : Nat) (rejoin : Option SewIn) : Nat × State :=
  let ready := s.waf.col.phase == 3 || s.waf.col.phase == 4
  let stat := s.waf.rib32 0x31
  if confirm ≠ 0xA5C3 then (rInvalid, s)
  else if kind = 1 then (0, s.onSup (fun p => { p with resetDue := some (p.clock + us 10) }))
  else if kind = 2 then
    if stat.getLsbD 0 then (rBusy, s)
    else if !ready then (rUnavailable, s)
    else (0, (s.onWafer (fun w => w.setRib32 0x31 ((stat &&& 0x7F08) ||| 3))).restartUnhal true false)
  else if kind = 4 then
    if stat.getLsbD 0 then (rBusy, s)
    else if !ready then (rUnavailable, s)
    else if Tab.look (fun _ => 0) s.waf.col.rejoin site ≠ 0 then (rBusy, s)
    else if !s.waf.active site then (rUnavailable, s)
    else (0, (s.onWafer (fun w => w.setRib32 0x31 (BitVec.ofNat 32 (getF (stat.zeroExtend 64) 3 1 * 8 + 5 + site * 256)))).beginReset
      site 3 rejoin)
  else (rInvalid, s)

/-! ### Fence requests (R128, R158, R159) -/

/-- What a request names; none: an empty corner, a place off the grid, a link that does not exist, or no kind. -/
def fenceNamed (kind rowEdge col dir : Nat) : Option Fence :=
  if kind = 2 then some (dieFence (144 + rowEdge) 10 true)
  else if !present rowEdge col then none
  else if kind = 1 then some (dieFence (rowEdge * 12 + col) 10 true)
  else if kind = 3 && (neighbour (rowEdge * 12 + col) dir).isSome then
    some (linkFence (Wafer.portKey (rowEdge * 12 + col) dir) 10 true)
  else none

def sameFence (f g : Fence) : Bool := (f.kind, f.rowEdge, f.col, f.dir) == (g.kind, g.rowEdge, g.col, g.dir)

/-- A run-time fence (R159); what is out of service already is only listed. -/
def fenceNow (s : State) (f : Fence) : State :=
  let up := if f.kind = 3 then s.waf.linkState f.port.1 f.port.2 == 1 else (s.waf.dieInfo f.node).state == 1
  if !up then s.addFence f
  else if f.kind = 3 then s.retireLink (Wafer.portKey f.port.1 f.port.2) 10 true
  else (s.fenceNode f.node 10 2 true).sweep 160

/-- RIB_FENCE_REQ without UNFENCE. A full list takes no request that it would have to hold (log entry 73). -/
def fenceAsk (s : State) (p : RibPort) (f : Fence) : Nat × State :=
  let root := 144 + (if s.waf.col.root8 then 8 else 0)
  let own := 144 + (match p with | .a => 0 | .b => 8)
  if s.sup.fences.any (sameFence f) || (f.kind == 2 && (f.node == root || f.node == own)) then (rInvalid, s)
  else if (s.waf.col.phase = 3 || s.waf.col.phase = 4) && s.waf.col.boot.running then (0, s.fenceNow f)
  else if s.sup.fences.length < 64 then (0, s.addFence f)
  else if s.waf.col.phase = 1 then (0, s.halted 4)
  else (rBusy, s)

/-- RIB_FENCE_REQ with UNFENCE: a ribbon entry leaves the list; what it names stays out until the next full collation. -/
def fenceLift (s : State) (f : Fence) : Nat × State :=
  if s.sup.fences.any (fun g => g.byRibbon && sameFence f g) then
    (0, (s.onSup (fun q => { q with fences := q.fences.filter (fun g => !(g.byRibbon && sameFence f g)) })).onWafer (fun w => w.alert 1))
  else (rInvalid, s)

def fenceWrite (s : State) (p : RibPort) (kind rowEdge col dir : Nat) (lift : Bool) : Nat × State :=
  match fenceNamed kind rowEdge col dir with
  | none => (rInvalid, s)
  | some f => if lift then s.fenceLift f else s.fenceAsk p f

/-! ### The write effect of every register -/

/-- RW1C bits of a register of a port. -/
def ribClears (w : Wafer) (k : Nat) (bits : BitVec 32) : Nat × Wafer := (0, w.setRib32 k (w.rib32 k &&& ~~~bits))

/-- RIB_VOL_CMD (R112, R289). -/
def volCmdWrite (w : Wafer) (v : BitVec 32) : Nat × Wafer :=
  let vol := get32 v 0 6
  if vol = 0 || get32 v 6 2 = 0 then (rInvalid, w)
  else if get32 v 6 2 = 1 then (0, (w.opCreate vol (get32 v 8 8) (if v.getLsbD 22 then some (get32 v 16 6) else none)).2)
  else if get32 v 6 2 = 2 then (0, (w.opReset vol).2) else (0, (w.opDestroy vol).2)

/-- What a write of `v` to register `a` does, past the checks of `writeStop`: its code and the state after it. `rejoin`: the
tests of a site that a reset of it meets; `lands`: whether a window write that an ABORT abandons lands. -/
def writeEffect (s : State) (p : RibPort) (a : Nat) (v : BitVec 32) (rejoin : Option SewIn) (lands : Bool) : Nat × State :=
  let onW (f : Wafer → Nat × Wafer) : Nat × State := let r := f s.waf; (r.1, { s with waf := r.2 })
  let own := Wafer.ribKey p a
  let keep (mask : BitVec 32) : Nat × State := onW fun w => (0, w.setRib32 (if ribBanked a then own else a) (v &&& mask))
  match a with
  | 0x07 => keep 0xFFFFFFFF
  | 0x08 => onW fun w => w.leaseWrite p (get32 v 0 2) (BitVec.ofNat 16 (get32 v 16 16))
  | 0x0A => onW fun w => ribClears w own (v &&& 7)
  | 0x0B => onW fun w => (0, if v.getLsbD 0 then w.setRib32 0x0B 0 else w)
  | 0x0D => onW fun w => (0, if v.getLsbD 31 then w.setRib32 own 0 else w)
  | 0x20 | 0x28 => keep 0xFFFFFFF8
  | 0x21 => onW fun w => w.winCommit 0 v
  | 0x29 => onW fun w => w.winCommit 1 v
  | 0x22 => onW fun w => (0, w.setWin 0 { w.win 0 with buf := putF (w.win 0).buf 0 32 v.toNat })
  | 0x2A => onW fun w => (0, w.setWin 1 { w.win 1 with buf := putF (w.win 1).buf 0 32 v.toNat })
  | 0x23 => onW fun w => w.winIssue 0 v
  | 0x2B => onW fun w => w.winIssue 1 v
  | 0x24 | 0x2C =>
    let n := (a - 0x20) / 8
    let s := if v.getLsbD 3 && lands then s.winLands n else s
    let r := s.waf.winControl n v
    (r.1, { s with waf := r.2 })
  | 0x25 | 0x2D => onW fun w => ribClears w a (v &&& 0xE)
  | 0x30 => s.ribReset (get32 v 0 3) (get32 v 16 16) (get32 v 8 7) rejoin
  | 0x31 => onW fun w => ribClears w a (v &&& 8)
  | 0x32 => (0, s.onSup (fun q => { q with nextSlot := v.getLsbD 0 }))
  | 0x33 => s.fenceWrite p (get32 v 0 2) (get32 v 2 4) (get32 v 6 4) (get32 v 10 2) (v.getLsbD 12)
  | 0x34 => keep 0x3F
  | 0x40 => onW fun w => volCmdWrite w v
  | 0x41 => onW fun w => ribClears w a (v &&& 2)
  | 0x42 => keep 0xFFFFFFFE
  | 0x43 => keep 0xFFFFFFFF
  | 0x48 | 0x4C => if Wafer.lveOk a v then keep 0xFFFF else (rInvalid, s)
  | 0x49 => if Wafer.lveOk a v then keep 0x3FF else (rInvalid, s)
  | 0x4A => if Wafer.lveOk a v then keep 0xFFFFFFFF else (rInvalid, s)
  | 0x4B => if Wafer.lveOk a v then keep 0xFFF else (rInvalid, s)
  | 0x50 => keep 0xFF
  | 0x51 => keep 0x1FFFFF
  | 0x52 | 0x53 | 0x54 => keep 0xFFFFFFFF
  | 0x55 => onW fun w => w.folCommand (get32 v 0 2)
  | 0x60 | 0x62 | 0x64 | 0x66 | 0x68 | 0x6A | 0x6C | 0x6E => onW fun w => w.mbxOut p ((a - 0x60) / 2) v
  | 0x70 => onW fun w => (0, w.mbxFlagsWrite p v)
  | 0x74 => onW fun w => ribClears w own (v &&& 0x7FFF)
  | 0x75 => keep 0x7FFF
  | 0x77 => keep 1
  | _ => (rRoWrite, s)

/-- A WRITE of register `a` by itself. -/
def ribPut (s : State) (p : RibPort) (tag : BitVec 4) (a : Nat) (v : BitVec 32) (rejoin : Option SewIn) (lands : Bool) : State :=
  s.writeReg p a tag (fun s => s.writeEffect p a v rejoin lands)

/-! ### Two writes of one register in one slot (R121, R122) -/

/-- Two writes of one register in one slot (R121): port A's write applies first, and the register's action happens once where
the words are equal. -/
def writePair (s : State) (p : RibPort) (tag : BitVec 4) (a : Nat) (v : BitVec 32) (peer : PeerWrite) : State :=
  let q := otherPort p
  let first (s : State) : State :=
    match p with
    | .a => (s.ribPut .a tag a v none false).ribPut .b peer.tag a peer.data none false
    | .b => (s.ribPut .a peer.tag a peer.data none false).ribPut .b tag a v none false
  if a = 8 then s.leasePair p tag (get32 v 0 2) (BitVec.ofNat 16 (get32 v 16 16)) peer
  else if ribReserved a || ribBanked a || ribLeased a || ribReadOnly a then first s
  else if !s.portServed q then (s.ribPut p tag a v none false).respond q peer.tag rUnavailable 0
  else
    s.request p tag fun s =>
      if v = peer.data then
        let r := s.writeEffect p a v none false
        let s := r.2.complete p 2 a tag r.1 (r.2.ribValue p a)
        s.complete q 2 a peer.tag r.1 (s.ribValue q a)
      else
        let s := s.onWafer (fun w => w.recordCollision a)
        let s := s.complete p 2 a tag rCollided (s.ribValue p a)
        s.complete q 2 a peer.tag rCollided (s.ribValue q a)

end State

/-! ### Meanings -/

/-- RIB_WRITE (R97, R106, R108, R112–R116, R120–R123): bit 7 of ADDR is reserved. -/
def execRibWrite (port : RibPort) (tag : BitVec 4) (addr : BitVec 8) (data : BitVec 32) (peer : Option PeerWrite) (s : State) :
    Host.Outcome State Fault Refusal :=
  .next (
    let a := addr.toNat % 128
    if addr.getLsbD 7 then s.request port tag (fun s => s.stopWrite port a tag rBadAddr)
    else match peer with
      | some q => s.writePair port tag a data q
      | none => s.ribPut port tag a data none false)

/-- The word of RIB_RESET. -/
def resetWord (kind site : Nat) (confirm : BitVec 16) : BitVec 32 := confirm ++ BitVec.ofNat 16 (kind + site * 256)

/-- RIB_RESET_WAFER (R78, R112). -/
def execRibResetWafer (port : RibPort) (tag : BitVec 4) (confirm : BitVec 16) (s : State) : Host.Outcome State Fault Refusal :=
  .next (s.ribPut port tag 0x30 (resetWord 1 0 confirm) none false)

/-- RIB_RESET_UNHAL (R112, R522). -/
def execRibResetUnhal (port : RibPort) (tag : BitVec 4) (confirm : BitVec 16) (s : State) : Host.Outcome State Fault Refusal :=
  .next (s.ribPut port tag 0x30 (resetWord 2 0 confirm) none false)

/-- RIB_RESET_SITE (R112, R160). -/
def execRibResetSite (port : RibPort) (tag : BitVec 4) (confirm : BitVec 16) (site : Fin 128) (rejoin : Option SewIn) (s : State) :
    Host.Outcome State Fault Refusal :=
  .next (s.ribPut port tag 0x30 (resetWord 4 site confirm) rejoin false)

/-- The word of RIB_FENCE_REQ. -/
def fenceReqWord (kind : BitVec 2) (rowEdge col : BitVec 4) (dir : BitVec 2) (lift : Bool) : BitVec 32 :=
  BitVec.ofNat 32 (kind.toNat + rowEdge.toNat * 4 + col.toNat * 2 ^ 6 + dir.toNat * 2 ^ 10 + (if lift then 2 ^ 12 else 0))

/-- FENCE_REQ (R158, R159). -/
def execFenceReq (port : RibPort) (tag : BitVec 4) (kind : BitVec 2) (rowEdge col : BitVec 4) (dir : BitVec 2) (s : State) :
    Host.Outcome State Fault Refusal :=
  .next (s.ribPut port tag 0x33 (fenceReqWord kind rowEdge col dir false) none false)

/-- UNFENCE (R159). -/
def execUnfence (port : RibPort) (tag : BitVec 4) (kind : BitVec 2) (rowEdge col : BitVec 4) (dir : BitVec 2) (s : State) :
    Host.Outcome State Fault Refusal :=
  .next (s.ribPut port tag 0x33 (fenceReqWord kind rowEdge col dir true) none false)

/-- BIND (R112, R114). -/
def execBind (port : RibPort) (tag : BitVec 4) (s : State) : Host.Outcome State Fault Refusal :=
  .next (s.ribPut port tag 0x55 1 none false)

/-- CONFIG (R112, R114). -/
def execConfig (port : RibPort) (tag : BitVec 4) (s : State) : Host.Outcome State Fault Refusal :=
  .next (s.ribPut port tag 0x55 2 none false)

/-- FOL_FETCH (R112). -/
def execFolFetch (port : RibPort) (tag : BitVec 4) (s : State) : Host.Outcome State Fault Refusal :=
  .next (s.ribPut port tag 0x55 3 none false)

/-- WIN_ABORT (R127). -/
def execWinAbort (port : RibPort) (tag : BitVec 4) (win : Fin 2) (autoInc prefetch lands : Bool) (s : State) :
    Host.Outcome State Fault Refusal :=
  .next (s.ribPut port tag (Wafer.winAddr win 4)
    (BitVec.ofNat 32 (8 + (if autoInc then 1 else 0) + (if prefetch then 2 else 0))) none lands)

/-- WIN_ACCESS_DONE (R127): within 50 µs of the access's start. -/
def execWinAccessDone (win : Fin 2) (s : State) : Host.Outcome State Fault Refusal :=
  .next (match (s.waf.win win).acc with
    | some x => if s.sup.inReset || us 50 < since x.since s.waf.now then s else s.winDone win
    | none => s)

/-- WIN_TIMEOUT (R127): not complete after 50 µs; `landed`: a write has reached its target. -/
def execWinTimeout (win : Fin 2) (landed : Bool) (s : State) : Host.Outcome State Fault Refusal :=
  .next (match (s.waf.win win).acc with
    | some x =>
      if s.sup.inReset || since x.since s.waf.now < us 50 then s
      else (if landed then s.winLands win else s).onWafer (fun w => w.winFault win 4 true)
    | none => s)

end Sys2Proof.Machine
end

