-- ==== Sys2Proof/Machine/Dispatch.lean ====
section
/-! DEFINITION. One arm per command: each calls the meaning of that command. -/

namespace Sys2Proof.Machine

def exec (i : Instr) (s : State) : Host.Outcome State Fault Refusal :=
  match i with
  | .tickEdge edge lv0 held0 lv1 held1 => Sys2Proof.Machine.execTickEdge edge lv0 held0 lv1 held1 s
  | .folioStamp edge path stamp => Sys2Proof.Machine.execFolioStamp edge path stamp s
  | .derivedAdvance edge => Sys2Proof.Machine.execDerivedAdvance edge s
  | .beaconSample edge => Sys2Proof.Machine.execBeaconSample edge s
  | .beaconApply site edge sample => Sys2Proof.Machine.execBeaconApply site edge sample s
  | .stale site edge => Sys2Proof.Machine.execStale site edge s
  | .staleFault site edge => Sys2Proof.Machine.execStaleFault site edge s
  | .stall ctr => Sys2Proof.Machine.execStall ctr s
  | .folCntCfgWrite src ctr value => Sys2Proof.Machine.execFolCntCfgWrite src ctr value s
  | .folCntLoad src ctr value => Sys2Proof.Machine.execFolCntLoad src ctr value s
  | .folCntNomrateWrite src ctr value => Sys2Proof.Machine.execFolCntNomrateWrite src ctr value s
  | .clrDiscards src ctr => Sys2Proof.Machine.execClrDiscards src ctr s
  | .folAlmWrite src site alarm reg value => Sys2Proof.Machine.execFolAlmWrite src site alarm reg value s
  | .deadlineAbort site rec => Sys2Proof.Machine.execDeadlineAbort site rec s
  | .supervisorStart vin => Sys2Proof.Machine.execSupervisorStart vin s
  | .supervisorStop vin => Sys2Proof.Machine.execSupervisorStop vin s
  | .powerOn vin => Sys2Proof.Machine.execPowerOn vin s
  | .internalResetRelease resetPinHigh => Sys2Proof.Machine.execInternalResetRelease resetPinHigh s
  | .railFault group => Sys2Proof.Machine.execRailFault group s
  | .railRestart => Sys2Proof.Machine.execRailRestart s
  | .powerFail bulk lost => Sys2Proof.Machine.execPowerFail bulk lost s
  | .powerFailRestart vin heldUs => Sys2Proof.Machine.execPowerFailRestart vin heldUs s
  | .overvolt entry volts heldUs => Sys2Proof.Machine.execOvervolt entry volts heldUs s
  | .entryLost entry volts reversed => Sys2Proof.Machine.execEntryLost entry volts reversed s
  | .entryRejoin entry volts heldUs => Sys2Proof.Machine.execEntryRejoin entry volts heldUs s
  | .inputLow entry volts heldUs => Sys2Proof.Machine.execInputLow entry volts heldUs s
  | .refSwitch => Sys2Proof.Machine.execRefSwitch s
  | .refValid refB offPpm heldUs => Sys2Proof.Machine.execRefValid refB offPpm heldUs s
  | .refReturn => Sys2Proof.Machine.execRefReturn s
  | .refLost heldUs => Sys2Proof.Machine.execRefLost heldUs s
  | .coolantSample inlet outlet flow leak => Sys2Proof.Machine.execCoolantSample inlet outlet flow leak s
  | .capRaise => Sys2Proof.Machine.execCapRaise s
  | .trip conditions die => Sys2Proof.Machine.execTrip conditions die s
  | .tripClear lowUs clearUs => Sys2Proof.Machine.execTripClear lowUs clearUs s
  | .resetPin lowNs => Sys2Proof.Machine.execResetPin lowNs s
  | .internalReset => Sys2Proof.Machine.execInternalReset s
  | .ribNop port tag => Sys2Proof.Machine.execRibNop port tag s
  | .ribRead port tag addr => Sys2Proof.Machine.execRibRead port tag addr s
  | .ribWrite port tag addr data peer => Sys2Proof.Machine.execRibWrite port tag addr data peer s
  | .ribEcho port tag addr data => Sys2Proof.Machine.execRibEcho port tag addr data s
  | .ribFrameAbort port edges => Sys2Proof.Machine.execRibFrameAbort port edges s
  | .ribSelTimeout port lowUs => Sys2Proof.Machine.execRibSelTimeout port lowUs s
  | .loReadLatch port tag pair => Sys2Proof.Machine.execLoReadLatch port tag pair s
  | .peerAlive port => Sys2Proof.Machine.execPeerAlive port s
  | .acquire port tag key peer => Sys2Proof.Machine.execAcquire port tag key peer s
  | .renew port tag key => Sys2Proof.Machine.execRenew port tag key s
  | .release port tag key => Sys2Proof.Machine.execRelease port tag key s
  | .expired => Sys2Proof.Machine.execExpired s
  | .ribPortErrClear port tag => Sys2Proof.Machine.execRibPortErrClear port tag s
  | .ribResetWafer port tag confirm => Sys2Proof.Machine.execRibResetWafer port tag confirm s
  | .ribResetUnhal port tag confirm => Sys2Proof.Machine.execRibResetUnhal port tag confirm s
  | .ribResetSite port tag confirm site rejoin => Sys2Proof.Machine.execRibResetSite port tag confirm site rejoin s
  | .fenceReq port tag kind rowEdge col dir => Sys2Proof.Machine.execFenceReq port tag kind rowEdge col dir s
  | .unfence port tag kind rowEdge col dir => Sys2Proof.Machine.execUnfence port tag kind rowEdge col dir s
  | .volCreate port tag vol profile vf vfValid => Sys2Proof.Machine.execVolCreate port tag vol profile vf vfValid s
  | .volReset port tag vol => Sys2Proof.Machine.execVolReset port tag vol s
  | .volDestroy port tag vol => Sys2Proof.Machine.execVolDestroy port tag vol s
  | .bind port tag => Sys2Proof.Machine.execBind port tag s
  | .config port tag => Sys2Proof.Machine.execConfig port tag s
  | .folFetch port tag => Sys2Proof.Machine.execFolFetch port tag s
  | .winAddrCommit port tag win hi => Sys2Proof.Machine.execWinAddrCommit port tag win hi s
  | .winWrite port tag win hi => Sys2Proof.Machine.execWinWrite port tag win hi s
  | .winDataHiRead port tag win => Sys2Proof.Machine.execWinDataHiRead port tag win s
  | .winRead port tag win autoInc prefetch => Sys2Proof.Machine.execWinRead port tag win autoInc prefetch s
  | .winAbort port tag win autoInc prefetch lands => Sys2Proof.Machine.execWinAbort port tag win autoInc prefetch lands s
  | .winAccessDone win => Sys2Proof.Machine.execWinAccessDone win s
  | .winTimeout win landed => Sys2Proof.Machine.execWinTimeout win landed s
  | .collation inp => Sys2Proof.Machine.execCollation inp s
  | .rootClaim to8 qualifies acked => Sys2Proof.Machine.execRootClaim to8 qualifies acked s
  | .crosslinkDown to8 => Sys2Proof.Machine.execCrosslinkDown to8 s
  | .discover node dir stamp => Sys2Proof.Machine.execDiscover node dir stamp s
  | .ident node report => Sys2Proof.Machine.execIdent node report s
  | .unhalReady => Sys2Proof.Machine.execUnhalReady s
  | .unhalStartTimeout => Sys2Proof.Machine.execUnhalStartTimeout s
  | .measAppend src digest => Sys2Proof.Machine.execMeasAppend src digest s
  | .routeSwitch => Sys2Proof.Machine.execRouteSwitch s
  | .rejoinFail site => Sys2Proof.Machine.execRejoinFail site s
  | .flitReceive port flit => Sys2Proof.Machine.execFlitReceive port flit s
  | .linkFlitReceive port flit => Sys2Proof.Machine.execLinkFlitReceive port flit s
  | .linkFlitSend port => Sys2Proof.Machine.execLinkFlitSend port s
  | .routerForward port cls esc => Sys2Proof.Machine.execRouterForward port cls esc s
  | .escapeMove port cls waited => Sys2Proof.Machine.execEscapeMove port cls waited s
  | .ackTimeout link => Sys2Proof.Machine.execAckTimeout link s
  | .noProgress link => Sys2Proof.Machine.execNoProgress link s
  | .fifoSlip port separation => Sys2Proof.Machine.execFifoSlip port separation s
  | .retrain link lanes => Sys2Proof.Machine.execRetrain link lanes s
  | .retrainFail link => Sys2Proof.Machine.execRetrainFail link s
  | .frayWindow link => Sys2Proof.Machine.execFrayWindow link s
  | .linkRetire port => Sys2Proof.Machine.execLinkRetire port s
  | .lnkClear src port => Sys2Proof.Machine.execLnkClear src port s
  | .lnkRetrain src port => Sys2Proof.Machine.execLnkRetrain src port s
  | .spineTraining link signal lanes peer => Sys2Proof.Machine.execSpineTraining link signal lanes peer s
  | .spineRetry link => Sys2Proof.Machine.execSpineRetry link s
  | .spinePacketReceive link bytes corrected uncorrectable => Sys2Proof.Machine.execSpinePacketReceive link bytes corrected uncorrectable s
  | .spinePacketSend link cls waitedNs => Sys2Proof.Machine.execSpinePacketSend link cls waitedNs s
  | .laneLost link lane => Sys2Proof.Machine.execLaneLost link lane s
  | .spineClear src link => Sys2Proof.Machine.execSpineClear src link s
  | .spineRetrain src link => Sys2Proof.Machine.execSpineRetrain src link s
  | .memRead rq => Sys2Proof.Machine.execMemRead rq s
  | .memWrite rq data => Sys2Proof.Machine.execMemWrite rq data s
  | .memAtomic rq op a b => Sys2Proof.Machine.execMemAtomic rq op a b s
  | .readRsp who tag => Sys2Proof.Machine.execReadRsp who tag s
  | .writeRsp who tag => Sys2Proof.Machine.execWriteRsp who tag s
  | .atomicRsp who tag => Sys2Proof.Machine.execAtomicRsp who tag s
  | .getS cache home line => Sys2Proof.Machine.execGetS cache home line s
  | .getE cache home line => Sys2Proof.Machine.execGetE cache home line s
  | .putS cache home line => Sys2Proof.Machine.execPutS cache home line s
  | .putE cache home line => Sys2Proof.Machine.execPutE cache home line s
  | .fwdAck cache home line => Sys2Proof.Machine.execFwdAck cache home line s
  | .complete cache home line => Sys2Proof.Machine.execComplete cache home line s
  | .dataS cache home line => Sys2Proof.Machine.execDataS cache home line s
  | .dataE cache home line => Sys2Proof.Machine.execDataE cache home line s
  | .inv cache home line => Sys2Proof.Machine.execInv cache home line s
  | .downgrade cache home line => Sys2Proof.Machine.execDowngrade cache home line s
  | .recall cache home line => Sys2Proof.Machine.execRecall cache home line s
  | .putAck cache home line => Sys2Proof.Machine.execPutAck cache home line s
  | .flush src site => Sys2Proof.Machine.execFlush src site s
  | .flushDone site => Sys2Proof.Machine.execFlushDone site s
  | .rlcDisable src site => Sys2Proof.Machine.execRlcDisable src site s
  | .memClear src site => Sys2Proof.Machine.execMemClear src site s
  | .producerDoorbell path site ring index => Sys2Proof.Machine.execProducerDoorbell path site ring index s
  | .consumerDoorbell path site ring index arm => Sys2Proof.Machine.execConsumerDoorbell path site ring index arm s
  | .ringCtrlWrite src site ring value => Sys2Proof.Machine.execRingCtrlWrite src site ring value s
  | .fetchBurst site => Sys2Proof.Machine.execFetchBurst site s
  | .fetchBurstReturn site ring => Sys2Proof.Machine.execFetchBurstReturn site ring s
  | .restore site engine => Sys2Proof.Machine.execRestore site engine s
  | .commandStart site rec => Sys2Proof.Machine.execCommandStart site rec s
  | .ringStall site ring => Sys2Proof.Machine.execRingStall site ring s
  | .syncAdd who tag src site obj addend => Sys2Proof.Machine.execSyncAdd who tag src site obj addend s
  | .syncWait who tag src site obj threshold waitUs => Sys2Proof.Machine.execSyncWait who tag src site obj threshold waitUs s
  | .syncWaitTimeout who tag => Sys2Proof.Machine.execSyncWaitTimeout who tag s
  | .syncValueWrite src site obj value => Sys2Proof.Machine.execSyncValueWrite src site obj value s
  | .qpushOperation who tag src site ring entry => Sys2Proof.Machine.execQpushOperation who tag src site ring entry s
  | .qpopOperation who tag src site ring sizeLog2 => Sys2Proof.Machine.execQpopOperation who tag src site ring sizeLog2 s
  | .queueRsp who tag => Sys2Proof.Machine.execQueueRsp who tag s
  | .syncWake who tag => Sys2Proof.Machine.execSyncWake who tag s
  | .completionRecord site ring => Sys2Proof.Machine.execCompletionRecord site ring s
  | .post actor edge ch reply word => Sys2Proof.Machine.execPost actor edge ch reply word s
  | .go actor edge ch reply words command => Sys2Proof.Machine.execGo actor edge ch reply words command s
  | .take actor edge ch reply => Sys2Proof.Machine.execTake actor edge ch reply s
  | .ack actor edge ch reply code => Sys2Proof.Machine.execAck actor edge ch reply code s
  | .withdraw actor edge ch reply => Sys2Proof.Machine.execWithdraw actor edge ch reply s
  | .stageListRead site rec => Sys2Proof.Machine.execStageListRead site rec s
  | .unitStart site rec stage => Sys2Proof.Machine.execUnitStart site rec stage s
  | .unitEnd site rec stage => Sys2Proof.Machine.execUnitEnd site rec stage s
  | .stageWatchdog site rec stage => Sys2Proof.Machine.execStageWatchdog site rec stage s
  | .commandTimeout site rec => Sys2Proof.Machine.execCommandTimeout site rec s
  | .abortComplete site rec => Sys2Proof.Machine.execAbortComplete site rec s
  | .abortSlow site rec rejoin => Sys2Proof.Machine.execAbortSlow site rec rejoin s
  | .gatherOperand vol gid shelf node level => Sys2Proof.Machine.execGatherOperand vol gid shelf node level s
  | .turnRequest site slot => Sys2Proof.Machine.execTurnRequest site slot s
  | .turnCall site slot => Sys2Proof.Machine.execTurnCall site slot s
  | .pageSend site slot => Sys2Proof.Machine.execPageSend site slot s
  | .halfSwap site slot => Sys2Proof.Machine.execHalfSwap site slot s
  | .partialCombine site rec => Sys2Proof.Machine.execPartialCombine site rec s
  | .halt src site engine => Sys2Proof.Machine.execHalt src site engine s
  | .resume src site engine => Sys2Proof.Machine.execResume src site engine s
  | .accParity site engine => Sys2Proof.Machine.execAccParity site engine s
  | .ascRowWrite src site bank offset data => Sys2Proof.Machine.execAscRowWrite src site bank offset data s
  | .pairCommit src site bank => Sys2Proof.Machine.execPairCommit src site bank s
  | .pairApply site bank => Sys2Proof.Machine.execPairApply site bank s
  | .moveStart src site bank first last dir width => Sys2Proof.Machine.execMoveStart src site bank first last dir width s
  | .moveStep site bank => Sys2Proof.Machine.execMoveStep site bank s
  | .scrubStep site bank finds => Sys2Proof.Machine.execScrubStep site bank finds s
  | .poisonRewrite site bank => Sys2Proof.Machine.execPoisonRewrite site bank s
  | .coreUnitStart site core rec stage => Sys2Proof.Machine.execCoreUnitStart site core rec stage s
  | .ecall site core => Sys2Proof.Machine.execEcall site core s
  | .coreTrap site core cause tval => Sys2Proof.Machine.execCoreTrap site core cause tval s
  | .amo site core => Sys2Proof.Machine.execAmo site core s
  | .lr site core => Sys2Proof.Machine.execLr site core s
  | .sc site core => Sys2Proof.Machine.execSc site core s
  | .bin site core => Sys2Proof.Machine.execBin site core s
  | .nstep site core => Sys2Proof.Machine.execNstep site core s
  | .folrdEntry site core => Sys2Proof.Machine.execFolrdEntry site core s
  | .folrdHeld site core => Sys2Proof.Machine.execFolrdHeld site core s
  | .folrdRefcount site core => Sys2Proof.Machine.execFolrdRefcount site core s
  | .qpush site core => Sys2Proof.Machine.execQpush site core s
  | .qpop site core => Sys2Proof.Machine.execQpop site core s
  | .syncadd site core => Sys2Proof.Machine.execSyncadd site core s
  | .syncwait site core => Sys2Proof.Machine.execSyncwait site core s
  | .leavereqQuery site core => Sys2Proof.Machine.execLeavereqQuery site core s
  | .leavereqRequest site core => Sys2Proof.Machine.execLeavereqRequest site core s
  | .leavereqRenew site core => Sys2Proof.Machine.execLeavereqRenew site core s
  | .leavereqReturn site core => Sys2Proof.Machine.execLeavereqReturn site core s
  | .leaveRequest rq => Sys2Proof.Machine.execLeaveRequest rq s
  | .leaveRecall site handle => Sys2Proof.Machine.execLeaveRecall site handle s
  | .leaveRedecide => Sys2Proof.Machine.execLeaveRedecide s
  | .leaveRenew site handle durationUs => Sys2Proof.Machine.execLeaveRenew site handle durationUs s
  | .renewDue site handle => Sys2Proof.Machine.execRenewDue site handle s
  | .leaveReturn site handle => Sys2Proof.Machine.execLeaveReturn site handle s
  | .leaveGrant site res => Sys2Proof.Machine.execLeaveGrant site res s
  | .leaveDenial site res => Sys2Proof.Machine.execLeaveDenial site res s
  | .leaveExpiry site handle => Sys2Proof.Machine.execLeaveExpiry site handle s
  | .envelopeChange => Sys2Proof.Machine.execEnvelopeChange s
  | .emergency => Sys2Proof.Machine.execEmergency s
  | .pacingWindow site => Sys2Proof.Machine.execPacingWindow site s
  | .thermalSample site base compute => Sys2Proof.Machine.execThermalSample site base compute s
  | .stepDown site => Sys2Proof.Machine.execStepDown site s
  | .siteTrip site => Sys2Proof.Machine.execSiteTrip site s
  | .transferTimeout who tag => Sys2Proof.Machine.execTransferTimeout who tag s
  | .heartbeatCheck beats rejoin => Sys2Proof.Machine.execHeartbeatCheck beats rejoin s
  | .siteLost site => Sys2Proof.Machine.execSiteLost site s
  | .mirrorWrite site rec => Sys2Proof.Machine.execMirrorWrite site rec s
  | .remirrorDone site => Sys2Proof.Machine.execRemirrorDone site s
  | .twinSet src site index value => Sys2Proof.Machine.execTwinSet src site index value s
  | .volumeHung vol => Sys2Proof.Machine.execVolumeHung vol s
  | .svcKick src => Sys2Proof.Machine.execSvcKick src s
  | .svcWatchdog slotOk => Sys2Proof.Machine.execSvcWatchdog slotOk s
  | .completionRetry site ring => Sys2Proof.Machine.execCompletionRetry site ring s
  | .pcieRestart src edge port value => Sys2Proof.Machine.execPcieRestart src edge port value s
  | .vfDoorbell edge port vf data => Sys2Proof.Machine.execVfDoorbell edge port vf data s
  | .vfHbmAccess edge port vf offset op => Sys2Proof.Machine.execVfHbmAccess edge port vf offset op s
  | .hostCompletion edge port who tag error data => Sys2Proof.Machine.execHostCompletion edge port who tag error data s
  | .rpInbound edge port busAddr op => Sys2Proof.Machine.execRpInbound edge port busAddr op s
  | .msixUnmask vf vector => Sys2Proof.Machine.execMsixUnmask vf vector s
  | .flr vf => Sys2Proof.Machine.execFlr vf s
  | .pcieLinkDown edge port sub => Sys2Proof.Machine.execPcieLinkDown edge port sub s
  | .ethFrame edge sub frame fcsGood => Sys2Proof.Machine.execEthFrame edge sub frame fcsGood s
  | .ethPauseFrame edge sub quanta => Sys2Proof.Machine.execEthPauseFrame edge sub quanta s
  | .heldFrameWrite edge sub => Sys2Proof.Machine.execHeldFrameWrite edge sub s
  | .pauseRefresh edge sub => Sys2Proof.Machine.execPauseRefresh edge sub s
  | .ethRestart src edge value => Sys2Proof.Machine.execEthRestart src edge value s
  | .hbmRefresh edge => Sys2Proof.Machine.execHbmRefresh edge s
  | .hbmTempSample edge temp => Sys2Proof.Machine.execHbmTempSample edge temp s
  | .patrolScrub edge word finds => Sys2Proof.Machine.execPatrolScrub edge word finds s
  | .unhalFolBind via ctr source input windowLog2 stallUs nominal => Sys2Proof.Machine.execUnhalFolBind via ctr source input windowLog2 stallUs nominal s
  | .unhalFolAlarmArm via ctr position action target value direction period istep pick => Sys2Proof.Machine.execUnhalFolAlarmArm via ctr position action target value direction period istep pick s
  | .unhalFolAlarmDisarm via site alarm => Sys2Proof.Machine.execUnhalFolAlarmDisarm via site alarm s
  | .unhalModStatus via buffer length => Sys2Proof.Machine.execUnhalModStatus via buffer length s
  | .unhalBootUpdate via slot image length => Sys2Proof.Machine.execUnhalBootUpdate via slot image length s
  | .unhalBootCommitVersion via version => Sys2Proof.Machine.execUnhalBootCommitVersion via version s
  | .unhalMemAlloc via kind bytes site place => Sys2Proof.Machine.execUnhalMemAlloc via kind bytes site place s
  | .unhalMemFree via address => Sys2Proof.Machine.execUnhalMemFree via address s
  | .unhalMemFlush via site => Sys2Proof.Machine.execUnhalMemFlush via site s
  | .unhalMemCopy via dest source bytes sync value => Sys2Proof.Machine.execUnhalMemCopy via dest source bytes sync value s
  | .unhalRingCreate via kind site sizeLog2 esizeLog2 memory completionRing pick => Sys2Proof.Machine.execUnhalRingCreate via kind site sizeLog2 esizeLog2 memory completionRing pick s
  | .unhalRingDestroy via ring => Sys2Proof.Machine.execUnhalRingDestroy via ring s
  | .unhalSyncAlloc via site initial pick => Sys2Proof.Machine.execUnhalSyncAlloc via site initial pick s
  | .unhalSyncFree via id => Sys2Proof.Machine.execUnhalSyncFree via id s
  | .unhalVolCreate via vol profile vf => Sys2Proof.Machine.execUnhalVolCreate via vol profile vf s
  | .unhalVolReset via vol => Sys2Proof.Machine.execUnhalVolReset via vol s
  | .unhalVolDestroy via vol => Sys2Proof.Machine.execUnhalVolDestroy via vol s
  | .unhalVolHostwin via vol index port base length write => Sys2Proof.Machine.execUnhalVolHostwin via vol index port base length write s
  | .unhalVolQuery via vol buffer length => Sys2Proof.Machine.execUnhalVolQuery via vol buffer length s
  | .unhalRotCreate via slot firstSite members image sramBytes stride banks => Sys2Proof.Machine.execUnhalRotCreate via slot firstSite members image sramBytes stride banks s
  | .unhalRotDestroy via slot => Sys2Proof.Machine.execUnhalRotDestroy via slot s
  | .unhalMatDump via site engine buffer length => Sys2Proof.Machine.execUnhalMatDump via site engine buffer length s
  | .unhalAscLoad via site bank image length count width spacing => Sys2Proof.Machine.execUnhalAscLoad via site bank image length count width spacing s
  | .unhalAscGroup via buffer length firstBank banks ranks => Sys2Proof.Machine.execUnhalAscGroup via buffer length firstBank banks ranks s
  | .unhalAscInsert via site bank beforeRow entry => Sys2Proof.Machine.execUnhalAscInsert via site bank beforeRow entry s
  | .unhalAscDelete via site bank row => Sys2Proof.Machine.execUnhalAscDelete via site bank row s
  | .unhalAscReplace via site bank row entry => Sys2Proof.Machine.execUnhalAscReplace via site bank row entry s
  | .unhalCoreQuery via site buffer length => Sys2Proof.Machine.execUnhalCoreQuery via site buffer length s
  | .unhalEnsLoad via slot image firstSite sites replicas => Sys2Proof.Machine.execUnhalEnsLoad via slot image firstSite sites replicas s
  | .unhalEnsUnload via slot => Sys2Proof.Machine.execUnhalEnsUnload via slot s
  | .unhalLveStatus via site buffer length => Sys2Proof.Machine.execUnhalLveStatus via site buffer length s
  | .unhalFltTwin via site index offset bytes => Sys2Proof.Machine.execUnhalFltTwin via site index offset bytes s
  | .unhalPrtPcieRole via port role split => Sys2Proof.Machine.execUnhalPrtPcieRole via port role split s
  | .unhalNvmeRead via port nspace lba blocks dest sync value data => Sys2Proof.Machine.execUnhalNvmeRead via port nspace lba blocks dest sync value data s
  | .unhalEthRule via port rule word0 ring stampOffset policy => Sys2Proof.Machine.execUnhalEthRule via port rule word0 ring stampOffset policy s
  | .unhalEthFlow via port subport dstMac dstIp srcPort dstPort => Sys2Proof.Machine.execUnhalEthFlow via port subport dstMac dstIp srcPort dstPort s
  | .unhalEthSend via flow buffer length sync value => Sys2Proof.Machine.execUnhalEthSend via flow buffer length sync value s
  | .refInvalid refB missed => Sys2Proof.Machine.execRefInvalid refB missed s
  | .refModeWrite src via8 value => Sys2Proof.Machine.execRefModeWrite src via8 value s
  | .forceStepWrite src site value => Sys2Proof.Machine.execForceStepWrite src site value s
  | .ribBadFrame port frame => Sys2Proof.Machine.execRibBadFrame port frame s
  | .coreInstruction site core => Sys2Proof.Machine.execCoreInstruction site core s
  | .pcieLinkUp edge port sub rate width flit => Sys2Proof.Machine.execPcieLinkUp edge port sub rate width flit s
  | .ethLinkDown edge sub => Sys2Proof.Machine.execEthLinkDown edge sub s
  | .ethLinkUp edge sub => Sys2Proof.Machine.execEthLinkUp edge sub s

end Sys2Proof.Machine
end

