-- ==== Sys2Proof/Machine/Step.lean ====
section
/-! DEFINITION. One step: the command at the front of the queue, or one tick of the clocks when none waits. -/

namespace Sys2Proof.Machine

/-- One reference cycle (10 ns) passes: FOL_REFCOUNT counts while internal reset is released (R17), and the supervisor's
own clock counts while it runs (R66). DESIGN CHOICE (log entry 4): time passes only when no command waits. -/
def tick (s : State) : State :=
  { s with
    waf := if s.sup.inReset then s.waf else { s.waf with now := s.waf.now + 1 }
    sup := if s.sup.running then { s.sup with clock := s.sup.clock + 1 } else s.sup }

/-- Take the command at the front of the queue and run it on the state with the rest; on an empty queue one tick. -/
def step (s : State) : Host.Outcome State Fault Refusal :=
  match s.pending with
  | c :: r => exec c { s with pending := r }
  | [] => .next (tick s)

/-- `s` with the command a word spells at the front of its queue; the table gives no row any bits, so no word spells one. -/
def State.withFetchWord (s : State) (nbits w : Nat) : State :=
  match Sys2Proof.decodeTableWord nbits w with
  | some c => { s with pending := c :: s.pending }
  | none => s

end Sys2Proof.Machine
end

