-- ==== Sys2Proof/Safety.lean ====
section
/-! DEFINITION. What counts as a safe run, in the terms the claims use: a command that completes, and what it leaves
unchanged. -/

namespace Sys2Proof
open Machine

/-- A step that goes on: neither a fault nor a refusal. -/
def goesOn (s : State) : Prop := ∃ t, step s = .next t

/-- The command answers a next state, and `P` holds of it. -/
def Completes (c : Instr) (s : State) (P : State → Prop) : Prop := ∃ t, exec c s = .next t ∧ P t

/-- The queue and the supervisor are as before. -/
def sameSup (s t : State) : Prop := t.pending = s.pending ∧ t.sup = s.sup

/-- Every byte of memory reads as before. -/
def sameBytes (s t : State) : Prop := ∀ a, t.waf.byte a = s.waf.byte a

/-- Every byte outside [a, a + n) reads as before. -/
def sameBytesBut (s t : State) (a n : Nat) : Prop := ∀ x, x < a ∨ a + n ≤ x → t.waf.byte x = s.waf.byte x

/-- Every register of die space whose key does not satisfy `p` reads as before. -/
def sameRegsBut (s t : State) (p : Nat → Prop) : Prop := ∀ k, ¬ p k → t.waf.reg k = s.waf.reg k

/-- The keys of one register block of n bytes at b. -/
abbrev inBlock (b n k : Nat) : Prop := b ≤ k ∧ k < b + n

/-- Every ribbon register of the common map and of both ports reads as before, but those of `p`. -/
def sameRibBut (s t : State) (p : Nat → Prop) : Prop := ∀ k, ¬ p k → t.waf.rib32 k = s.waf.rib32 k

/-- The response frame last sent on a port: tag, code and data, without the CRC (R96). -/
def answered (t : State) (p : RibPort) (tag : BitVec 4) (code : Nat) (data : BitVec 32) : Prop :=
  (match p with | .a => t.waf.rib.rspA | .b => t.waf.rib.rspB).map (fun (r : BitVec 48) => r.toNat / 2 ^ 8) =
    some (tag.toNat * 2 ^ 36 + code * 2 ^ 32 + data.toNat)

/-- The response frame last sent on a port carries the tag and this code (R96, R97). -/
def answeredCode (t : State) (p : RibPort) (tag : BitVec 4) (code : Nat) : Prop := ∃ d, answered t p tag code d

/-- The port's requests reach the register map, and no lease is about to expire. -/
abbrev portOpen (s : State) (p : RibPort) : Prop :=
  s.sup.inReset = false ∧ s.portServed p = true ∧ (s.waf.rib.holder ≠ none → s.waf.now < s.waf.rib.expiry)

/-- The port is open, holds the lease, and collation has been passed. -/
abbrev portHolds (s : State) (p : RibPort) : Prop :=
  portOpen s p ∧ s.waf.rib.holder = some p ∧ s.waf.col.reached = true

/-- The command of a memory response's arrival (R217). -/
def rspCommand (k : Acc) (q : Requester) (tag : BitVec 12) : Instr :=
  match k with
  | .read => .readRsp q tag
  | .write => .writeRsp q tag
  | .atomic => .atomicRsp q tag

/-- The place in memory of the first byte of an SRAM request at its home (R226). -/
def homeKey (h l : Nat) (rq : MemReq) : Nat := dieAddr h (l * 128) + adOff rq.addr.toNat % 128

/-- The request may be served by its home at once: its requester has none open, the line has no copy and no transaction,
the access lies in the line, and address, alignment and authority pass (R212–R217, R226). -/
abbrev servedNow (s : State) (rq : MemReq) (h l : Nat) (write : Bool) : Prop :=
  s.waf.out = [] ∧ s.waf.homeLine rq.addr.toNat = some (h, l) ∧ s.waf.homeStatus rq write = 0 ∧ s.waf.dirAt h l = none ∧
  s.waf.txAt h l = none ∧ adOff rq.addr.toNat % 128 + rq.size ≤ 128 ∧ s.waf.twins h = []

/-- The doorbell's path reaches the ring (Table QUE-11, R236). -/
abbrev dbReaches (s : State) (path : DbPath) (site ring : Nat) : Prop :=
  s.waf.active site = true ∧
  (match path with
   | .vf v => v.val = s.waf.rVol (ringBlk site ring)
   | .ring src | .site src => Wafer.queAllowed src (s.waf.rVol (ringBlk site ring)) = true)

/-- A queue operation that its site lets through: the requester has none open, the site answers, the object is allocated
and the source may use it (R236, R262). -/
abbrev syncOpen (s : State) (src : Src) (site obj : Nat) : Prop :=
  s.waf.out = [] ∧ s.waf.dieStatus site = 0 ∧ s.waf.syncLive site obj = true ∧
  Wafer.queAllowed src (s.waf.syncVol site obj) = true

/-- A core of a site in service takes the instruction at its pc: it neither waits nor drains, the fetch gives `raw`, which
stands for the 32-bit instruction `x` of this row (R420, R423). -/
abbrev coreRuns (s : State) (i k : Nat) (row : CoreRow) (raw x len : Nat) (c : Core) : Prop :=
  s.waf.active i = true ∧ s.coreAt i k = c ∧ c.wait = none ∧ c.draining = false ∧
  fetchInstr s.waf i k c = .ok (raw, x, len) ∧ coreRow x = row

/-- The core has completed an instruction of `len` bytes that writes `v` to integer register rd (register 0 discards it):
pc, the count of instructions retired and rd have changed, its mode, floating-point registers and unit have not. -/
abbrev coreDone (t : State) (i k : Nat) (c : Core) (rd : Nat) (v : Word) (len : Nat) : Prop :=
  (t.coreAt i k).pc = c.pc + BitVec.ofNat 64 len ∧ (t.coreAt i k).retired = c.retired + 1 ∧
  (∀ r < 32, (t.coreAt i k).getX r = if r = rd ∧ r ≠ 0 then v else c.getX r) ∧
  (t.coreAt i k).mmode = c.mmode ∧ (t.coreAt i k).f = c.f ∧ (t.coreAt i k).unit = c.unit

/-- Nothing but one core has changed. -/
abbrev onlyCore (s t : State) (i k : Nat) : Prop := sameSup s t ∧ t.waf = s.waf.setCore i k (t.waf.coreAt i k)

/-- The request a core's queue or sync operation leaves behind (R442): under its own name and a free tag, with the command
of its arrival. -/
abbrev coreAsks (s t : State) (i k : Nat) (x : Nat) (cmd : Requester → BitVec 12 → Instr) : Prop :=
  (t.coreAt i k).wait = some (x, s.waf.freeTag (Wafer.asker i k)) ∧
  t.waf.out.any (fun o => o.who == Wafer.asker i k && o.tag == s.waf.freeTag (Wafer.asker i k) &&
    o.need == some (cmd (Wafer.asker i k) (BitVec.ofNat 12 (s.waf.freeTag (Wafer.asker i k))))) = true ∧
  t.waf.out.length = s.waf.out.length + 1

/-- The ring a frame rule names can take the frame (R539): its site is in service, it is an enabled DATA ring of the rule's
volume with a free entry long enough, which the volume may write. -/
abbrev ruleRing (s : State) (e k site r n : Nat) : Prop :=
  site = getF (s.waf.ruleWord e k 1) 0 18 / 2048 ∧ r = getF (s.waf.ruleWord e k 1) 0 18 % 2048 ∧ s.waf.active site = true ∧
  s.waf.ringOn (ringBlk site r) = true ∧ s.waf.rKind (ringBlk site r) = 2 ∧
  s.waf.rVol (ringBlk site r) = getF (s.waf.ruleWord e k 1) 18 6 ∧ n + 16 ≤ s.waf.rEsize (ringBlk site r) ∧
  s.waf.rHeld (ringBlk site r) < s.waf.rSize (ringBlk site r) ∧
  s.waf.writeStatus (volSrc (s.waf.rVol (ringBlk site r))) (s.waf.rSlot (ringBlk site r) (s.waf.rPI (ringBlk site r))) (n + 16) = stOk

/-- The invariant of power, reset and fence list kept by every step: internal reset is released only with power good (R73); with power
on, the supervisor runs, every plane is up and MOD_PGOOD is high; with power off, every plane is down, MOD_PGOOD is low and internal
reset is asserted (R75); a stopped supervisor has no power (R66); the fence list has at most 64 entries (R158); the wafer number has 4 bits (R149).
-/
def PowerInv (s : State) : Prop :=
  (s.sup.inReset = false → s.sup.power = .on) ∧
  (s.sup.power = .on → s.sup.running = true ∧ s.sup.planes = 15 ∧ s.sup.get F.MOD_PWR_STAT.PGOOD = 1) ∧
  (s.sup.power ≠ .on → s.sup.planes = 0 ∧ s.sup.get F.MOD_PWR_STAT.PGOOD = 0 ∧ s.sup.inReset = true) ∧
  (s.sup.running = false → s.sup.power = .off) ∧ s.sup.fences.length ≤ 64 ∧ s.sup.waferNum < 16

/-! ### Calls of Unhal (R271, R279, R280) -/

/-- The channel of a call can carry it at once: its edge die is in service, Unhal runs, it is bound, in long form, asks for
no notification, and both directions are EMPTY. -/
abbrev callChan (s : State) (via : Via) : Prop :=
  s.waf.active (128 + via.edge.val) = true ∧ s.waf.col.boot.running = true ∧ Wafer.mbxRibbon via.edge.val via.ch.val = false ∧
  s.waf.flag (chanBlk via.edge.val via.ch.val) F.QUE_MBX_CFG.BOUND = true ∧
  s.waf.flag (chanBlk via.edge.val via.ch.val) F.QUE_MBX_CFG.FORM = true ∧
  s.waf.flag (chanBlk via.edge.val via.ch.val) F.QUE_MBX_CFG.NOTIFY_SYNC_EN = false ∧
  s.waf.flag (chanBlk via.edge.val via.ch.val) F.QUE_MBX_CFG.MSIX_EN = false ∧
  s.waf.mbxState via.edge.val via.ch.val false = 0 ∧ s.waf.mbxState via.edge.val via.ch.val true = 0

/-- The volume that calls. -/
abbrev callVol (s : State) (via : Via) : Nat := s.waf.callerOf via.edge.val via.ch.val

/-- A call by volume v that Unhal carries out at once: the channel is ready, and the wafer in service or DEGRADED. -/
abbrev callOpen (s : State) (via : Via) (v : Nat) : Prop :=
  callChan s via ∧ (s.waf.col.phase = 3 ∨ s.waf.col.phase = 4) ∧ v = callVol s via

/-- The call has been answered in long form: REQUEST is EMPTY, REPLY carries the call's number, the return code and the
results (R279); the registers outside the channel's directions and `p` are as before. -/
abbrev callDone (s t : State) (via : Via) (num code : Nat) (res : List Nat) (p : Nat → Prop) : Prop :=
  t.waf.mbxState via.edge.val via.ch.val false = 0 ∧ t.waf.mbxState via.edge.val via.ch.val true = 1 ∧
  t.waf.get (dirBlk via.edge.val via.ch.val true) F.QUE_MBX_HDR.COMMAND = num ∧
  t.waf.get (dirBlk via.edge.val via.ch.val true) F.QUE_MBX_HDR.WORDS = res.length + 1 ∧
  t.waf.reg (dirBlk via.edge.val via.ch.val true + 0x80) = BitVec.ofNat 64 code ∧
  (∀ i < res.length, t.waf.reg (dirBlk via.edge.val via.ch.val true + 0x88 + 8 * i) = BitVec.ofNat 64 (res.getD i 0)) ∧
  sameRegsBut s t (fun k => inBlock (dirBlk via.edge.val via.ch.val false) 0x200 k ∨ p k) ∧ t.pending = s.pending

/-- Memory holds what a store of `d` at address a leaves (R211, R515). -/
abbrev wrote (s t : State) (a : Nat) (d : List Byte) : Prop :=
  t.waf.mem = (s.waf.save a d).mem ∧ t.waf.poison = (s.waf.save a d).poison ∧ t.waf.coh = (s.waf.save a d).coh

/-- A reference of R442 names sync object j of site i of this wafer, which volume v may add x to without overflow. -/
abbrev signalOpen (s : State) (v ref i j : Nat) (x : BitVec 64) : Prop :=
  ref = s.waf.col.wafer * 2 ^ 18 + i * 2048 + j ∧ s.waf.col.wafer < 16 ∧ i < 128 ∧ j < 2048 ∧ s.waf.active i = true ∧
  s.waf.syncLive i j = true ∧ Wafer.queAllowed (volSrc v) (s.waf.syncVol i j) = true ∧
  (s.waf.syncVal i j).toNat + x.toNat < 2 ^ 64 - 1

/-- The object has taken the addition. -/
abbrev signalled (s t : State) (i j : Nat) (x : BitVec 64) : Prop := t.waf.syncVal i j = s.waf.syncVal i j + x

/-- The registers of a signal's object. -/
abbrev signalRegs (i j k : Nat) : Prop := k = syncKey i j ∨ k = syncCtlBlk i j

end Sys2Proof
end

