-- ==== Sys2Proof/WellFormed.lean ====
section
/-! DEFINITION. Commands that a sender can form: lengths of byte strings, names of dies, units and wires in range. What
the module itself checks (an address, a range, an authority) is no matter of form: its meaning answers it. -/

namespace Sys2Proof

/-- An edge die has two die-edge ports, a site four (Table MOD-1, R166). -/
def LinkEnd.wf (p : LinkEnd) : Bool := decide (p.die.val < 128) || decide (p.dir.val < 2)

def AnyLink.wf : AnyLink → Bool
  | .die p => p.wf
  | .spine _ => true

/-- The units of R216: 0–95 cores, 96–103 fetch engines, 104–115 transfer engines, 116–120 the others. -/
def Requester.wf (q : Requester) : Bool := decide (q.unit.toNat < 121)

def MemReq.wf (q : MemReq) : Bool := q.who.wf

/-- A wire of a link of one of the 160 nodes (R135–R138). -/
def WireFail.wf (f : WireFail) : Bool := decide (f.node < 160) && decide (f.dir < 5) && decide (f.wire < 2192)

def SewIn.wf (i : SewIn) : Bool := i.wires.all WireFail.wf

def DieReport.wf (r : DieReport) : Bool :=
  r.links.length == (if r.isEdge then 2 else 4) && decide (r.position < if r.isEdge then 16 else 144)

def CollIn.wf (i : CollIn) : Bool :=
  i.selftest.all (fun x => decide (x.1 < 160)) && i.stages.all (fun x => decide (x < 144)) &&
  i.straps.all (fun x => decide (x.1 < 160)) && i.wires.all WireFail.wf &&
  i.latency.all (fun x => decide (x.1 < 160) && decide (x.2.1 < 5)) && i.silent.all (fun x => decide (x < 160)) &&
  decide i.hbmFail.Nodup

/-- An entry of one, two or four rows of 32 bytes (Table ASC-1, R395). -/
def entryWf (e : List Byte) : Bool := [32, 64, 128].contains e.length

/-- The command is well formed. -/
def Instr.wf : Instr → Bool
  | .folioStamp _ _ stamp => stamp.length == 16
  | .ribFrameAbort _ edges => decide (edges < 56)
  | .ribResetSite _ _ _ _ rejoin => rejoin.all SewIn.wf
  | .collation inp => inp.wf
  | .discover node dir _ => decide (dir.val < 4) || node.val == 144 || node.val == 152
  | .ident node r => r.wf && r.isEdge == decide (144 ≤ node.val)
  | .flitReceive p _ => p.wf
  | .linkFlitReceive p _ => p.wf
  | .linkFlitSend p => p.wf
  | .routerForward p _ _ => p.wf
  | .escapeMove p _ _ => p.wf
  | .ackTimeout l => l.wf
  | .noProgress l => l.wf
  | .fifoSlip p _ => p.wf
  | .retrain l _ => l.wf
  | .retrainFail l => l.wf
  | .frayWindow l => l.wf
  | .linkRetire p => p.wf
  | .lnkClear _ p => p.wf
  | .lnkRetrain _ p => p.wf
  | .memRead rq => rq.wf && decide (0 < rq.size)
  | .memWrite rq data => rq.wf && rq.size == data.length && decide (0 < rq.size)
  | .memAtomic rq _ _ _ => rq.wf && rq.size == 8
  | .readRsp who _ => who.wf
  | .writeRsp who _ => who.wf
  | .atomicRsp who _ => who.wf
  | .syncAdd who _ _ _ _ _ => who.wf
  | .syncWait who _ _ _ _ _ _ => who.wf
  | .syncWaitTimeout who _ => who.wf
  | .qpushOperation who _ _ _ _ entry => who.wf && [8, 16, 32, 64, 128, 256].contains entry.length
  | .qpopOperation who _ _ _ _ n => who.wf && decide (3 ≤ n) && decide (n ≤ 16)
  | .queueRsp who _ => who.wf
  | .syncWake who _ => who.wf
  | .abortSlow _ _ rejoin => rejoin.all SewIn.wf
  | .gatherOperand _ _ _ node level => decide (node < 256) && decide (level < 8)
  | .ascRowWrite _ _ _ off data => decide (off + data.length ≤ 4096 * 32) && decide (0 < data.length)
  | .leaveRequest rq => decide (rq.res < 1024)
  | .leaveGrant _ res => decide (res < 1024)
  | .leaveDenial _ res => decide (res < 1024)
  | .thermalSample _ base compute => base.length == 8 && compute.length == 8
  | .transferTimeout who _ => who.wf
  | .heartbeatCheck beats rejoin => decide beats.Nodup && rejoin.all SewIn.wf
  | .vfDoorbell _ _ _ data => decide (0 < data.length)
  | .hostCompletion _ _ who _ _ _ => who.wf
  | .ethFrame _ _ frame _ => decide (0 < frame.length)
  | .unhalAscInsert _ _ _ _ e => entryWf e
  | .unhalAscReplace _ _ _ _ e => entryWf e
  | .unhalEthFlow _ _ _ _ ip _ _ => ip.length == 4 || ip.length == 16
  | .tickEdge .. | .derivedAdvance .. | .beaconSample .. | .beaconApply .. | .stale .. | .staleFault .. | .stall ..
  | .folCntCfgWrite .. | .folCntLoad .. | .folCntNomrateWrite .. | .clrDiscards .. | .folAlmWrite ..
  | .deadlineAbort .. | .supervisorStart .. | .supervisorStop .. | .powerOn .. | .internalResetRelease ..
  | .railFault .. | .railRestart | .powerFail .. | .powerFailRestart .. | .overvolt .. | .entryLost ..
  | .entryRejoin .. | .inputLow .. | .refSwitch | .refValid .. | .refReturn | .refLost .. | .coolantSample ..
  | .capRaise | .trip .. | .tripClear .. | .resetPin .. | .internalReset | .ribNop .. | .ribRead .. | .ribWrite ..
  | .ribEcho .. | .ribSelTimeout .. | .loReadLatch .. | .peerAlive .. | .acquire .. | .renew .. | .release ..
  | .expired | .ribPortErrClear .. | .ribResetWafer .. | .ribResetUnhal .. | .fenceReq .. | .unfence .. | .volCreate ..
  | .volReset .. | .volDestroy .. | .bind .. | .config .. | .folFetch .. | .winAddrCommit .. | .winWrite ..
  | .winDataHiRead .. | .winRead .. | .winAbort .. | .winAccessDone .. | .winTimeout .. | .rootClaim ..
  | .crosslinkDown .. | .unhalReady | .unhalStartTimeout | .measAppend .. | .routeSwitch | .rejoinFail ..
  | .spineTraining .. | .spineRetry .. | .spinePacketReceive .. | .spinePacketSend .. | .laneLost .. | .spineClear ..
  | .spineRetrain .. | .getS .. | .getE .. | .putS .. | .putE .. | .fwdAck .. | .complete .. | .dataS .. | .dataE ..
  | .inv .. | .downgrade .. | .recall .. | .putAck .. | .flush .. | .flushDone .. | .rlcDisable .. | .memClear ..
  | .producerDoorbell .. | .consumerDoorbell .. | .ringCtrlWrite .. | .fetchBurst .. | .fetchBurstReturn ..
  | .restore .. | .commandStart .. | .ringStall .. | .syncValueWrite .. | .completionRecord .. | .post .. | .go ..
  | .take .. | .ack .. | .withdraw .. | .stageListRead .. | .unitStart .. | .unitEnd .. | .stageWatchdog ..
  | .commandTimeout .. | .abortComplete .. | .turnRequest .. | .turnCall .. | .pageSend .. | .halfSwap ..
  | .partialCombine .. | .halt .. | .resume .. | .accParity .. | .pairCommit .. | .pairApply .. | .moveStart ..
  | .moveStep .. | .scrubStep .. | .poisonRewrite .. | .coreUnitStart .. | .ecall .. | .coreTrap .. | .amo .. | .lr ..
  | .sc .. | .bin .. | .nstep .. | .folrdEntry .. | .folrdHeld .. | .folrdRefcount .. | .qpush .. | .qpop ..
  | .syncadd .. | .syncwait .. | .leavereqQuery .. | .leavereqRequest .. | .leavereqRenew .. | .leavereqReturn ..
  | .leaveRecall .. | .leaveRedecide | .leaveRenew .. | .renewDue .. | .leaveReturn .. | .leaveExpiry ..
  | .envelopeChange | .emergency | .pacingWindow .. | .stepDown .. | .siteTrip .. | .siteLost .. | .mirrorWrite ..
  | .remirrorDone .. | .twinSet .. | .volumeHung .. | .svcKick .. | .svcWatchdog .. | .completionRetry ..
  | .pcieRestart .. | .vfHbmAccess .. | .rpInbound .. | .msixUnmask .. | .flr .. | .pcieLinkDown .. | .ethPauseFrame ..
  | .heldFrameWrite .. | .pauseRefresh .. | .ethRestart .. | .hbmRefresh .. | .hbmTempSample .. | .patrolScrub ..
  | .unhalFolBind .. | .unhalFolAlarmArm .. | .unhalFolAlarmDisarm .. | .unhalModStatus .. | .unhalBootUpdate ..
  | .unhalBootCommitVersion .. | .unhalMemAlloc .. | .unhalMemFree .. | .unhalMemFlush .. | .unhalMemCopy ..
  | .unhalRingCreate .. | .unhalRingDestroy .. | .unhalSyncAlloc .. | .unhalSyncFree .. | .unhalVolCreate ..
  | .unhalVolReset .. | .unhalVolDestroy .. | .unhalVolHostwin .. | .unhalVolQuery .. | .unhalRotCreate ..
  | .unhalRotDestroy .. | .unhalMatDump .. | .unhalAscLoad .. | .unhalAscGroup .. | .unhalAscDelete ..
  | .unhalCoreQuery .. | .unhalEnsLoad .. | .unhalEnsUnload .. | .unhalLveStatus .. | .unhalFltTwin ..
  | .unhalPrtPcieRole .. | .unhalNvmeRead .. | .unhalEthRule .. | .unhalEthSend .. | .refInvalid .. | .refModeWrite ..
  | .forceStepWrite .. | .ribBadFrame .. | .coreInstruction .. | .pcieLinkUp .. | .ethLinkDown .. | .ethLinkUp .. => true

end Sys2Proof
end

