-- ==== Sys2Proof/Certificates/Slice0/Obligations.lean ====
section
/-! DEFINITION. The statements for the provers. Each holds of every state that meets its hypotheses, reached or not; a clause that
rests on a choice of the model names its log entry. -/

open Sys2Proof Sys2Proof.Machine

/-- A step takes the command at the front of the queue and runs it with the queue's rest (the block's form of running a
command; the model's, log entry 1). -/
def Obligations.StepRunsFrontCommand : Prop :=
  ∀ (s : State) (c : Instr) (r : List Instr), step { s with pending := c :: r } = exec c { s with pending := r }

/-- On an empty queue one reference cycle passes (log entry 4): FOL_REFCOUNT counts while internal reset is released (R17), the
supervisor's clock while it runs (R66), and nothing else changes. -/
def Obligations.IdleTickCountsClocks : Prop :=
  ∀ s : State, s.pending = [] → ∃ t, step s = .next t ∧ t.pending = [] ∧
    t.waf = { s.waf with now := if s.sup.inReset then s.waf.now else s.waf.now + 1 } ∧
    t.sup = { s.sup with clock := if s.sup.running then s.sup.clock + 1 else s.sup.clock }

/-- The machine before power (R66, R68, R78, R109): the supervisor stopped with MOD_ALERT_EN at its reset value, internal reset asserted,
no lease, no volume, no command, no message, every ribbon register of Table RIB-7 to RIB-13 and every die-space register at its reset value.
That memory reads 0 is the model's choice (log entry 2). -/
def Obligations.ResetValues : Prop :=
  State.reset.pending = [] ∧ State.reset.sup.running = false ∧ State.reset.sup.power = .off ∧
  State.reset.sup.inReset = true ∧ State.reset.sup.reg 0x28 = 0x1FFF ∧
  State.reset.waf.rib.holder = none ∧ State.reset.waf.live = 0 ∧ State.reset.waf.cmds = [] ∧ State.reset.waf.net = [] ∧
  State.reset.waf.col.phase = 0 ∧ State.reset.waf.rib32 0x48 = 2000 ∧ State.reset.waf.rib32 0x00 = 0x84204B54 ∧
  (∀ k, State.reset.waf.reg k = regReset k) ∧ (∀ a, State.reset.waf.byte a = 0)

/-- No command changes the queue of commands that wait: what a command does is on everything but the queue (log entry 1). -/
def Obligations.QueueUntouched : Prop :=
  ∀ (c : Instr) (s t : State), exec c s = .next t → t.pending = s.pending

/-- No command faults or is refused: every one answers a next state in every state (every outcome the spec describes, refusals by
the device included, is a next state). -/
def Obligations.EveryCommandAnswers : Prop := ∀ (c : Instr) (s : State), ∃ t, exec c s = .next t

/-- Headline: every step, whatever command is at the front and in every state, reached or not, keeps `PowerInv`. -/
def Obligations.PowerInvKept : Prop := ∀ s t : State, PowerInv s → step s = .next t → PowerInv t

/-- The power invariant holds before power. -/
def Obligations.PowerInvAtReset : Prop := PowerInv State.reset

/-! ### Folio counters (spec file 01) -/

/-- Sources of folio positions (R13–R15, R20–R29, R39, R40): a qualified rising edge on input 0 adds 1 modulo 2^48 to a counter whose SOURCE is
TICK; an accepted absolute stamp sets the position; a derived counter adds its increment every 100 counts; a load sets the position and
raises the epoch by 1; a write of FOL_CNT_CFG within its ranges is stored, one outside is refused; NOMRATE is copied into HELD;
CLR_DISCARDS sets DISCARDS to 0. -/
def Obligations.FolioSourcesSetPosition : Prop :=
  (∀ (s : State) (e : Fin 16) (j : Fin 16) (held0 held1 : Nat) (lv1 : Bool),
    s.waf.active (128 + e.val) = true → s.waf.cntSource (e.val * 16 + j.val) = 1 →
    s.waf.get (cntBlk (e.val * 16 + j.val)) F.FOL_CNT_CFG.TICK_INPUT = 0 → (s.waf.cnt (e.val * 16 + j.val)).q0 = false →
    s.waf.get (cntBlk (e.val * 16 + j.val)) F.FOL_CNT_CFG.GLITCH ≤ held0 →
    Completes (.tickEdge e true held0 lv1 held1) s fun t =>
      t.waf.cntPos (e.val * 16 + j.val) = (s.waf.cntPos (e.val * 16 + j.val) + 1) % 2 ^ 48 ∧ sameSup s t ∧ sameBytes s t) ∧
  (∀ (s : State) (e : Fin 16) (path : StampPath) (l : List Byte),
    s.waf.active (128 + e.val) = true → l.length = 16 → stampCrc l = fromBE ((l.drop 14).take 2) → leAt l 0 1 = 0xF5 →
    leAt l 1 1 = 0x11 → leAt l 2 1 / 16 = e.val → s.waf.cntSource (leAt l 2 1) = 4 →
    Completes (.folioStamp e path l) s fun t =>
      t.waf.cntPos (leAt l 2 1) = fromBE ((l.drop 4).take 6) ∧ sameSup s t ∧ sameBytes s t) ∧
  (∀ (s : State) (e : Fin 16) (j : Fin 16),
    s.waf.active (128 + e.val) = true → s.waf.refcount (128 + e.val) % 100 = 0 → s.waf.cntSource (e.val * 16 + j.val) = 5 →
    s.waf.get (cntBlk (e.val * 16 + j.val)) F.FOL_CNT_CFG.DERIVED_RUN = 1 →
    Completes (.derivedAdvance e) s fun t =>
      (t.waf.cnt (e.val * 16 + j.val)).frac =
        ((s.waf.cnt (e.val * 16 + j.val)).frac + (s.waf.reg (cntBlk (e.val * 16 + j.val) + 0x30)).toNat) % 2 ^ 32 ∧
      t.waf.cntPos (e.val * 16 + j.val) = (s.waf.cntPos (e.val * 16 + j.val) +
        ((s.waf.cnt (e.val * 16 + j.val)).frac + (s.waf.reg (cntBlk (e.val * 16 + j.val) + 0x30)).toNat) / 2 ^ 32) % 2 ^ 48) ∧
  (∀ (s : State) (src : Src) (c : Fin 256) (v : BitVec 64), configSrc src = true →
    Completes (.folCntLoad src c v) s fun t =>
      t.waf.cntPos c.val = v.toNat % 2 ^ 48 ∧
      t.waf.get (cntBlk c.val) F.FOL_CNT_POS.EPOCH = (s.waf.get (cntBlk c.val) F.FOL_CNT_POS.EPOCH + 1) % 256 ∧
      t.waf.get (cntBlk c.val) F.FOL_CNT_STAT.JUMP = 1) ∧
  (∀ (s : State) (src : Src) (c : Fin 256) (v : BitVec 64), configSrc src = true →
    Completes (.folCntCfgWrite src c v) s fun t =>
      if Wafer.cfgOk v then t.waf.reg (cntBlk c.val) = v &&& 0xFFFFFFFF001FFF3F else t = s) ∧
  (∀ (s : State) (src : Src) (c : Fin 256) (v : BitVec 64), configSrc src = true →
    Completes (.folCntNomrateWrite src c v) s fun t =>
      t.waf.reg (cntBlk c.val + 0x28) = v ∧ t.waf.reg (cntBlk c.val + 0x20) = v ∧
      sameRegsBut s t (fun k => k = cntBlk c.val + 0x28 ∨ k = cntBlk c.val + 0x20)) ∧
  (∀ (s : State) (src : Src) (c : Fin 256), configSrc src = true →
    Completes (.clrDiscards src c) s fun t =>
      t.waf.get (cntBlk c.val) F.FOL_CNT_STAT.DISCARDS = 0 ∧
      t.waf.get (cntBlk c.val) F.FOL_CNT_STAT.STALL = s.waf.get (cntBlk c.val) F.FOL_CNT_STAT.STALL ∧
      sameRegsBut s t (fun k => k = cntBlk c.val + 0x48))

/-- Beacons and images (R31–R34, R37, R61): a sample sends one beacon with the edge die's count; a beacon that reaches a site with no alarm
enabled and no command open becomes its image, with STALE clear; a beacon missing for more than 200 counts sets STALE on the 16 entries; STALE held
for 10 ms is logged; STALL_US without an advance declares a stall. -/
def Obligations.BeaconsAndStaleness : Prop :=
  (∀ (s : State) (e : Fin 16), s.waf.active (128 + e.val) = true → s.waf.col.reached = true →
    s.waf.refcount (128 + e.val) % 100 = 0 →
    Completes (.beaconSample e) s fun t =>
      ∃ b : Beacon, t.waf.fol.beacons = s.waf.fol.beacons ++ [b] ∧ b.edge = e.val ∧ b.sample = s.waf.refcount (128 + e.val) ∧
        b.words.length = 16 ∧ b.sites = s.waf.activeSites) ∧
  (∀ (s : State) (i : Fin 128) (e : Fin 16) (n : BitVec 64) (x : Beacon),
    s.waf.fol.beacons = [x] → x.edge = e.val → x.sample = n.toNat → x.sites.contains i.val = true → x.words.length = 16 →
    x.heldIdx < 16 → s.waf.active i.val = true → s.waf.lastSeen i.val e.val < x.sample → s.waf.refcount i.val ≤ x.sample + 200 →
    s.waf.cmds = [] → (∀ a, a < 256 → s.waf.get (almBlk i.val a) F.FOL_ALM_CFG.ENABLE = 0) →
    Completes (.beaconApply i e n) s fun t =>
      (∀ j, j < 16 → t.waf.reg (imgKey i.val (16 * e.val + j)) = putF (x.words.getD j 0) 48 1 0) ∧
      t.waf.lastSeen i.val e.val = x.sample) ∧
  (∀ (s : State) (i : Fin 128) (e : Fin 16), s.waf.lastSeen i.val e.val + 200 < s.waf.refcount i.val →
    Completes (.stale i e) s fun t =>
      ∀ j, j < 16 → t.waf.get (imgKey i.val (16 * e.val + j)) F.FOL_IMG.STALE = 1) ∧
  (∀ (s : State) (i : Fin 128) (e : Fin 16), s.waf.get (imgKey i.val (e.val * 16)) F.FOL_IMG.STALE = 1 →
    Tab.look (fun _ => 1) s.waf.fol.staleSince (i.val * 16 + e.val) ≠ 0 →
    Tab.look (fun _ => 1) s.waf.fol.staleSince (i.val * 16 + e.val) - 1 + ms 10 ≤ s.waf.refcount i.val →
    Completes (.staleFault i e) s fun t =>
      t.waf.log = s.waf.log ++ [{ sev := 1, what := 61, arg := i.val * 16 + e.val }] ∧ t.waf.regs = s.waf.regs ∧ sameBytes s t) ∧
  (∀ (s : State) (c : Fin 256), s.waf.stallDue c.val = true →
    Completes (.stall c) s fun t =>
      t.waf.get (cntBlk c.val) F.FOL_CNT_POS.STALLED = 1 ∧ t.waf.get (cntBlk c.val) F.FOL_CNT_STAT.STALL = 1 ∧
      t.waf.reg (cntBlk c.val + 0x18) = 0 ∧ t.waf.cntPos c.val = s.waf.cntPos c.val)

/-- An alarm register write (R41, R45): its owner's or Unhal's write of FOL_ALM_POS is stored; another volume's changes nothing. -/
def Obligations.AlarmWriteOnlyByOwner : Prop :=
  (∀ (s : State) (src : Src) (i : Fin 128) (a : Fin 256) (v : BitVec 64), s.waf.active i.val = true →
    s.waf.almAllowed src i.val a.val = true →
    Completes (.folAlmWrite src i a 1 v) s fun t =>
      t.waf.reg (almBlk i.val a.val + 8) = v &&& 0xFFFFFFFFFFFF ∧ sameRegsBut s t (fun k => k = almBlk i.val a.val + 8) ∧
      sameSup s t ∧ sameBytes s t) ∧
  (∀ (s : State) (vol : Fin 64) (i : Fin 128) (a : Fin 256) (r : Fin 5) (v : BitVec 64),
    vol.val ≠ s.waf.get (almBlk i.val a.val) F.FOL_ALM_CFG.VOLUME →
    Completes (.folAlmWrite (.volume vol) i a r v) s fun t => t = s)

/-! ### The supervisor (spec file 02) -/

/-- Power sequence (R66, R73, R74): a start gives the supervisor its reset values; power-on raises every plane, MOD_PGOOD and the cap; with a reference
valid for 1 ms and MOD_RESET_N high the release starts the wafer at PHASE 0; a rail fault in the sequence switches every plane off and names its group;
after 1 s the sequence runs once more; with every entry below 20 V the supervisor stops. -/
def Obligations.PowerSequence : Prop :=
  (∀ (s : State) (v : Inputs4), s.sup.running = false → entriesAny v (fun x => 2000 < x) = true →
    Completes (.supervisorStart v) s fun t =>
      t.sup.running = true ∧ t.sup.power = .off ∧ t.sup.inReset = true ∧ t.sup.fences = [] ∧ t.sup.reg 0x28 = 0x1FFF ∧
      t.sup.reg 0x08 = entriesVin v ∧ t.sup.waferNum = s.sup.waferNum ∧ t.waf = s.waf) ∧
  (∀ (s : State) (v : Inputs4), s.sup.running = true → s.sup.power = .off → entriesAll v (fun x => 4300 ≤ x) = true →
    Completes (.powerOn v) s fun t =>
      t.sup.power = .on ∧ t.sup.planes = 15 ∧ t.sup.get F.MOD_PWR_STAT.PGOOD = 1 ∧ t.sup.get F.MOD_PWR_STAT.ENTRY_OK = 15 ∧
      t.sup.get F.MOD_PWR_STAT.CAP_KW = s.sup.capNow % 2 ^ 8 ∧ t.sup.inReset = true ∧ t.waf = s.waf) ∧
  (∀ s : State, s.sup.power = .on → s.sup.inReset = true →
    (s.sup.refValidFor false 1000 = true ∨ s.sup.refValidFor true 1000 = true) →
    Completes (.internalResetRelease true) s fun t =>
      t.sup.inReset = false ∧ t.waf.col.phase = 0 ∧ t.waf.now = 0 ∧ t.waf.capKw = s.sup.get F.MOD_PWR_STAT.CAP_KW ∧
      t.waf.cmds = [] ∧ t.waf.live = 0 ∧ t.sup.fences = s.sup.fences) ∧
  (∀ (s : State) (g : Fin 4), s.sup.running = true → s.sup.power = .off →
    Completes (.railFault g) s fun t =>
      t.sup.power = .railWait s.sup.clock ∧ t.sup.planes = 0 ∧ t.sup.get F.MOD_EVENT.RAIL_FAULT = 1 ∧
      t.sup.get F.MOD_PWR_STAT.RAIL_GROUP = g.val + 1 ∧ t.sup.get F.MOD_PWR_STAT.PGOOD = 0) ∧
  (∀ (s : State) (t0 : Nat), s.sup.power = .railWait t0 → t0 + ms 1000 ≤ s.sup.clock →
    Completes .railRestart s fun t => t.sup.power = .on ∧ t.sup.planes = 15 ∧ t.sup.get F.MOD_PWR_STAT.PGOOD = 1) ∧
  (∀ (s : State) (v : Inputs4), s.sup.running = true → entriesAll v (fun x => x < 2000) = true →
    Completes (.supervisorStop v) s fun t =>
      t.sup.running = false ∧ t.sup.power = .off ∧ t.sup.inReset = true ∧ t.waf.cmds = [] ∧ t.sup.flash = s.sup.flash)

/-- Shutdowns (R71, R75–R77): bulk below 42 V, or two entries lost, latches POWER_FAIL and takes every plane down; an entry above 59 V for 10 µs latches OVERVOLT and
OV_LATCH; a lost entry clears its ENTRY_OK bit and caps the envelope at 15; one that has held 44–58 V for 1 s rejoins; 44 V not reached for 100 µs
latches INPUT_LOW; after a power fail the module restarts with every entry at 43 V for 100 ms. On-wafer state is lost, host memory is kept. -/
def Obligations.PowerLossAndReturn : Prop :=
  (∀ (s : State) (b : BitVec 16) (n : Fin 5), s.sup.power = .on → (b.toNat < 4200 ∨ 2 ≤ n.val) →
    Completes (.powerFail b n) s fun t =>
      t.sup.power = .failed ∧ t.sup.planes = 0 ∧ t.sup.inReset = true ∧ t.sup.get F.MOD_EVENT.POWER_FAIL = 1 ∧ t.waf.cmds = [] ∧
      t.waf.mem = s.waf.mem.filter outside) ∧
  (∀ (s : State) (v : Inputs4) (us : Nat), s.sup.power = .failed → entriesAll v (fun x => 4300 ≤ x) = true → 100000 ≤ us →
    Completes (.powerFailRestart v us) s fun t =>
      t.sup.power = .on ∧ t.sup.planes = 15 ∧ t.sup.get F.MOD_PWR_STAT.PGOOD = 1 ∧ t.sup.entryCap = false) ∧
  (∀ (s : State) (e : Fin 4) (v : BitVec 16) (us : Nat), s.sup.running = true → 5900 < v.toNat → 10 ≤ us →
    Completes (.overvolt e v us) s fun t =>
      t.sup.planes = 0 ∧ t.sup.get F.MOD_EVENT.OVERVOLT = 1 ∧ t.sup.get F.MOD_PWR_STAT.OV_LATCH = 1 ∧ t.sup.inReset = true) ∧
  (∀ (s : State) (e : Fin 4) (v : BitVec 16) (rev : Bool), s.sup.power = .on → Nat.testBit s.sup.entriesOk e.val = true →
    (v.toNat < 4000 ∨ rev = true) →
    Completes (.entryLost e v rev) s fun t =>
      Nat.testBit t.sup.entriesOk e.val = false ∧ t.sup.entryCap = true ∧ t.sup.get F.MOD_EVENT.ENTRY_LOST = 1 ∧
      t.sup.get F.MOD_PWR_STAT.CAP_KW ≤ 15) ∧
  (∀ (s : State) (e : Fin 4) (v : BitVec 16) (us : Nat), s.sup.power = .on → Nat.testBit s.sup.entriesOk e.val = false →
    4400 ≤ v.toNat → v.toNat ≤ 5800 → 1000000 ≤ us →
    Completes (.entryRejoin e v us) s fun t =>
      t.sup.entriesOk = (s.sup.entriesOk + 2 ^ e.val) % 16 ∧ (t.sup.entriesOk = 15 → t.sup.entryCap = false)) ∧
  (∀ (s : State) (e : Fin 4) (v : BitVec 16) (us : Nat), s.sup.running = true → v.toNat < 4400 → 100 ≤ us →
    Completes (.inputLow e v us) s fun t =>
      t.sup.get F.MOD_EVENT.INPUT_LOW = 1 ∧ t.sup.power = s.sup.power ∧ t.waf.regs = s.waf.regs ∧ sameBytes s t)

/-- References (R79–R82): a reference within 100 ppm for 1 ms becomes valid; four missed edges make it invalid; the selection leaves an invalid reference for a
valid one and returns to a named one that has been valid for 1 s; with neither valid for 10 µs internal reset is asserted, power staying on; a REF_MODE below 3
is stored. -/
def Obligations.References : Prop :=
  (∀ (s : State) (b : Bool) (ppm us : Nat), s.sup.running = true → ppm ≤ 100 → 1000 ≤ us → s.sup.refOk b = false →
    Completes (.refValid b ppm us) s fun t => t.sup.refOk b = true ∧ t.sup.power = s.sup.power ∧ t.waf = s.waf) ∧
  (∀ (s : State) (b : Bool) (n : Nat), s.sup.running = true → 4 ≤ n → s.sup.refOk b = true →
    Completes (.refInvalid b n) s fun t =>
      t.sup.refOk b = false ∧ t.sup.refOk (!b) = s.sup.refOk (!b) ∧ t.sup.get F.MOD_EVENT.REF_DEGRADED = 1) ∧
  (∀ s : State, s.sup.running = true → s.sup.refOk (s.sup.flag F.MOD_PWR_STAT.REF_SEL) = false →
    s.sup.refOk (!s.sup.flag F.MOD_PWR_STAT.REF_SEL) = true →
    Completes .refSwitch s fun t =>
      t.sup.flag F.MOD_PWR_STAT.REF_SEL = !s.sup.flag F.MOD_PWR_STAT.REF_SEL ∧ t.sup.get F.MOD_EVENT.REF_SWITCH = 1 ∧
      t.sup.get F.MOD_EVENT.REF_DEGRADED = 1) ∧
  (∀ (s : State) (b : Bool), s.sup.running = true → s.namedRef = some b → s.sup.refValidFor b 1000000 = true →
    s.sup.flag F.MOD_PWR_STAT.REF_SEL ≠ b →
    Completes .refReturn s fun t =>
      t.sup.flag F.MOD_PWR_STAT.REF_SEL = b ∧ t.sup.get F.MOD_EVENT.REF_SWITCH = 1) ∧
  (∀ (s : State) (us : Nat), s.sup.power = .on → s.sup.refOk false = false → s.sup.refOk true = false → 10 ≤ us →
    Completes (.refLost us) s fun t =>
      t.sup.inReset = true ∧ t.sup.power = .on ∧ t.sup.get F.MOD_EVENT.REF_LOST = 1 ∧ t.waf.cmds = [] ∧
      t.waf.mem = s.waf.mem.filter outside) ∧
  (∀ (s : State) (src : Src) (via8 : Bool) (v : BitVec 64), s.sup.running = true → configSrc src = true → getF v 0 2 ≠ 3 →
    Completes (.refModeWrite src via8 v) s fun t => t.sup.get F.MOD_CLK_CFG.REF_MODE = getF v 0 2)

/-- Coolant, trips and reset pins (R84–R86, R78, R92): a sample is stored and a lower cap applies at once; a cap that has been due for 10 s is raised; a trip records its causes and
shuts down; 10 ms of MOD_RESET_N low with every condition clear for 10 s clears it; 1 µs of MOD_RESET_N low asserts internal reset; the reset due to RIB_RESET WAFER
comes when its time has come. -/
def Obligations.CoolantTripsAndResets : Prop :=
  (∀ (s : State) (i o f : BitVec 16) (leak : Bool), s.sup.running = true → s.sup.power = .on → s.sup.entryCap = false →
    Sup.capFor i.toInt f.toNat < s.sup.coolCap →
    Completes (.coolantSample i o f leak) s fun t =>
      t.sup.get F.MOD_COOL.INLET = i.toNat ∧ t.sup.get F.MOD_COOL.OUTLET = o.toNat ∧ t.sup.get F.MOD_COOL.FLOW = f.toNat ∧
      t.sup.coolCap = Sup.capFor i.toInt f.toNat ∧ t.sup.get F.MOD_PWR_STAT.CAP_KW = Sup.capFor i.toInt f.toNat) ∧
  (∀ (s : State) (t0 m : Nat), s.sup.running = true → s.sup.capClear = some (t0, m) → t0 + ms 10000 ≤ s.sup.clock →
    Completes .capRaise s fun t => t.sup.coolCap = m ∧ t.sup.capClear = none) ∧
  (∀ (s : State) (c : BitVec 7) (die : BitVec 8), s.sup.running = true → s.sup.power ≠ .tripped → c.toNat % 8 ≠ 0 →
    Completes (.trip c die) s fun t =>
      t.sup.power = .tripped ∧ t.sup.planes = 0 ∧ t.sup.thermTrip = true ∧
      t.sup.get F.MOD_TRIP_CAUSE.CAUSE = c.toNat % 8 + s.sup.coolantTrips ∧ t.sup.get F.MOD_TRIP_CAUSE.DIE = die.toNat ∧
      t.sup.get F.MOD_EVENT.TRIP = 1) ∧
  (∀ (s : State) (a b : Nat), s.sup.power = .tripped → 10000 ≤ a → 10000000 ≤ b → s.sup.coolantClear = true →
    s.sup.flag F.MOD_PWR_STAT.OV_LATCH = false →
    Completes (.tripClear a b) s fun t => t.sup.power = .on ∧ t.sup.planes = 15 ∧ t.sup.reg 0x38 = 0) ∧
  (∀ (s : State) (ns : Nat), s.sup.power = .on → 1000 ≤ ns →
    Completes (.resetPin ns) s fun t =>
      t.sup.inReset = true ∧ t.sup.power = .on ∧ t.sup.get F.MOD_EVENT.RESET_PIN = 1 ∧ t.waf.cmds = []) ∧
  (∀ (s : State) (t0 : Nat), s.sup.resetDue = some t0 → t0 ≤ s.sup.clock →
    Completes .internalReset s fun t =>
      t.sup.inReset = true ∧ t.sup.power = s.sup.power ∧ t.sup.resetDue = none ∧ t.waf.cmds = [] ∧ t.waf.rib.holder = none)

/-! ### The ribbon ports (spec file 03) -/

/-- Frames without effect on the map (R97, R102, R110, R111, R116): a NOP answers RIB_WAFER_STAT, an ECHO its own DATA, a READ of a register of the common
scratch its value; a request cut off by RIB_SEL_N, one held for more than 10 ms and one with a bad CRC change only the port's error counts and RIB_LASTRSP; a read of a LO half latches
the HI half of its pair; PEER_ALIVE follows the other port. -/
def Obligations.RibbonReadsAndFrames : Prop :=
  (∀ (s : State) (p : RibPort) (tag : BitVec 4), portOpen s p →
    Completes (.ribNop p tag) s fun t => answered t p tag 0 (s.ribValue p 0x10) ∧ t.waf.regs = s.waf.regs ∧ t.sup = s.sup ∧ sameBytes s t) ∧
  (∀ (s : State) (p : RibPort) (tag : BitVec 4) (a : BitVec 8) (d : BitVec 32), portOpen s p →
    Completes (.ribEcho p tag a d) s fun t => answered t p tag 0 d ∧ t.waf.regs = s.waf.regs ∧ t.sup = s.sup ∧ sameBytes s t) ∧
  (∀ (s : State) (p : RibPort) (tag : BitVec 4), portOpen s p →
    Completes (.ribRead p tag 0x43) s fun t =>
      answered t p tag 0 (s.waf.rib32 0x43) ∧ sameRibBut s t (fun k => k = Wafer.ribKey p 0x0C) ∧ t.waf.regs = s.waf.regs ∧ t.sup = s.sup) ∧
  (∀ (s : State) (p : RibPort) (n : Nat), n < 56 → s.sup.inReset = false → s.portServed p = true →
    Completes (.ribFrameAbort p n) s fun t =>
      get32 (t.waf.rib32 (Wafer.ribKey p 0x0D)) 8 8 = satInc 8 (get32 (s.waf.rib32 (Wafer.ribKey p 0x0D)) 8 8) ∧
      sameRibBut s t (fun k => k = Wafer.ribKey p 0x0D ∨ k = Wafer.ribKey p 0x74)) ∧
  (∀ (s : State) (p : RibPort) (us : Nat), 10000 < us → s.sup.inReset = false → s.portServed p = true →
    Completes (.ribSelTimeout p us) s fun t =>
      get32 (t.waf.rib32 (Wafer.ribKey p 0x0D)) 8 8 = satInc 8 (get32 (s.waf.rib32 (Wafer.ribKey p 0x0D)) 8 8) ∧
      sameRibBut s t (fun k => k = Wafer.ribKey p 0x0D ∨ k = Wafer.ribKey p 0x74)) ∧
  (∀ (s : State) (p : RibPort) (f : BitVec 56), portOpen s p → ribbonCrc f.toNat 55 ≠ f.toNat % 256 →
    Completes (.ribBadFrame p f) s fun t =>
      answeredCode t p (BitVec.ofNat 4 (f.toNat / 2 ^ 48)) 3 ∧
      get32 (t.waf.rib32 (Wafer.ribKey p 0x0D)) 0 8 = satInc 8 (get32 (s.waf.rib32 (Wafer.ribKey p 0x0D)) 0 8)) ∧
  (∀ (s : State) (p : RibPort) (tag : BitVec 4) (i : Fin 4), portOpen s p →
    Completes (.loReadLatch p tag i) s fun t =>
      answered t p tag 0 (BitVec.ofNat 32 (getF (s.waf.pairWord i.val) 0 32)) ∧
      Tab.look (fun _ => 0) t.waf.rib.hi i.val = BitVec.ofNat 32 (getF (s.waf.pairWord i.val) 32 32)) ∧
  (∀ (s : State) (p : RibPort) (n : Nat), s.sup.inReset = false →
    (match p with | .a => s.waf.rib.frameB | .b => s.waf.rib.frameA) = some n → n ≤ s.waf.now → s.waf.now ≤ n + ms 1000 →
    (s.waf.rib32 (Wafer.ribKey p 0x0E)).getLsbD 0 = false →
    Completes (.peerAlive p) s fun t =>
      t.waf.rib32 (Wafer.ribKey p 0x0E) = 1 ∧ (t.waf.rib32 (Wafer.ribKey p 0x74)).getLsbD 14 = true)

/-- Writes of the ribbon map (R106, R108, R110, R118–R122): SCRATCH takes the word written; a write of a leased register without the lease answers NOT_HOLDER and changes
no register of the wafer; CLEAR empties the port's error register. -/
def Obligations.RibbonWrites : Prop :=
  (∀ (s : State) (p : RibPort) (tag : BitVec 4) (d : BitVec 32), portOpen s p →
    Completes (.ribWrite p tag 0x07 d none) s fun t =>
      t.waf.rib32 0x07 = d ∧ answered t p tag 0 d ∧ sameRibBut s t (fun k => k = 0x07 ∨ k = Wafer.ribKey p 0x0C) ∧
      t.waf.regs = s.waf.regs ∧ t.sup = s.sup ∧ sameBytes s t) ∧
  (∀ (s : State) (p : RibPort) (tag : BitVec 4) (d : BitVec 32), portOpen s p → s.waf.rib.holder ≠ some p → s.waf.col.reached = true →
    Completes (.ribWrite p tag 0x48 d none) s fun t =>
      answeredCode t p tag 1 ∧ t.waf.rib32 0x48 = s.waf.rib32 0x48 ∧ t.waf.regs = s.waf.regs ∧ t.sup = s.sup) ∧
  (∀ (s : State) (p : RibPort) (tag : BitVec 4) (d : BitVec 32), portHolds s p → Wafer.lveOk 0x48 d = true →
    Completes (.ribWrite p tag 0x48 d none) s fun t => t.waf.rib32 0x48 = d &&& 0xFFFF ∧ answeredCode t p tag 0) ∧
  (∀ (s : State) (p : RibPort) (tag : BitVec 4), portOpen s p →
    Completes (.ribPortErrClear p tag) s fun t =>
      t.waf.rib32 (Wafer.ribKey p 0x0D) = 0 ∧ answeredCode t p tag 0 ∧
      sameRibBut s t (fun k => k = Wafer.ribKey p 0x0D ∨ k = Wafer.ribKey p 0x0C))

/-- The lease (R118, R119, R121): ACQUIRE with none held grants it to the writing port with its key for 2 s; the holder's RENEW with its key starts the 2 s anew; its RELEASE ends it;
another key or port gets NOT_HOLDER and the lease stays; two ACQUIREs in one slot with none held both collide; 2 s without a renewal end it with EXPIRED on both ports. -/
def Obligations.LeaseRules : Prop :=
  (∀ (s : State) (p : RibPort) (tag : BitVec 4) (key : BitVec 16), portOpen s p → s.waf.rib.holder = none →
    Completes (.acquire p tag key none) s fun t =>
      t.waf.rib.holder = some p ∧ t.waf.rib.key = key ∧ t.waf.rib.expiry = s.waf.now + 200000000 ∧ answeredCode t p tag 0 ∧
      t.waf.regs = s.waf.regs ∧ t.sup = s.sup) ∧
  (∀ (s : State) (p : RibPort) (tag : BitVec 4) (key : BitVec 16) (q : PeerWrite), portOpen s p → s.waf.rib.holder = none →
    get32 q.data 0 2 = 1 →
    Completes (.acquire p tag key (some q)) s fun t =>
      t.waf.rib.holder = none ∧ answeredCode t p tag 2 ∧ answeredCode t (otherPort p) q.tag 2) ∧
  (∀ (s : State) (p : RibPort) (tag : BitVec 4), portOpen s p → s.waf.rib.holder = some p →
    Completes (.renew p tag s.waf.rib.key) s fun t =>
      t.waf.rib.holder = some p ∧ t.waf.rib.key = s.waf.rib.key ∧ t.waf.rib.expiry = s.waf.now + 200000000 ∧ answeredCode t p tag 0) ∧
  (∀ (s : State) (p : RibPort) (tag : BitVec 4) (key : BitVec 16), portOpen s p →
    (s.waf.rib.holder ≠ some p ∨ s.waf.rib.key ≠ key) →
    Completes (.renew p tag key) s fun t =>
      t.waf.rib.holder = s.waf.rib.holder ∧ t.waf.rib.expiry = s.waf.rib.expiry ∧ answeredCode t p tag 1) ∧
  (∀ (s : State) (p : RibPort) (tag : BitVec 4), portOpen s p → s.waf.rib.holder = some p →
    Completes (.release p tag s.waf.rib.key) s fun t => t.waf.rib.holder = none ∧ answeredCode t p tag 0) ∧
  (∀ (s : State) (p : RibPort), s.sup.inReset = false → s.waf.rib.holder = some p → s.waf.rib.expiry ≤ s.waf.now →
    Completes .expired s fun t =>
      t.waf.rib.holder = none ∧ (t.waf.rib32 0x0A).getLsbD 1 = true ∧ (t.waf.rib32 (128 + 0x0A)).getLsbD 1 = true ∧
      t.waf.regs = s.waf.regs)

/-- The windows (R123–R127): a write of ADDR_HI commits the address and, with PREFETCH, starts a read there; one of DATA_HI issues the 64-bit word and, with AUTO_INC, moves the address by 8; READ starts a
read; a read of DATA_HI returns the buffer's upper half; ABORT leaves nothing pending; a write access that its target accepts ends with no fault; one not complete after 50 µs sets TIMEOUT and FAULT. -/
def Obligations.WindowAccess : Prop :=
  (∀ (s : State) (p : RibPort) (tag : BitVec 4) (n : Fin 2) (hi : BitVec 32), portOpen s p → s.waf.winPending n.val = false →
    Completes (.winAddrCommit p tag n hi) s fun t =>
      (t.waf.win n.val).cur = hi ++ s.waf.rib32 (Wafer.winAddr n.val 0) ∧ answeredCode t p tag 0 ∧
      ((t.waf.win n.val).acc.isSome = true ↔ s.waf.winPrefetch n.val = true)) ∧
  (∀ (s : State) (p : RibPort) (tag : BitVec 4) (n : Fin 2) (hi : BitVec 32), portHolds s p → s.waf.winPending n.val = false →
    Completes (.winWrite p tag n hi) s fun t =>
      (t.waf.win n.val).acc = some { addr := (s.waf.win n.val).cur,
                                     data := some (hi ++ BitVec.ofNat 32 (getF (s.waf.win n.val).buf 0 32)), since := s.waf.now } ∧
      (t.waf.win n.val).cur = (if s.waf.winAutoInc n.val then
        putF (s.waf.win n.val).cur 0 48 (getF (s.waf.win n.val).cur 0 48 + 8) else (s.waf.win n.val).cur) ∧ answeredCode t p tag 0) ∧
  (∀ (s : State) (p : RibPort) (tag : BitVec 4) (n : Fin 2) (hi : BitVec 32), portHolds s p → s.waf.winPending n.val = true →
    Completes (.winWrite p tag n hi) s fun t => answeredCode t p tag 7 ∧ (t.waf.win n.val) = (s.waf.win n.val)) ∧
  (∀ (s : State) (p : RibPort) (tag : BitVec 4) (n : Fin 2) (i f : Bool), portOpen s p → s.waf.winPending n.val = false →
    Completes (.winRead p tag n i f) s fun t =>
      (t.waf.win n.val).acc = some { addr := (s.waf.win n.val).cur, data := none, since := s.waf.now } ∧
      t.waf.winAutoInc n.val = i ∧ t.waf.winPrefetch n.val = f ∧ answeredCode t p tag 0) ∧
  (∀ (s : State) (p : RibPort) (tag : BitVec 4) (n : Fin 2), portOpen s p → s.waf.winPending n.val = false →
    (s.waf.win n.val).faulted = false →
    Completes (.winDataHiRead p tag n) s fun t =>
      answered t p tag 0 (BitVec.ofNat 32 (getF (s.waf.win n.val).buf 32 32))) ∧
  (∀ (s : State) (p : RibPort) (tag : BitVec 4) (n : Fin 2) (i f : Bool), portOpen s p →
    Completes (.winAbort p tag n i f false) s fun t =>
      (t.waf.win n.val).acc = none ∧ answeredCode t p tag 0 ∧ t.waf.regs = s.waf.regs ∧ sameBytes s t) ∧
  (∀ (s : State) (n : Fin 2) (x : WinAcc) (v : Word), s.sup.inReset = false → (s.waf.win n.val).acc = some x → x.data = some v →
    s.waf.now ≤ x.since + us 50 → (s.busWrite .ribbon x.addr.toNat (toLE 8 v.toNat)).1 = stOk →
    Completes (.winAccessDone n) s fun t => (t.waf.win n.val).acc = none ∧ t.pending = s.pending) ∧
  (∀ (s : State) (n : Fin 2) (x : WinAcc), s.sup.inReset = false → (s.waf.win n.val).acc = some x → x.since + us 50 ≤ s.waf.now →
    Completes (.winTimeout n false) s fun t =>
      (t.waf.win n.val).acc = none ∧ (t.waf.win n.val).faulted = true ∧
      (t.waf.rib32 (Wafer.winAddr n.val 5)).getLsbD 2 = true ∧ (t.waf.rib32 (Wafer.winAddr n.val 5)).getLsbD 1 = true)

/-- Folio commands of the ribbon (R112, R114): FETCH copies the selected counter's configuration into the staging registers; BIND writes the staged configuration and loads position 0; CONFIG
writes it without a load. -/
def Obligations.RibbonFolioCommands : Prop :=
  (∀ (s : State) (p : RibPort) (tag : BitVec 4), portHolds s p →
    s.waf.active (128 + (s.waf.rib32 0x50).toNat % 256 / 16) = true →
    Completes (.folFetch p tag) s fun t =>
      t.waf.rib32 0x51 = BitVec.ofNat 32 (getF (s.waf.reg (cntBlk ((s.waf.rib32 0x50).toNat % 256))) 0 21) ∧
      t.waf.rib32 0x52 = BitVec.ofNat 32 (getF (s.waf.reg (cntBlk ((s.waf.rib32 0x50).toNat % 256))) 32 32) ∧
      answeredCode t p tag 0 ∧ t.waf.regs = s.waf.regs) ∧
  (∀ (s : State) (p : RibPort) (tag : BitVec 4), portHolds s p →
    s.waf.active (128 + (s.waf.rib32 0x50).toNat % 256 / 16) = true →
    Wafer.cfgOk (BitVec.ofNat 64 ((s.waf.rib32 0x51).toNat % 2 ^ 21 + (s.waf.rib32 0x52).toNat * 2 ^ 32)) = true →
    Completes (.bind p tag) s fun t =>
      t.waf.cntPos ((s.waf.rib32 0x50).toNat % 256) = 0 ∧
      t.waf.reg (cntBlk ((s.waf.rib32 0x50).toNat % 256) + 0x28) =
        BitVec.ofNat 64 ((s.waf.rib32 0x53).toNat + (s.waf.rib32 0x54).toNat * 2 ^ 32) ∧ answeredCode t p tag 0) ∧
  (∀ (s : State) (p : RibPort) (tag : BitVec 4), portHolds s p →
    s.waf.active (128 + (s.waf.rib32 0x50).toNat % 256 / 16) = true →
    Wafer.cfgOk (BitVec.ofNat 64 ((s.waf.rib32 0x51).toNat % 2 ^ 21 + (s.waf.rib32 0x52).toNat * 2 ^ 32)) = true →
    Completes (.config p tag) s fun t =>
      t.waf.cntPos ((s.waf.rib32 0x50).toNat % 256) = s.waf.cntPos ((s.waf.rib32 0x50).toNat % 256) ∧
      t.waf.cntSource ((s.waf.rib32 0x50).toNat % 256) = (s.waf.rib32 0x51).toNat % 8 ∧ answeredCode t p tag 0)

/-- Resets and fences asked for over the ribbon (R78, R112, R158–R160): WAFER calls for internal reset 10 µs later; UNHAL stops Unhal for its restart, RIB_RESET_STAT showing BUSY and
UNHAL unless the wafer resets; SITE takes an active site with a mirror out of service and broadcasts it; before readiness a fence request is listed with BYRIBBON, and UNFENCE takes it out
again. -/
def Obligations.RibbonResetsAndFences : Prop :=
  (∀ (s : State) (p : RibPort) (tag : BitVec 4), portHolds s p →
    Completes (.ribResetWafer p tag 0xA5C3) s fun t =>
      t.sup.resetDue = some (s.sup.clock + us 10) ∧ answeredCode t p tag 0 ∧ t.waf.regs = s.waf.regs) ∧
  (∀ (s : State) (p : RibPort) (tag : BitVec 4) (c : BitVec 16), portHolds s p → c ≠ 0xA5C3 →
    Completes (.ribResetWafer p tag c) s fun t => t.sup = s.sup ∧ answeredCode t p tag 11 ∧ t.waf.regs = s.waf.regs) ∧
  (∀ (s : State) (p : RibPort) (tag : BitVec 4), portHolds s p → (s.waf.rib32 0x31).getLsbD 0 = false →
    (s.waf.col.phase = 3 ∨ s.waf.col.phase = 4) →
    Completes (.ribResetUnhal p tag 0xA5C3) s fun t =>
      t.waf.col.boot.running = false ∧
      (t.sup.inReset = true ∨ t.waf.rib32 0x31 = (s.waf.rib32 0x31 &&& 0x7F08) ||| 3)) ∧
  (∀ (s : State) (p : RibPort) (tag : BitVec 4) (i : Fin 128), portHolds s p → (s.waf.rib32 0x31).getLsbD 0 = false →
    (s.waf.col.phase = 3 ∨ s.waf.col.phase = 4) → s.waf.active i.val = true → s.noMirror i.val = false →
    Completes (.ribResetSite p tag 0xA5C3 i none) s fun t => Msg.siteLost i.val ∈ t.waf.net ∧ answeredCode t p tag 0) ∧
  (∀ (s : State) (p : RibPort) (tag : BitVec 4) (row col : BitVec 4) (f : Fence), portHolds s p → s.waf.col.phase = 2 →
    State.fenceNamed 1 row.toNat col.toNat 0 = some f → s.sup.fences.any (State.sameFence f) = false → s.sup.fences.length < 64 →
    Completes (.fenceReq p tag 1 row col 0) s fun t =>
      t.sup.fences = s.sup.fences ++ [f] ∧ f.byRibbon = true ∧ answeredCode t p tag 0) ∧
  (∀ (s : State) (p : RibPort) (tag : BitVec 4) (row col : BitVec 4) (f : Fence), portHolds s p →
    State.fenceNamed 1 row.toNat col.toNat 0 = some f → s.sup.fences = [f] →
    Completes (.unfence p tag 1 row col 0) s fun t => t.sup.fences = [] ∧ answeredCode t p tag 0)

/-! ### Collation, boot and recovery (spec files 04, 16) -/

/-- Collation and boot (R130, R139–R141, R148, R154, R156, R159, R164): from PHASE 0 with both root candidates and the crosslink well, die 0 serves and PHASE is 1; claims, DOWN, the first DISCOVER of a die and IDENT are
noted; a route switch that is due changes the bank; with at least 64 sites in service, no fence listed and every die in service reachable, Unhal's readiness leads to PHASE 3 or 4 with volume 0 live
(log entry 71), with fewer sites to a halt; a start that has failed in both slots halts; Unhal's appends extend the measurement log up to 64 entries. -/
def Obligations.CollationAndBoot : Prop :=
  (∀ (s : State) (inp : CollIn), s.sup.inReset = false → s.waf.col.phase = 0 → inp.root0 = true → inp.root8 = true →
    inp.crosslink = true → inp.fusesEqual = true → s.waf.col.claims = [] → s.waf.col.crossDown = false →
    Completes (.collation inp) s fun t =>
      t.waf.col.phase = 1 ∧ t.waf.col.root8 = false ∧ t.waf.col.served = true ∧ t.waf.col.wafer = s.sup.waferNum ∧
      t.sup.fences = s.sup.fences.filter (·.byRibbon) ∧ t.waf.regs = s.waf.regs ∧ sameBytes s t) ∧
  (∀ (s : State) (a b c : Bool), s.sup.inReset = false → s.waf.col.phase = 0 → s.waf.now ≤ ms 1 →
    Completes (.rootClaim a b c) s fun t => (a, b, c) ∈ t.waf.col.claims ∧ t.waf.regs = s.waf.regs ∧ sameSup s t ∧ sameBytes s t) ∧
  (∀ (s : State) (a : Bool), s.sup.inReset = false → s.waf.col.phase = 0 → s.waf.now ≤ us 1010 →
    Completes (.crosslinkDown a) s fun t => t.waf.col.crossDown = true ∧ t.waf.regs = s.waf.regs ∧ sameSup s t) ∧
  (∀ (s : State) (n : Fin 160) (d : Fin 5) (x : Nat), s.sup.inReset = false → s.waf.col.phase = 1 → allDies.contains n.val = true →
    tabGet s.waf.col.parents n.val = none → s.waf.logicalOf n.val = none →
    Completes (.discover n d x) s fun t =>
      tabGet t.waf.col.parents n.val = some (d.val + 1) ∧
      Tab.look (fun _ => 0) t.waf.col.refAdj n.val = ((x + 64) / 128 : Nat) - (s.waf.now : Int)) ∧
  (∀ (s : State) (n : Fin 160) (r : DieReport) (d : Nat), s.sup.inReset = false → s.waf.col.phase = 1 → s.waf.now ≤ ms 8 →
    tabGet s.waf.col.parents n.val = some d →
    Completes (.ident n r) s fun t => tabGet t.waf.col.idents n.val = some r ∧ t.waf.regs = s.waf.regs ∧ sameSup s t) ∧
  (∀ (s : State) (t0 : Nat), s.waf.col.switchAt = some t0 → t0 ≤ s.waf.now → s.waf.col.again = false →
    Completes .routeSwitch s fun t =>
      t.waf.col.bank = !s.waf.col.bank ∧ t.waf.col.switchAt = none ∧ t.waf.col.switched = some t0 ∧ t.waf.regs = s.waf.regs) ∧
  (∀ s : State, s.sup.inReset = false → s.waf.col.phase = 2 → s.waf.col.boot.running = false →
    s.waf.now ≤ s.waf.col.boot.started + ms 500 → s.waf.sitesActive < 64 →
    Completes .unhalReady s fun t => t.waf.col.phase = 5 ∧ t.waf.col.halt = 3 ∧ t.sup = s.sup) ∧
  (∀ (s : State) (r : List Nat), s.sup.inReset = false → s.waf.col.phase = 2 → s.waf.col.boot.running = false →
    s.waf.now ≤ s.waf.col.boot.started + ms 500 → 64 ≤ s.waf.sitesActive → s.sup.fences = [] → s.waf.reachable = r →
    (∀ n ∈ s.waf.col.sites ++ (List.range 16).map (· + 144), (s.waf.dieInfo n).state = 1 → n ∈ r) →
    Completes .unhalReady s fun t =>
      (t.waf.col.phase = 3 ∨ t.waf.col.phase = 4) ∧ t.waf.col.boot.running = true ∧ t.waf.live.getLsbD 0 = true ∧ t.sup = s.sup) ∧
  (∀ s : State, s.sup.inReset = false → s.waf.col.phase = 2 → s.waf.col.boot.running = false →
    s.waf.col.boot.started + ms 500 ≤ s.waf.now → s.waf.col.boot.triedBoth = true →
    Completes .unhalStartTimeout s fun t => t.waf.col.phase = 5 ∧ t.waf.col.halt = 6) ∧
  (∀ (s : State) (d : BitVec 384), s.waf.col.boot.running = true → s.waf.col.measLog.length < 64 →
    Completes (.measAppend .unhal d) s fun t =>
      t.waf.col.measLog = s.waf.col.measLog ++ [(1, toBE 48 d.toNat)] ∧
      t.waf.col.measAcc = sha384 (s.waf.col.measAcc ++ toBE 48 d.toNat) ∧ t.waf.regs = s.waf.regs)

/-! ### Links (spec file 05) -/

/-- Flits at a die-edge port (R171–R176, R180, R182, R183): a good sequenced flit with the expected number is buffered and the number moves on; a flit with a
bad CRC is dropped, counted and asks for a NAK; a LINK flit frees the held flits its ACK names and returns credits; a LINK flit that is owed is sent; the head message of a
channel is delivered at its die, or sent on where its next hop has room; one that has waited 256 cycles without credits goes by the escape channel. -/
def Obligations.FlitTransfer : Prop :=
  (∀ (s : State) (e : LinkEnd) (k : Nat) (f : BitVec 544), s.waf.endKey e = some k → Wafer.carries (s.waf.port k) = true →
    flitGood f = true → 4 ≤ flitKind f → flitF f 528 12 = (s.waf.port k).expect % 4096 →
    Completes (.flitReceive e f) s fun t =>
      (t.waf.port k).inbuf = (s.waf.port k).inbuf ++ [f] ∧ (t.waf.port k).expect = (s.waf.port k).expect + 1 ∧
      (t.waf.port k).owed = true ∧ t.waf.regs = s.waf.regs ∧ sameSup s t ∧ sameBytes s t) ∧
  (∀ (s : State) (e : LinkEnd) (k b : Nat) (f : BitVec 544), s.waf.endKey e = some k → Wafer.carries (s.waf.port k) = true →
    s.waf.portRegs k = some b → flitGood f = false →
    Completes (.flitReceive e f) s fun t =>
      (t.waf.port k).inbuf = (s.waf.port k).inbuf ∧ (t.waf.port k).nak = true ∧
      t.waf.get b F.LNK_RX.CRC_ERRS = satInc 32 (s.waf.get b F.LNK_RX.CRC_ERRS)) ∧
  (∀ (s : State) (e : LinkEnd) (k : Nat) (f : BitVec 544), s.waf.endKey e = some k → Wafer.carries (s.waf.port k) = true →
    flitGood f = true → flitKind f = 1 → flitF f 515 1 = 0 → flitF f 514 1 = 0 →
    Completes (.linkFlitReceive e f) s fun t =>
      (t.waf.port k).held = (Wafer.ackHeld (s.waf.port k) (flitF f 516 12) s.waf.now).held ∧
      (t.waf.port k).seenFreed = (List.range 8).map (fun i => flitF f (500 - 12 * i) 12) ∧
      (t.waf.port k).state = (s.waf.port k).state ∧ t.waf.regs = s.waf.regs ∧ sameSup s t) ∧
  (∀ (s : State) (e : LinkEnd) (k : Nat), s.waf.endKey e = some k → Wafer.carries (s.waf.port k) = true →
    ((s.waf.port k).owed = true ∨ (s.waf.port k).nak = true) →
    Completes (.linkFlitSend e) s fun t =>
      (t.waf.port k).wire.length = (s.waf.port k).wire.length + 1 ∧ (t.waf.port k).owed = false ∧ (t.waf.port k).nak = false ∧
      (t.waf.port k).seq = (s.waf.port k).seq ∧ t.waf.regs = s.waf.regs) ∧
  (∀ (s : State) (e : LinkEnd) (k : Nat) (cls : TClass) (esc : Bool) (f : BitVec 544) (r : List (BitVec 544)),
    s.waf.endKey e = some k → Wafer.headMsg (s.waf.port k).inbuf (classIdx cls + if esc then 4 else 0) = some (f :: r) →
    flitF f 500 3 ≠ 0 → flitF f 500 3 ≤ 5 → flitF f 516 8 < 0x90 → s.waf.hopFor (k / 4) (flitF f 464 64) esc = .here →
    Completes (.routerForward e cls esc) s fun t =>
      t.waf.link.delivered = s.waf.link.delivered ++ [(k / 4, f :: r)] ∧ t.waf.regs = s.waf.regs ∧ sameSup s t ∧ sameBytes s t) ∧
  (∀ (s : State) (e : LinkEnd) (k d : Nat) (cls : TClass) (esc : Bool) (f : BitVec 544) (r : List (BitVec 544)),
    s.waf.endKey e = some k → Wafer.headMsg (s.waf.port k).inbuf (classIdx cls + if esc then 4 else 0) = some (f :: r) →
    flitF f 500 3 ≠ 0 → flitF f 500 3 ≤ 5 → flitF f 516 8 < 0x90 → s.waf.hopFor (k / 4) (flitF f 464 64) esc = .port d →
    s.waf.mayGo (k / 4) d (classIdx cls + if esc then 4 else 0) = true →
    Wafer.roomFor (s.waf.port (Wafer.portKey (k / 4) d)) (classIdx cls + if esc then 4 else 0) (flitF f 500 3) = true →
    Completes (.routerForward e cls esc) s fun t =>
      (t.waf.port (Wafer.portKey (k / 4) d)).seq = (s.waf.port (Wafer.portKey (k / 4) d)).seq + (r.length + 1)) ∧
  (∀ (s : State) (e : LinkEnd) (k d x : Nat) (cls : TClass) (waited : Nat) (f : BitVec 544) (r : List (BitVec 544)),
    s.waf.endKey e = some k → Wafer.headMsg (s.waf.port k).inbuf (classIdx cls) = some (f :: r) → 256 ≤ waited →
    flitF f 500 3 ≠ 0 → flitF f 500 3 ≤ 5 → flitF f 516 8 < 0x90 → s.waf.hopFor (k / 4) (flitF f 464 64) false = .port d →
    (s.waf.port (Wafer.portKey (k / 4) d)).credits.getD (classIdx cls) 0 < r.length + 1 →
    s.waf.hopFor (k / 4) (flitF f 464 64) true = .port x →
    Wafer.roomFor (s.waf.port (Wafer.portKey (k / 4) x)) (classIdx cls + 4) (flitF f 500 3) = true →
    Completes (.escapeMove e cls waited) s fun t =>
      (t.waf.port (Wafer.portKey (k / 4) x)).seq = (s.waf.port (Wafer.portKey (k / 4) x)).seq + (r.length + 1))

/-- Recovery of die-edge links (R167, R184–R190): an ACK that does not come replays what is held; no progress for NOPROGRESS, a slip of the receive FIFO and LNK_RETRAIN start a retrain
at both ends; a retrain that ends well returns the link to service; one that exceeds RETRAIN_LIMIT makes it drain; a fray window ends with its counts cleared; a drained link whose
switch has come is retired onto the fence list; LNK_CLEAR empties the counters. -/
def Obligations.LinkRecovery : Prop :=
  (∀ (s : State) (e : LinkEnd) (k b : Nat) (h : Nat × BitVec 544) (r : List (Nat × BitVec 544)), s.waf.endKey e = some k →
    Wafer.carries (s.waf.port k) = true → s.waf.portRegs k = some b → (s.waf.port k).held = h :: r →
    (s.waf.port k).sentAt + 10 * s.waf.get b F.LNK_CFG.ACK_TIMEOUT ≤ s.waf.now →
    (s.waf.port k).tries < s.waf.get b F.LNK_CFG.MAX_RETRY →
    Completes (.ackTimeout (.die e)) s fun t =>
      t.waf.get b F.LNK_EVT.ACK_TIMEOUT = 1 ∧ (t.waf.port k).tries = (s.waf.port k).tries + 1 ∧
      (t.waf.port k).wire = (s.waf.port k).wire ++ (h :: r).map (·.2) ∧
      t.waf.get b F.LNK_TX.REPLAYS = satInc 32 (s.waf.get b F.LNK_TX.REPLAYS)) ∧
  (∀ (s : State) (e : LinkEnd) (k b : Nat), s.waf.endKey e = some k →
    Wafer.carries (s.waf.port k) = true → s.waf.portRegs k = some b → (s.waf.port k).held ≠ [] →
    (s.waf.port k).ackAt + 10 * s.waf.get b F.LNK_CFG.NOPROGRESS ≤ s.waf.now →
    Completes (.noProgress (.die e)) s fun t => (t.waf.port k).state = 4 ∧ (t.waf.port (Wafer.farKey k)).state = 4) ∧
  (∀ (s : State) (e : LinkEnd) (k n : Nat), s.waf.endKey e = some k → Wafer.carries (s.waf.port k) = true → (n < 2 ∨ 6 < n) →
    Completes (.fifoSlip e n) s fun t => (t.waf.port k).state = 4 ∧ (t.waf.port (Wafer.farKey k)).state = 4) ∧
  (∀ (s : State) (e : LinkEnd) (k n : Nat), s.waf.endKey e = some k → 2 ≤ n → n ≤ 6 →
    Completes (.fifoSlip e n) s fun t => t = s) ∧
  (∀ (s : State) (src : Src) (e : LinkEnd) (k : Nat), s.waf.endKey e = some k → Wafer.carries (s.waf.port k) = true →
    configSrc src = true →
    Completes (.lnkRetrain src e) s fun t => (t.waf.port k).state = 4 ∧ (t.waf.port (Wafer.farKey k)).state = 4 ∧ sameBytes s t) ∧
  (∀ (s : State) (e : LinkEnd) (k : Nat) (lanes : BitVec 16), s.waf.endKey e = some k → (s.waf.port k).state = 4 →
    (s.waf.port k).since + 40 ≤ s.waf.now →
    Completes (.retrain (.die e) lanes) s fun t =>
      (t.waf.port k).state = (if (s.waf.port k).reason = 0 then 1 else 5) ∧ (t.waf.port k).tries = 0 ∧ t.waf.regs = s.waf.regs) ∧
  (∀ (s : State) (e : LinkEnd) (k : Nat), s.waf.endKey e = some k → (s.waf.port k).state = 4 →
    (s.waf.port k).since + us (s.waf.portCfg k F.LNK_CFG.RETRAIN_LIMIT) ≤ s.waf.now →
    Completes (.retrainFail (.die e)) s fun t =>
      (t.waf.port k).state = 5 ∧ (t.waf.port k).reason = 7 ∧ (t.waf.port (Wafer.farKey k)).state = 5) ∧
  (∀ (s : State) (e : LinkEnd) (k : Nat), s.waf.endKey e = some k → s.waf.now % 100000 = 0 → (s.waf.port k).state = 1 →
    Completes (.frayWindow (.die e)) s fun t =>
      (t.waf.port k).winFlits = 0 ∧ (t.waf.port k).winReplays = 0 ∧
      (max (s.waf.port k).winFlits 1000000 < (s.waf.port k).winReplays * s.waf.portCfg k F.LNK_CFG.FRAY_N →
        (t.waf.port k).state = 5 ∧ (t.waf.port k).reason = 7)) ∧
  (∀ (s : State) (e : LinkEnd) (k t0 : Nat), s.waf.endKey e = some k → (s.waf.port k).state = 5 → (s.waf.port k).reason ≠ 0 →
    (s.waf.port k).switchAt = some t0 → t0 + us 200 ≤ s.waf.now → s.waf.col.boot.running = true → s.sup.fences.length < 64 →
    (s.waf.dieInfo (k / 4)).state = 1 → (s.waf.dieInfo (Wafer.farKey k / 4)).state = 1 →
    Completes (.linkRetire e) s fun t =>
      t.sup.fences.any (State.sameFence (State.linkFence k (s.waf.port k).reason false)) = true) ∧
  (∀ (s : State) (src : Src) (e : LinkEnd) (k b : Nat), s.waf.endKey e = some k → s.waf.portRegs k = some b →
    configSrc src = true →
    Completes (.lnkClear src e) s fun t =>
      t.waf.reg (b + 0x10) = 0 ∧ t.waf.reg (b + 0x18) = 0 ∧ t.waf.reg (b + 0x20) = 0 ∧ t.waf.get b F.LNK_EVT.DISCARDS = 0 ∧
      sameRegsBut s t (inBlock (b + 0x10) 0x20) ∧ sameSup s t ∧ sameBytes s t)

/-- Spine links (R195, R197–R204): a training with 16 lanes brings a link to FULL and names its peer; one without a signal notes that; a retry once a second starts the next; a packet with an
uncorrectable codeword or a bad CRC counts and asks for a NAK; a good DATA packet with the expected number is taken in; a DATA packet goes out with its number; a lost lane, no progress and SPINE_RETRAIN
start a retrain, which ends at the width of the lanes or, past its limit, retires the link; SPINE_CLEAR empties the counters. -/
def Obligations.SpineLinks : Prop :=
  (∀ (s : State) (l : Fin 32) (p : SpinePeer), s.waf.edgeUp (Fin.ofNat 16 (l.val / 2)) = true →
    s.waf.get (spineBlk l.val) F.LNK_SP_STAT.STATE = 0 → 2 ≤ s.waf.col.phase → p.serial ≠ Config.serial →
    p.wafer.toNat ≠ s.waf.col.wafer →
    Completes (.spineTraining l true 0xFFFF p) s fun t =>
      t.waf.get (spineBlk l.val) F.LNK_SP_STAT.STATE = 1 ∧ t.waf.get (spineBlk l.val) F.LNK_SP_STAT.LANES = 65535 ∧
      t.waf.get (spineBlk l.val) F.LNK_SP_STAT.PEER_WAFER = p.wafer.toNat ∧
      t.waf.get (spineBlk l.val) F.LNK_SP_STAT.PEER_LINK = p.link.toNat ∧
      t.waf.get (spineBlk l.val) F.LNK_SP_STAT.PEER_VALID = 1 ∧ sameSup s t ∧ sameBytes s t) ∧
  (∀ (s : State) (l : Fin 32) (lanes : BitVec 16) (p : SpinePeer), s.waf.edgeUp (Fin.ofNat 16 (l.val / 2)) = true →
    s.waf.get (spineBlk l.val) F.LNK_SP_STAT.STATE = 0 → 2 ≤ s.waf.col.phase →
    Completes (.spineTraining l false lanes p) s fun t =>
      (t.waf.spine l.val).uncabled = true ∧ t.waf.regs = s.waf.regs) ∧
  (∀ (s : State) (l : Fin 32), s.waf.col.boot.running = true → s.waf.get (spineBlk l.val) F.LNK_SP_STAT.STATE = 0 →
    (s.waf.spine l.val).since + ms 1000 ≤ s.waf.now →
    Completes (.spineRetry l) s fun t => (t.waf.spine l.val).since = s.waf.now ∧ t.waf.regs = s.waf.regs) ∧
  (∀ (s : State) (l : Fin 32) (p : List Byte) (n : Nat), s.waf.spineUp l.val = true →
    Completes (.spinePacketReceive l p n true) s fun t =>
      (t.waf.spine l.val).nak = true ∧ (t.waf.spine l.val).expect = (s.waf.spine l.val).expect ∧
      t.waf.get (spineBlk l.val) F.LNK_SP_RX.CRC_ERRS = satInc 32 (s.waf.get (spineBlk l.val) F.LNK_SP_RX.CRC_ERRS)) ∧
  (∀ (s : State) (l : Fin 32) (p : List Byte), s.waf.spineUp l.val = true → Wafer.packetGood p = true → leAt p 0 1 = 1 →
    leAt p 3 1 = 0 → (s.waf.spine l.val).held = [] → leAt p 4 2 = (s.waf.spine l.val).expect % 65536 →
    Completes (.spinePacketReceive l p 0 false) s fun t =>
      (t.waf.spine l.val).expect = (s.waf.spine l.val).expect + 1 ∧
      t.waf.link.arrived = s.waf.link.arrived ++ [(l.val, leAt p 1 1, (p.drop 32).take (64 * leAt p 2 1))]) ∧
  (∀ (s : State) (l : Fin 32) (m : List Byte) (w : Nat), s.waf.spineUp l.val = true → (s.waf.spine l.val).outq = [(0, m)] →
    m.length = 64 → 50 ≤ w → 1 ≤ (s.waf.spine l.val).credits.getD (Wafer.spineCr 0) 0 → (s.waf.spine l.val).held = [] →
    Completes (.spinePacketSend l .mem w) s fun t =>
      (t.waf.spine l.val).outq = [] ∧ (t.waf.spine l.val).seq = (s.waf.spine l.val).seq + 1 ∧
      (t.waf.spine l.val).wire.length = (s.waf.spine l.val).wire.length + 1) ∧
  (∀ (s : State) (l : Fin 32) (i : Fin 16), s.waf.spineUp l.val = true →
    Nat.testBit (s.waf.get (spineBlk l.val) F.LNK_SP_STAT.LANES) i.val = true →
    Completes (.laneLost l i) s fun t =>
      t.waf.get (spineBlk l.val) F.LNK_SP_STAT.STATE = 4 ∧ Nat.testBit (t.waf.get (spineBlk l.val) F.LNK_SP_EVT.EVT) 3 = true) ∧
  (∀ (s : State) (l : Fin 32), s.waf.spineUp l.val = true → (s.waf.spine l.val).held ≠ [] →
    (s.waf.spine l.val).ackAt + us (s.waf.get (spineBlk l.val) F.LNK_SP_CFG.NOPROGRESS) ≤ s.waf.now →
    Completes (.noProgress (.spine l)) s fun t => t.waf.get (spineBlk l.val) F.LNK_SP_STAT.STATE = 4) ∧
  (∀ (s : State) (l : Fin 32), s.waf.spineUp l.val = true → (s.waf.spine l.val).held ≠ [] →
    (s.waf.spine l.val).tries < s.waf.get (spineBlk l.val) F.LNK_SP_CFG.MAX_RETRY →
    (s.waf.spine l.val).sentAt + us (s.waf.get (spineBlk l.val) F.LNK_SP_CFG.ACK_TIMEOUT) ≤ s.waf.now →
    Completes (.ackTimeout (.spine l)) s fun t => (t.waf.spine l.val).tries = (s.waf.spine l.val).tries + 1) ∧
  (∀ (s : State) (src : Src) (l : Fin 32), s.waf.spineUp l.val = true → configSrc src = true →
    Completes (.spineRetrain src l) s fun t => t.waf.get (spineBlk l.val) F.LNK_SP_STAT.STATE = 4) ∧
  (∀ (s : State) (l : Fin 32) (lanes : BitVec 16), s.waf.get (spineBlk l.val) F.LNK_SP_STAT.STATE = 4 →
    Completes (.retrain (.spine l) lanes) s fun t =>
      t.waf.get (spineBlk l.val) F.LNK_SP_STAT.STATE =
        (if Wafer.lanesOf lanes = 16 then 1 else if 8 ≤ Wafer.lanesOf lanes then 2 else 3) ∧
      t.waf.get (spineBlk l.val) F.LNK_SP_STAT.LANES = lanes.toNat) ∧
  (∀ (s : State) (l : Fin 32), s.waf.get (spineBlk l.val) F.LNK_SP_STAT.STATE = 4 →
    (s.waf.spine l.val).since + us (s.waf.get (spineBlk l.val) F.LNK_SP_CFG.RETRAIN_LIMIT) ≤ s.waf.now →
    Completes (.retrainFail (.spine l)) s fun t => t.waf.get (spineBlk l.val) F.LNK_SP_STAT.STATE = 3) ∧
  (∀ (s : State) (l : Fin 32), s.waf.spineUp l.val = true → s.waf.now % 100000 = 0 →
    (s.waf.spine l.val).frayedAt = none →
    Completes (.frayWindow (.spine l)) s fun t =>
      (t.waf.spine l.val).winPkts = 0 ∧ (t.waf.spine l.val).winReplays = 0 ∧
      (max (s.waf.spine l.val).winPkts 1000000 < (s.waf.spine l.val).winReplays * s.waf.get (spineBlk l.val) F.LNK_SP_CFG.FRAY_N →
        t.waf.get (spineBlk l.val) F.LNK_SP_STAT.STATE = 4)) ∧
  (∀ (s : State) (src : Src) (l : Fin 32), configSrc src = true →
    Completes (.spineClear src l) s fun t =>
      t.waf.reg (spineBlk l.val + 0x10) = 0 ∧ t.waf.reg (spineBlk l.val + 0x18) = 0 ∧ t.waf.reg (spineBlk l.val + 0x20) = 0 ∧
      sameRegsBut s t (inBlock (spineBlk l.val + 0x10) 0x18) ∧ sameSup s t ∧ sameBytes s t)

/-! ### Volumes (spec file 08) -/

/-- Volume operations of the ribbon (R112, R284–R290, R304, R521): with no other volume and a profile within every pool, CREATE makes the volume live; RESET of a live volume and DESTROY end with DONE, and DESTROY leaves it not live; RESET
of a number that is not live ends with NO_VOLUME and touches nothing of the volume's; a volume with pending work and no progress for VOL_HB_MS is reset. Volume 0 cannot be named. -/
def Obligations.VolumeOperations : Prop :=
  (∀ (s : State) (p : RibPort) (tag : BitVec 4) (v : BitVec 6) (pr : BitVec 8) (vf : BitVec 6) (ok : Bool), portHolds s p → v ≠ 0 →
    s.waf.live.getLsbD v.toNat = false → s.waf.liveVols = [] → pr.toNat < 32 →
    s.waf.profField pr.toNat F.VOL_PROF_SPAN.FIRST_SITE + s.waf.profField pr.toNat F.VOL_PROF_SPAN.SITE_COUNT ≤ s.waf.col.sites.length →
    s.waf.profField pr.toNat F.VOL_PROF_SITE.SRAM_MIB ≤ 240 → s.waf.profField pr.toNat F.VOL_PROF_SITE.BANKS ≤ 64 →
    s.waf.profField pr.toNat F.VOL_PROF_MEM.HBM_GIB ≤ 544 → s.waf.profField pr.toNat F.VOL_PROF_SITE.RINGS ≤ 1984 →
    s.waf.profField pr.toNat F.VOL_PROF_SITE.SYNCS ≤ 1792 → s.waf.profField pr.toNat F.VOL_PROF_SITE.ALARMS ≤ 240 →
    (∀ e, e < 16 → s.waf.profField pr.toNat F.VOL_PROF_MEM.CHANNELS ≤ (s.waf.freeChans e).length) →
    Completes (.volCreate p tag v pr vf ok) s fun t =>
      t.waf.live.getLsbD v.toNat = true ∧ t.waf.rib32 0x41 = BitVec.ofNat 32 (2 + v.toNat * 4) ∧ answeredCode t p tag 0 ∧ t.sup = s.sup) ∧
  (∀ (s : State) (p : RibPort) (tag : BitVec 4) (v : BitVec 6), portHolds s p → v ≠ 0 → s.waf.live.getLsbD v.toNat = true →
    Completes (.volReset p tag v) s fun t =>
      t.waf.rib32 0x41 = BitVec.ofNat 32 (2 + v.toNat * 4) ∧ answeredCode t p tag 0 ∧ t.sup = s.sup) ∧
  (∀ (s : State) (p : RibPort) (tag : BitVec 4) (v : BitVec 6), portHolds s p → v ≠ 0 → s.waf.live.getLsbD v.toNat = false →
    Completes (.volReset p tag v) s fun t =>
      t.waf.rib32 0x41 = BitVec.ofNat 32 (2 + v.toNat * 4 + 2 * 2 ^ 8) ∧ t.waf.regs = s.waf.regs ∧ t.waf.cmds = s.waf.cmds ∧ sameBytes s t) ∧
  (∀ (s : State) (p : RibPort) (tag : BitVec 4) (v : BitVec 6), portHolds s p → v ≠ 0 → s.waf.live.getLsbD v.toNat = true →
    Completes (.volDestroy p tag v) s fun t =>
      t.waf.live.getLsbD v.toNat = false ∧ t.waf.rib32 0x41 = BitVec.ofNat 32 (2 + v.toNat * 4) ∧ answeredCode t p tag 0) ∧
  (∀ (s : State) (p : RibPort) (tag : BitVec 4), portHolds s p →
    Completes (.volDestroy p tag 0) s fun t =>
      answeredCode t p tag 11 ∧ t.waf.live = s.waf.live ∧ t.waf.regs = s.waf.regs ∧ sameBytes s t) ∧
  (∀ (s : State) (v : Fin 64), v.val ≠ 0 → s.waf.live.getLsbD v.val = true → s.waf.col.boot.running = true → s.waf.volPending v.val = true →
    s.waf.get fltWBlk F.FLT_W_CFG.VOL_HB_MS ≠ 0 → (s.waf.volInfo v.val).progress + ms (s.waf.get fltWBlk F.FLT_W_CFG.VOL_HB_MS) ≤ s.waf.now →
    Completes (.volumeHung v) s fun t => t.waf.rib32 0x41 = BitVec.ofNat 32 (2 + v.val * 4) ∧ t.sup = s.sup)

/-! ### Recovery (spec file 16) -/

/-- Sites taken out of service (R160, R494, R500, R501, R158): a base-die sensor at 105 °C fences the site; a rejoin that has not ended 8 ms after the reset
fences it; an abort slower than ABORT_US and a heartbeat missing for SITE_MS begin its reset, whose SITE_LOST is broadcast; beats that arrive are noted and reset
nothing. -/
def Obligations.SitesLeaveService : Prop :=
  (∀ (s : State) (i : Fin 128) (j n : Nat), s.waf.active i.val = true → s.waf.nodeOf i.val = some n → j < 8 →
    1680 ≤ signed 16 (getF (s.waf.reg (lveBlk i.val + 0x20 + 8 * j)) 0 16) → s.noMirror i.val = false → s.sup.fences.length < 64 →
    Completes (.siteTrip i) s fun t =>
      t.sup.fences.any (State.sameFence (State.dieFence n 9 false)) = true ∧ t.sup.power = s.sup.power) ∧
  (∀ (s : State) (i : Fin 128), (∀ j, j < 8 → signed 16 (getF (s.waf.reg (lveBlk i.val + 0x20 + 8 * j)) 0 16) < 1680) →
    Completes (.siteTrip i) s fun t => t = s) ∧
  (∀ (s : State) (i : Fin 128) (n : Nat), s.waf.nodeOf i.val = some n → Tab.look (fun _ => 0) s.waf.col.rejoin i.val ≠ 0 →
    Tab.look (fun _ => 0) s.waf.col.rejoin i.val - 1 + ms 8 ≤ s.waf.now → s.sup.fences.length < 64 →
    Completes (.rejoinFail i) s fun t => t.sup.fences.any (State.sameFence (State.dieFence n 8 false)) = true) ∧
  (∀ (s : State) (i : Fin 128) (r : Fin 1024) (c : Cmd) (t0 : Nat), s.waf.cmd? i.val r.val = some c → c.aborting = some t0 →
    s.waf.active i.val = true → t0 + us (s.waf.get (fltBlk i.val) F.FLT_CFG.ABORT_US) ≤ s.waf.now → s.noMirror i.val = false →
    Completes (.abortSlow i r none) s fun t => Msg.siteLost i.val ∈ t.waf.net ∧ t.sup = s.sup) ∧
  (∀ (s : State) (beats : List (Fin 128)), s.waf.now % 10000 = 0 → (s.waf.col.phase = 3 ∨ s.waf.col.phase = 4) →
    s.waf.col.boot.running = true → 0 < s.waf.get fltWBlk F.FLT_W_CFG.SITE_MS →
    (∀ x : Fin 128, s.waf.active x.val = true → x ∈ beats) →
    Completes (.heartbeatCheck beats none) s fun t =>
      (∀ x ∈ beats, Tab.look (fun _ => 0) t.waf.col.heard x.val = s.waf.now) ∧ t.waf.net = s.waf.net ∧ t.sup = s.sup ∧
      t.waf.regs = s.waf.regs ∧ sameBytes s t) ∧
  (∀ (s : State) (i : Fin 128) (beats : List (Fin 128)), s.waf.now % 10000 = 0 → (s.waf.col.phase = 3 ∨ s.waf.col.phase = 4) →
    s.waf.col.boot.running = true → 0 < s.waf.get fltWBlk F.FLT_W_CFG.SITE_MS → s.waf.active i.val = true → i ∉ beats →
    (∀ x : Fin 128, s.waf.active x.val = true → x ≠ i → x ∈ beats) →
    Tab.look (fun _ => 0) s.waf.col.heard i.val + ms (s.waf.get fltWBlk F.FLT_W_CFG.SITE_MS) ≤ s.waf.now → s.noMirror i.val = false →
    Completes (.heartbeatCheck beats none) s fun t => Msg.siteLost i.val ∈ t.waf.net)

/-- What recovery keeps and ends (R58, R499, R502, R506, R507, R515, R518, R522, R523): the loss of a site ends the waits on it; a request without its response for TRANSFER_US is retired; a kick is noted with its
time and a missed one stops Unhal for its restart, the third one resetting the wafer with cause SERVICE; a twin range is cleared as written; a record reaches its mirror; a copy to a new buddy ends. -/
def Obligations.RecoveryUnits : Prop :=
  (∀ (s : State) (i : Fin 128), s.waf.net = [.siteLost i.val] → s.waf.out = [] →
    Completes (.siteLost i) s fun t =>
      t.waf.net = [] ∧ t.waf.que.waits = s.waf.que.waits.filter (fun x => x.site != i.val) ∧ t.waf.regs = s.waf.regs ∧ sameSup s t) ∧
  (∀ (s : State) (q : Requester) (tag : BitVec 12) (o : Out), s.waf.out.find? (fun o => o.who == q && o.tag == tag.toNat) = some o →
    o.isWait = false → o.cmd = none → q.die.val < 128 → 96 ≤ q.unit.toNat →
    o.since + us (s.waf.get (fltBlk q.die.val) F.FLT_CFG.TRANSFER_US) ≤ s.waf.now →
    Completes (.transferTimeout q tag) s fun t =>
      t.waf.get (fltBlk q.die.val) F.FLT_EVT.TRANSFER_TIMEOUT = 1 ∧
      t.waf.out = Wafer.dropFirst (fun x => x.who == q && x.tag == tag.toNat) s.waf.out ∧ sameSup s t ∧ sameBytes s t) ∧
  (∀ s : State, Completes (.svcKick .unhal) s fun t =>
    t.waf.col.kick = s.waf.now ∧ t.waf.col.boot.svcTries = 0 ∧ t.waf.regs = s.waf.regs ∧ sameSup s t ∧ sameBytes s t) ∧
  (∀ (s : State) (v : Fin 64), Completes (.svcKick (.volume v)) s fun t => t = s) ∧
  (∀ (s : State) (ok : Bool), (s.waf.col.phase = 3 ∨ s.waf.col.phase = 4) → s.waf.col.boot.running = true → s.waf.col.boot.svcTries < 2 →
    s.waf.col.kick + ms (s.waf.get fltWBlk F.FLT_W_CFG.SVC_MS) ≤ s.waf.now →
    Completes (.svcWatchdog ok) s fun t => t.waf.col.boot.running = false ∧ (ok = false → t.sup.lastReset = 1 ∧ t.sup.inReset = true)) ∧
  (∀ (s : State) (ok : Bool), (s.waf.col.phase = 3 ∨ s.waf.col.phase = 4) → 2 ≤ s.waf.col.boot.svcTries →
    s.waf.col.kick + ms (s.waf.get fltWBlk F.FLT_W_CFG.SVC_MS) ≤ s.waf.now →
    Completes (.svcWatchdog ok) s fun t => t.sup.lastReset = 1 ∧ t.sup.inReset = true ∧ t.sup.power = s.sup.power) ∧
  (∀ (s : State) (src : Src) (i : Fin 128) (n : Fin 64) (v : BitVec 64), configSrc src = true → s.waf.active i.val = true → v.getLsbD 63 = false →
    Completes (.twinSet src i n v) s fun t =>
      t.waf.reg (fltBlk i.val + 0x20 + 0x10 * n.val) = v ∧ sameRegsBut s t (fun k => k = fltBlk i.val + 0x20 + 0x10 * n.val) ∧
      sameSup s t ∧ sameBytes s t) ∧
  (∀ (s : State) (i : Fin 128) (r : Fin 1024) (c : Cmd), s.waf.cmd? i.val r.val = some c →
    s.waf.active i.val = true → c.mirrored = false →
    Completes (.mirrorWrite i r) s fun t =>
      t.waf.cmd? i.val r.val = some { c with mir := c.bytes s.waf.col.wafer, mirrored := true } ∧ t.waf.regs = s.waf.regs ∧ sameBytes s t) ∧
  (∀ (s : State) (i : Fin 128), s.waf.que.copying.contains i.val = true →
    Completes (.remirrorDone i) s fun t =>
      t.waf.que.copying.contains i.val = false ∧ t.waf.que.bare.contains i.val = false ∧
      (∀ c ∈ t.waf.cmds, c.site = i.val → c.mirrored = true) ∧ t.waf.regs = s.waf.regs ∧ sameSup s t ∧ sameBytes s t)

/-! ### Memory (spec file 06) -/

/-- SRAM requests at their home (R207–R217, R226): a read answers the bytes and changes none; a write stores its bytes and no other; an atomic answers the old value and stores the new one; a request that fails a
check answers its status and stores nothing. -/
def Obligations.MemoryRequests : Prop :=
  (∀ (s : State) (rq : MemReq) (h l : Nat), servedNow s rq h l false → s.waf.poisoned (homeKey h l rq) rq.size = false →
    Completes (.memRead rq) s fun t =>
      t.waf.net = s.waf.net ++ [.rsp .read rq.who rq.tag.toNat 0 (s.waf.bytes (homeKey h l rq) rq.size)] ∧
      t.waf.regs = s.waf.regs ∧ sameSup s t ∧ sameBytes s t) ∧
  (∀ (s : State) (rq : MemReq) (h l : Nat) (d : List Byte), servedNow s rq h l true → d.length = rq.size →
    Completes (.memWrite rq d) s fun t =>
      t.waf.net = s.waf.net ++ [.rsp .write rq.who rq.tag.toNat 0 []] ∧ t.waf.bytes (homeKey h l rq) rq.size = d ∧
      sameBytesBut s t (homeKey h l rq) rq.size ∧ t.waf.regs = s.waf.regs ∧ sameSup s t) ∧
  (∀ (s : State) (rq : MemReq) (h l : Nat) (op : Fin 10) (x y : BitVec 64), servedNow s rq h l true → (rq.size = 4 ∨ rq.size = 8) →
    s.waf.poisoned (homeKey h l rq) rq.size = false →
    Completes (.memAtomic rq op x y) s fun t =>
      t.waf.net = s.waf.net ++ [.rsp .atomic rq.who rq.tag.toNat 0 (s.waf.bytes (homeKey h l rq) rq.size)] ∧
      t.waf.bytes (homeKey h l rq) rq.size =
        toLE rq.size (Wafer.atomVal op.val (fromLE (s.waf.bytes (homeKey h l rq) rq.size)) x.toNat y.toNat (8 * rq.size)) ∧
      sameBytesBut s t (homeKey h l rq) rq.size ∧ t.waf.regs = s.waf.regs ∧ sameSup s t) ∧
  (∀ (s : State) (rq : MemReq) (hl : Nat × Nat) (d : List Byte), s.waf.out = [] → s.waf.homeLine rq.addr.toNat = some hl →
    s.waf.homeStatus rq true ≠ 0 →
    Completes (.memWrite rq d) s fun t =>
      t.waf.net = s.waf.net ++ [.rsp .write rq.who rq.tag.toNat (s.waf.homeStatus rq true) []] ∧ t.waf.mem = s.waf.mem ∧
      t.waf.regs = s.waf.regs)

/-- Memory responses at their requester (R217, R228, R229, R234, R499): one of status OK frees its tag and changes nothing else; a failed one for a unit that serves no command records the address in MEM_FAULT if VALID was clear. A response to a
tag that is not open is discarded. -/
def Obligations.MemoryResponses : Prop :=
  (∀ (s : State) (k : Acc) (q : Requester) (tag : BitVec 12) (d : List Byte) (o : Out), s.waf.net = [.rsp k q tag.toNat 0 d] →
    s.waf.out = [o] → o.who = q → o.tag = tag.toNat →
    Completes (rspCommand k q tag) s fun t =>
      t.waf.net = [] ∧ t.waf.out = [] ∧ t.waf.regs = s.waf.regs ∧ t.waf.cmds = s.waf.cmds ∧ sameSup s t ∧ sameBytes s t) ∧
  (∀ (s : State) (k : Acc) (q : Requester) (tag : BitVec 12) (st : Nat) (o : Out), s.waf.net = [.rsp k q tag.toNat st []] →
    s.waf.out = [o] → o.who = q → o.tag = tag.toNat → o.cmd = none → 0 < st → st < 16 → q.die.val < 128 →
    s.waf.get (memBlk q.die.val) F.MEM_FAULT.VALID = 0 →
    Completes (rspCommand k q tag) s fun t =>
      t.waf.out = [] ∧ t.waf.get (memBlk q.die.val) F.MEM_FAULT.VALID = 1 ∧ t.waf.reg (memBlk q.die.val + 0x40) = o.addr ∧
      sameSup s t ∧ sameBytes s t) ∧
  (∀ (s : State) (k : Acc) (q : Requester) (tag : BitVec 12) (st : Nat) (d : List Byte), s.waf.net = [.rsp k q tag.toNat st d] →
    s.waf.out = [] →
    Completes (rspCommand k q tag) s fun t => t.waf.net = [] ∧ t.waf.out = [] ∧ t.waf.regs = s.waf.regs ∧ sameBytes s t)

/-- Coherence messages (R222–R227, Tables MEM-4 and MEM-5), each on a line without other traffic: GET_S and GET_E of an unshared line grant it and list the cache; PUT_S and PUT_E take the cache off the list, a PUT_E's dirty data coming home with a PUT_ACK;
the last FWD_ACK lets the home grant; COMPLETE closes the transaction; DATA_S and DATA_E install the line and answer COMPLETE; INV and RECALL drop it and DOWNGRADE keeps it shared and clean, each answering FWD_ACK with the dirty data; PUT_ACK
empties the writeback buffer. -/
def Obligations.CoherenceMessages : Prop :=
  (∀ (s : State) (c h : Fin 128) (l : BitVec 21), s.waf.net = [.coh .getS c.val h.val l.toNat none] → s.waf.dirAt h.val l.toNat = none →
    s.waf.txAt h.val l.toNat = none → s.waf.dirVictim h.val l.toNat = none →
    Completes (.getS c h l) s fun t =>
      t.waf.dirAt h.val l.toNat = some (.shared [c.val] s.waf.coh.order) ∧
      t.waf.net = [.coh .dataS c.val h.val l.toNat (some (s.waf.sliceLine h.val l.toNat))] ∧ t.waf.regs = s.waf.regs ∧ sameBytes s t) ∧
  (∀ (s : State) (c h : Fin 128) (l : BitVec 21), s.waf.net = [.coh .getE c.val h.val l.toNat none] → s.waf.dirAt h.val l.toNat = none →
    s.waf.txAt h.val l.toNat = none → s.waf.dirVictim h.val l.toNat = none →
    Completes (.getE c h l) s fun t =>
      t.waf.dirAt h.val l.toNat = some (.excl c.val s.waf.coh.order) ∧
      t.waf.net = [.coh .dataE c.val h.val l.toNat (some (s.waf.sliceLine h.val l.toNat))] ∧ t.waf.regs = s.waf.regs ∧ sameBytes s t) ∧
  (∀ (s : State) (c h : Fin 128) (l : BitVec 21) (n : Nat), s.waf.net = [.coh .putS c.val h.val l.toNat none] →
    s.waf.dirAt h.val l.toNat = some (.shared [c.val] n) →
    Completes (.putS c h l) s fun t => t.waf.dirAt h.val l.toNat = none ∧ t.waf.net = [] ∧ t.waf.regs = s.waf.regs ∧ sameBytes s t) ∧
  (∀ (s : State) (c h : Fin 128) (l : BitVec 21) (n : Nat) (d : List Byte), s.waf.net = [.coh .putE c.val h.val l.toNat (some d)] →
    d.length = 128 → s.waf.dirAt h.val l.toNat = some (.excl c.val n) → s.waf.txAt h.val l.toNat = none → s.waf.twins h.val = [] →
    Completes (.putE c h l) s fun t =>
      t.waf.dirAt h.val l.toNat = none ∧ t.waf.net = [.coh .putAck c.val h.val l.toNat none] ∧ t.waf.sliceLine h.val l.toNat = d ∧
      sameBytesBut s t (dieAddr h.val (l.toNat * 128)) 128) ∧
  (∀ (s : State) (c h x : Fin 128) (l : BitVec 21), s.waf.net = [.coh .fwdAck c.val h.val l.toNat none] →
    s.waf.txAt h.val l.toNat = some { req := .getS x.val, acks := [c.val], granted := false, queue := [] } →
    Completes (.fwdAck c h l) s fun t =>
      t.waf.net = [.coh .dataS x.val h.val l.toNat (some (s.waf.sliceLine h.val l.toNat))] ∧
      t.waf.txAt h.val l.toNat = some { req := .getS x.val, acks := [], granted := true, queue := [] } ∧ sameBytes s t) ∧
  (∀ (s : State) (c h : Fin 128) (l : BitVec 21) (r : HomeReq), s.waf.net = [.coh .complete c.val h.val l.toNat none] →
    s.waf.txAt h.val l.toNat = some { req := r, acks := [], granted := true, queue := [] } →
    Completes (.complete c h l) s fun t =>
      t.waf.txAt h.val l.toNat = none ∧ t.waf.net = [] ∧ t.waf.coh.dir = s.waf.coh.dir ∧ t.waf.regs = s.waf.regs ∧ sameBytes s t) ∧
  (∀ (s : State) (c h : Fin 128) (l : BitVec 21) (d : List Byte), s.waf.net = [.coh .dataS c.val h.val l.toNat (some d)] →
    s.waf.coh.lines.length < 16 →
    Completes (.dataS c h l) s fun t =>
      t.waf.lineAt c.val h.val l.toNat = some { excl := false, dirty := false, data := d } ∧
      t.waf.net = [.coh .complete c.val h.val l.toNat none] ∧ t.waf.regs = s.waf.regs ∧ sameBytes s t) ∧
  (∀ (s : State) (c h : Fin 128) (l : BitVec 21) (d : List Byte), s.waf.net = [.coh .dataE c.val h.val l.toNat (some d)] →
    s.waf.coh.lines.length < 16 →
    Completes (.dataE c h l) s fun t =>
      t.waf.lineAt c.val h.val l.toNat = some { excl := true, dirty := false, data := d } ∧
      t.waf.net = [.coh .complete c.val h.val l.toNat none] ∧ t.waf.regs = s.waf.regs ∧ sameBytes s t) ∧
  (∀ (s : State) (c h : Fin 128) (l : BitVec 21) (x : Line), s.waf.net = [.coh .inv c.val h.val l.toNat none] →
    s.waf.lineAt c.val h.val l.toNat = some x →
    Completes (.inv c h l) s fun t =>
      t.waf.lineAt c.val h.val l.toNat = none ∧
      t.waf.net = [.coh .fwdAck c.val h.val l.toNat (if x.dirty then some x.data else none)] ∧ sameBytes s t) ∧
  (∀ (s : State) (c h : Fin 128) (l : BitVec 21) (x : Line), s.waf.net = [.coh .recall c.val h.val l.toNat none] →
    s.waf.lineAt c.val h.val l.toNat = some x →
    Completes (.recall c h l) s fun t =>
      t.waf.lineAt c.val h.val l.toNat = none ∧
      t.waf.net = [.coh .fwdAck c.val h.val l.toNat (if x.dirty then some x.data else none)] ∧ sameBytes s t) ∧
  (∀ (s : State) (c h : Fin 128) (l : BitVec 21) (x : Line), s.waf.net = [.coh .downgrade c.val h.val l.toNat none] →
    s.waf.lineAt c.val h.val l.toNat = some x →
    Completes (.downgrade c h l) s fun t =>
      t.waf.lineAt c.val h.val l.toNat = some { x with excl := false, dirty := false } ∧
      t.waf.net = [.coh .fwdAck c.val h.val l.toNat (if x.dirty then some x.data else none)] ∧ sameBytes s t) ∧
  (∀ (s : State) (c h : Fin 128) (l : BitVec 21), s.waf.net = [.coh .putAck c.val h.val l.toNat none] →
    Completes (.putAck c h l) s fun t => t.waf.wbackAt c.val h.val l.toNat = none ∧ t.waf.net = [] ∧ t.waf.regs = s.waf.regs ∧ sameBytes s t)

/-- A site's remote-line cache and memory counters (R229, R230): FLUSH sets FLUSH_BUSY; RLC_EN = 0 closes the cache and flushes it; FLUSH_DONE comes when nothing of the site is cached and clears FLUSH_BUSY; CLEAR empties the counters. A volume's
command of these changes nothing. -/
def Obligations.CacheControl : Prop :=
  (∀ (s : State) (src : Src) (i : Fin 128), configSrc src = true → s.waf.active i.val = true →
    Completes (.flush src i) s fun t => t.waf.get (memBlk i.val) F.MEM_STAT.FLUSH_BUSY = 1 ∧ sameSup s t ∧ sameBytes s t) ∧
  (∀ (s : State) (src : Src) (i : Fin 128), configSrc src = true → s.waf.active i.val = true →
    Completes (.rlcDisable src i) s fun t =>
      t.waf.get (memBlk i.val) F.MEM_CFG.RLC_EN = 0 ∧ t.waf.get (memBlk i.val) F.MEM_STAT.FLUSH_BUSY = 1 ∧ sameSup s t ∧ sameBytes s t) ∧
  (∀ (s : State) (src : Src) (i : Fin 128), configSrc src = true → s.waf.active i.val = true →
    Completes (.memClear src i) s fun t =>
      t.waf.reg (memBlk i.val + 0x18) = 0 ∧ t.waf.reg (memBlk i.val + 0x20) = 0 ∧ t.waf.reg (memBlk i.val + 0x28) = 0 ∧
      t.waf.reg (memBlk i.val + 0x30) = 0 ∧ sameRegsBut s t (inBlock (memBlk i.val + 0x18) 0x20) ∧ sameSup s t ∧ sameBytes s t) ∧
  (∀ (s : State) (i : Fin 128), s.waf.active i.val = true → s.waf.get (memBlk i.val) F.MEM_STAT.FLUSH_BUSY = 1 →
    s.waf.coh.wback = [] → s.waf.que.flushes = [] →
    Completes (.flushDone i) s fun t =>
      t.waf.get (memBlk i.val) F.MEM_STAT.FLUSH_BUSY = 0 ∧ sameRegsBut s t (fun k => k = memBlk i.val + F.MEM_STAT.FLUSH_BUSY.off) ∧
      sameSup s t ∧ sameBytes s t) ∧
  (∀ (s : State) (v : Fin 64) (i : Fin 128), Completes (.memClear (.volume v) i) s fun t => t = s)

/-! ### Rings, sync objects, mailboxes (spec file 07) -/

/-- Doorbells and ring control (R238, R243, R254, R255, R257, R261): a producer doorbell within the free entries moves PI, and nothing but the ring's index register changes; a stale one counts; a consumer doorbell within the held
entries moves CI, and with ARM arms the ring; ENABLE set by a write arms it; a ring that cannot move is noted, and after STALL_MS declared stalled. -/
def Obligations.DoorbellsAndRings : Prop :=
  (∀ (s : State) (path : DbPath) (i : Fin 128) (r : Fin 2048) (x : BitVec 32), dbReaches s path i.val r.val →
    s.waf.ringOn (ringBlk i.val r.val) = true → s.waf.rKind (ringBlk i.val r.val) = 0 →
    (x.toNat + 2 ^ 32 - s.waf.rPI (ringBlk i.val r.val)) % 2 ^ 32 ≠ 0 →
    (x.toNat + 2 ^ 32 - s.waf.rPI (ringBlk i.val r.val)) % 2 ^ 32 ≤
      s.waf.rSize (ringBlk i.val r.val) - s.waf.rHeld (ringBlk i.val r.val) →
    Completes (.producerDoorbell path i r x) s fun t =>
      t.waf.rPI (ringBlk i.val r.val) = x.toNat ∧ t.waf.rCI (ringBlk i.val r.val) = s.waf.rCI (ringBlk i.val r.val) ∧
      sameRegsBut s t (fun k => k = ringBlk i.val r.val + F.QUE_RING_IDX.PI.off) ∧ sameSup s t ∧ sameBytes s t) ∧
  (∀ (s : State) (path : DbPath) (i : Fin 128) (r : Fin 2048) (x : BitVec 32), dbReaches s path i.val r.val →
    s.waf.ringOn (ringBlk i.val r.val) = true → s.waf.rKind (ringBlk i.val r.val) = 0 →
    2 ^ 31 ≤ (x.toNat + 2 ^ 32 - s.waf.rPI (ringBlk i.val r.val)) % 2 ^ 32 →
    Completes (.producerDoorbell path i r x) s fun t =>
      t.waf.rPI (ringBlk i.val r.val) = s.waf.rPI (ringBlk i.val r.val) ∧ t.waf.get (queBlk i.val) F.QUE_EVT.STALE_DB = 1 ∧
      t.waf.get (ringBlk i.val r.val) F.QUE_RING_CNT.STALE_DB =
        satInc F.QUE_RING_CNT.STALE_DB.w (s.waf.get (ringBlk i.val r.val) F.QUE_RING_CNT.STALE_DB)) ∧
  (∀ (s : State) (path : DbPath) (i : Fin 128) (r : Fin 2048) (x : BitVec 32), dbReaches s path i.val r.val →
    s.waf.ringOn (ringBlk i.val r.val) = true → s.waf.flag (ringBlk i.val r.val) F.QUE_RING_CTRL.CONS_DOORBELL = true →
    (s.waf.rKind (ringBlk i.val r.val) = 1 ∨ s.waf.rKind (ringBlk i.val r.val) = 2) →
    (x.toNat + 2 ^ 32 - s.waf.rCI (ringBlk i.val r.val)) % 2 ^ 32 ≠ 0 →
    (x.toNat + 2 ^ 32 - s.waf.rCI (ringBlk i.val r.val)) % 2 ^ 32 ≤ s.waf.rHeld (ringBlk i.val r.val) →
    Completes (.consumerDoorbell path i r x false) s fun t =>
      t.waf.rCI (ringBlk i.val r.val) = x.toNat ∧ t.waf.rPI (ringBlk i.val r.val) = s.waf.rPI (ringBlk i.val r.val) ∧
      sameSup s t ∧ sameBytes s t) ∧
  (∀ (s : State) (path : DbPath) (i : Fin 128) (r : Fin 2048) (x : BitVec 32), dbReaches s path i.val r.val →
    s.waf.ringOn (ringBlk i.val r.val) = true → s.waf.flag (ringBlk i.val r.val) F.QUE_RING_CTRL.CONS_DOORBELL = true →
    (s.waf.rKind (ringBlk i.val r.val) = 1 ∨ s.waf.rKind (ringBlk i.val r.val) = 2) →
    s.waf.flag (ringBlk i.val r.val) F.QUE_RING_CTRL.MSIX_EN = false → x.toNat = s.waf.rCI (ringBlk i.val r.val) →
    Completes (.consumerDoorbell path i r x true) s fun t =>
      t.waf.get (ringBlk i.val r.val) F.QUE_RING_CTRL.ARMED = 1 ∧
      t.waf.rCI (ringBlk i.val r.val) = s.waf.rCI (ringBlk i.val r.val) ∧ sameBytes s t) ∧
  (∀ (s : State) (src : Src) (i : Fin 128) (r : Fin 2048) (v : BitVec 64), configSrc src = true → s.waf.active i.val = true →
    s.waf.get (ringBlk i.val r.val) F.QUE_RING_CTRL.ENABLE = 0 →
    getF v F.QUE_RING_CTRL.ENABLE.lo 1 = 1 →
    Completes (.ringCtrlWrite src i r v) s fun t =>
      t.waf.get (ringBlk i.val r.val) F.QUE_RING_CTRL.ENABLE = 1 ∧ t.waf.get (ringBlk i.val r.val) F.QUE_RING_CTRL.ARMED = 1 ∧
      t.waf.rVol (ringBlk i.val r.val) = getF v F.QUE_RING_CTRL.VOLUME.lo F.QUE_RING_CTRL.VOLUME.w ∧
      sameRegsBut s t (fun k => k = ringBlk i.val r.val + 8) ∧ sameSup s t ∧ sameBytes s t) ∧
  (∀ (s : State) (i : Fin 128) (r : Fin 2048), s.waf.active i.val = true → s.waf.ringOn (ringBlk i.val r.val) = true →
    s.waf.ringStuck i.val r.val = true → Tab.look (fun _ => 0) s.waf.que.stuck (i.val * 2048 + r.val) = 0 →
    Completes (.ringStall i r) s fun t =>
      Tab.look (fun _ => 0) t.waf.que.stuck (i.val * 2048 + r.val) = s.waf.refcount i.val + 1 ∧ t.waf.regs = s.waf.regs) ∧
  (∀ (s : State) (i : Fin 128) (r : Fin 2048), s.waf.active i.val = true → s.waf.ringOn (ringBlk i.val r.val) = true →
    s.waf.ringStuck i.val r.val = true → Tab.look (fun _ => 0) s.waf.que.stuck (i.val * 2048 + r.val) ≠ 0 →
    s.waf.get (ringBlk i.val r.val) F.QUE_RING_CTRL.STALLED = 0 →
    Tab.look (fun _ => 0) s.waf.que.stuck (i.val * 2048 + r.val) - 1 + ms (s.waf.get (queBlk i.val) F.QUE_CFG.STALL_MS) ≤ s.waf.refcount i.val →
    Completes (.ringStall i r) s fun t =>
      t.waf.get (ringBlk i.val r.val) F.QUE_RING_CTRL.STALLED = 1 ∧ t.waf.get (queBlk i.val) F.QUE_EVT.STALL = 1)

/-- Sync objects (R264–R268): an add that neither meets the poison value nor overflows stores the sum and answers it; one that overflows stores 2^64 − 2 and sets OVERFLOWED; a poisoned object takes none; a wait whose threshold is met is woken at once with the value, else it is registered; a registered one
ends with TIMEOUT after its time; a write of a value that is not the poison value is stored. -/
def Obligations.SyncObjects : Prop :=
  (∀ (s : State) (q : Requester) (tag : BitVec 12) (src : Src) (i : Fin 128) (j : Fin 2048) (x : BitVec 64), syncOpen s src i.val j.val →
    s.waf.que.waits = [] → s.waf.syncVal i.val j.val ≠ poisonVal → (s.waf.syncVal i.val j.val).toNat + x.toNat < 2 ^ 64 - 1 →
    Completes (.syncAdd q tag src i j x) s fun t =>
      t.waf.syncVal i.val j.val = s.waf.syncVal i.val j.val + x ∧
      t.waf.net = s.waf.net ++ [.queueRsp q tag.toNat 0 qDone (s.waf.syncVal i.val j.val + x) []] ∧
      sameRegsBut s t (fun k => k = syncKey i.val j.val ∨ k = syncCtlBlk i.val j.val) ∧ sameSup s t ∧ sameBytes s t) ∧
  (∀ (s : State) (q : Requester) (tag : BitVec 12) (src : Src) (i : Fin 128) (j : Fin 2048) (x : BitVec 64), syncOpen s src i.val j.val →
    s.waf.syncVal i.val j.val ≠ poisonVal → 2 ^ 64 - 1 ≤ (s.waf.syncVal i.val j.val).toNat + x.toNat →
    Completes (.syncAdd q tag src i j x) s fun t =>
      t.waf.syncVal i.val j.val = 0xFFFFFFFFFFFFFFFE ∧ t.waf.get (syncCtlBlk i.val j.val) F.QUE_SYNC_CTL.OVERFLOWED = 1 ∧ sameBytes s t) ∧
  (∀ (s : State) (q : Requester) (tag : BitVec 12) (src : Src) (i : Fin 128) (j : Fin 2048) (x : BitVec 64), syncOpen s src i.val j.val →
    s.waf.syncVal i.val j.val = poisonVal →
    Completes (.syncAdd q tag src i j x) s fun t =>
      t.waf.regs = s.waf.regs ∧ t.waf.net = s.waf.net ++ [.queueRsp q tag.toNat 0 qPoisoned poisonVal []]) ∧
  (∀ (s : State) (q : Requester) (tag : BitVec 12) (src : Src) (i : Fin 128) (j : Fin 2048) (x : BitVec 64) (u : BitVec 32),
    syncOpen s src i.val j.val → s.waf.que.waits = [] → s.waf.syncVal i.val j.val ≠ poisonVal → x ≤ s.waf.syncVal i.val j.val →
    Completes (.syncWait q tag src i j x u) s fun t =>
      t.waf.que.waits = [] ∧ t.waf.net = s.waf.net ++ [.wake q tag.toNat qDone (s.waf.syncVal i.val j.val)] ∧
      t.waf.regs = s.waf.regs ∧ sameBytes s t) ∧
  (∀ (s : State) (q : Requester) (tag : BitVec 12) (src : Src) (i : Fin 128) (j : Fin 2048) (x : BitVec 64) (u : BitVec 32),
    syncOpen s src i.val j.val → s.waf.que.waits = [] → s.waf.syncVal i.val j.val ≠ poisonVal → s.waf.syncVal i.val j.val < x →
    Completes (.syncWait q tag src i j x u) s fun t =>
      t.waf.que.waits = [{ who := q, tag := tag.toNat, site := i.val, obj := j.val, thr := x, since := s.waf.now, waitUs := u.toNat }] ∧
      t.waf.net = s.waf.net ∧ t.waf.regs = s.waf.regs ∧ sameBytes s t) ∧
  (∀ (s : State) (q : Requester) (tag : BitVec 12) (y : Wait), s.waf.que.waits = [y] → y.who = q → y.tag = tag.toNat → y.waitUs ≠ 0 →
    y.since + us y.waitUs ≤ s.waf.now →
    Completes (.syncWaitTimeout q tag) s fun t =>
      t.waf.que.waits = [] ∧ t.waf.net = s.waf.net ++ [.wake q tag.toNat qTimeout (s.waf.syncVal y.site y.obj)] ∧
      t.waf.regs = s.waf.regs ∧ sameBytes s t) ∧
  (∀ (s : State) (src : Src) (i : Fin 128) (j : Fin 2048) (v : BitVec 64), s.waf.active i.val = true → s.waf.syncLive i.val j.val = true →
    Wafer.queAllowed src (s.waf.syncVol i.val j.val) = true → v ≠ poisonVal → s.waf.syncVal i.val j.val ≠ poisonVal →
    Completes (.syncValueWrite src i j v) s fun t =>
      t.waf.syncVal i.val j.val = v ∧ sameRegsBut s t (fun k => k = syncKey i.val j.val ∨ k = syncCtlBlk i.val j.val) ∧
      sameSup s t ∧ sameBytes s t)

/-- Queue operations and their answers (R262, R263, R266): QPUSH to a ring with room moves PI and answers the entry's index; QPOP of a ring that holds an entry answers it and moves CI; an empty or full ring answers so and moves nothing; an answer and a wake free
their tag, and complete the SYNC command that waits for them. -/
def Obligations.QueueOperations : Prop :=
  (∀ (s : State) (q : Requester) (tag : BitVec 12) (src : Src) (i : Fin 128) (r : Fin 2048) (e : List Byte), s.waf.out = [] →
    s.waf.dieStatus i.val = 0 → Wafer.queAllowed src (s.waf.rVol (ringBlk i.val r.val)) = true →
    s.waf.ringOn (ringBlk i.val r.val) = true → s.waf.rKind (ringBlk i.val r.val) = 3 → e.length = s.waf.rEsize (ringBlk i.val r.val) →
    s.waf.rHeld (ringBlk i.val r.val) < s.waf.rSize (ringBlk i.val r.val) →
    Completes (.qpushOperation q tag src i r e) s fun t =>
      t.waf.rPI (ringBlk i.val r.val) = (s.waf.rPI (ringBlk i.val r.val) + 1) % 2 ^ 32 ∧
      Msg.queueRsp q tag.toNat 0 qDone (BitVec.ofNat 64 (s.waf.rPI (ringBlk i.val r.val))) [] ∈ t.waf.net ∧
      sameRegsBut s t (fun k => k = ringBlk i.val r.val + F.QUE_RING_IDX.PI.off)) ∧
  (∀ (s : State) (q : Requester) (tag : BitVec 12) (src : Src) (i : Fin 128) (r : Fin 2048) (e : List Byte), s.waf.out = [] →
    s.waf.dieStatus i.val = 0 → Wafer.queAllowed src (s.waf.rVol (ringBlk i.val r.val)) = true →
    s.waf.ringOn (ringBlk i.val r.val) = true → s.waf.rKind (ringBlk i.val r.val) = 3 → e.length = s.waf.rEsize (ringBlk i.val r.val) →
    s.waf.rSize (ringBlk i.val r.val) ≤ s.waf.rHeld (ringBlk i.val r.val) →
    Completes (.qpushOperation q tag src i r e) s fun t =>
      t.waf.net = s.waf.net ++ [.queueRsp q tag.toNat 0 qFull 0 []] ∧ t.waf.regs = s.waf.regs ∧ sameBytes s t) ∧
  (∀ (s : State) (q : Requester) (tag : BitVec 12) (src : Src) (i : Fin 128) (r : Fin 2048) (n : Nat), s.waf.out = [] →
    s.waf.dieStatus i.val = 0 → Wafer.queAllowed src (s.waf.rVol (ringBlk i.val r.val)) = true →
    s.waf.ringOn (ringBlk i.val r.val) = true → s.waf.rKind (ringBlk i.val r.val) = 3 →
    n = s.waf.get (ringBlk i.val r.val) F.QUE_RING_CTRL.ESIZE_LOG2 → s.waf.rHeld (ringBlk i.val r.val) ≠ 0 → s.waf.poison = [] →
    Completes (.qpopOperation q tag src i r n) s fun t =>
      t.waf.rCI (ringBlk i.val r.val) = (s.waf.rCI (ringBlk i.val r.val) + 1) % 2 ^ 32 ∧
      (∃ v, t.waf.net = s.waf.net ++ [.queueRsp q tag.toNat 0 qDone v
        (s.waf.load (s.waf.rSlot (ringBlk i.val r.val) (s.waf.rCI (ringBlk i.val r.val))) (s.waf.rEsize (ringBlk i.val r.val)))]) ∧
      sameSup s t ∧ sameBytes s t) ∧
  (∀ (s : State) (q : Requester) (tag : BitVec 12) (src : Src) (i : Fin 128) (r : Fin 2048) (n : Nat), s.waf.out = [] →
    s.waf.dieStatus i.val = 0 → Wafer.queAllowed src (s.waf.rVol (ringBlk i.val r.val)) = true →
    s.waf.ringOn (ringBlk i.val r.val) = true → s.waf.rKind (ringBlk i.val r.val) = 3 →
    n = s.waf.get (ringBlk i.val r.val) F.QUE_RING_CTRL.ESIZE_LOG2 → s.waf.rHeld (ringBlk i.val r.val) = 0 →
    Completes (.qpopOperation q tag src i r n) s fun t =>
      t.waf.net = s.waf.net ++ [.queueRsp q tag.toNat 0 qEmpty 0 []] ∧ t.waf.regs = s.waf.regs ∧ sameBytes s t) ∧
  (∀ (s : State) (q : Requester) (tag : BitVec 12) (st res : Nat) (v : Word) (d : List Byte) (o : Out),
    s.waf.net = [.queueRsp q tag.toNat st res v d] → s.waf.out = [o] → o.who = q → o.tag = tag.toNat → o.cmd = none → 96 ≤ q.unit.toNat →
    Completes (.queueRsp q tag) s fun t =>
      t.waf.net = [] ∧ t.waf.out = [] ∧ t.waf.regs = s.waf.regs ∧ sameSup s t ∧ sameBytes s t) ∧
  (∀ (s : State) (q : Requester) (tag : BitVec 12) (res : Nat) (v : Word) (o : Out),
    s.waf.net = [.wake q tag.toNat res v] → s.waf.out = [o] → o.who = q → o.tag = tag.toNat → o.cmd = none → 96 ≤ q.unit.toNat →
    Completes (.syncWake q tag) s fun t =>
      t.waf.net = [] ∧ t.waf.out = [] ∧ t.waf.regs = s.waf.regs ∧ sameSup s t ∧ sameBytes s t) ∧
  (∀ (s : State) (q : Requester) (tag : BitVec 12) (v : Word) (o : Out) (c : Cmd) (k : Nat × Nat),
    s.waf.net = [.wake q tag.toNat qDone v] → s.waf.out = [o] → o.who = q → o.tag = tag.toNat → o.cmd = some k →
    s.waf.cmd? k.1 k.2 = some c → c.run.isSome = true →
    Completes (.syncWake q tag) s fun t => (t.waf.cmd? k.1 k.2).any (fun c => c.st == .final) = true)

/-- Mailboxes (R271–R275, R277, R278), on the REQUEST direction and on a reply that waits for no other: the client's POST and GO fill an EMPTY direction; Unhal's take empties it, or under ACK_MODE leaves it to an ACK with its code; the client takes a reply and may withdraw what it has posted; an operation of the channel's other side has no
effect but OVERRUN, and one by a stranger none. -/
def Obligations.Mailboxes : Prop :=
  (∀ (s : State) (a : MbxActor) (e : Fin 16) (c : Fin 64) (x : BitVec 32), s.waf.active (128 + e.val) = true →
    s.waf.ribbonPostStops a e.val c.val = false → s.waf.mbxClient a e.val c.val = true → s.waf.mbxState e.val c.val false = 0 →
    s.waf.mbxForm e.val c.val false = true →
    Completes (.post a e c false x) s fun t =>
      t.waf.mbxState e.val c.val false = 1 ∧ t.waf.get (dirBlk e.val c.val false) F.QUE_MBX_WORD.WORD = x.toNat ∧
      sameRegsBut s t (inBlock (dirBlk e.val c.val false) 0x100) ∧ sameSup s t ∧ sameBytes s t) ∧
  (∀ (s : State) (a : MbxActor) (e : Fin 16) (c : Fin 64) (n : BitVec 5) (x : BitVec 16), s.waf.active (128 + e.val) = true →
    s.waf.ribbonPostStops a e.val c.val = false → s.waf.mbxClient a e.val c.val = true → s.waf.mbxState e.val c.val false = 0 →
    s.waf.mbxForm e.val c.val true = true → 0 < n.toNat → n.toNat ≤ 16 →
    Completes (.go a e c false n x) s fun t =>
      t.waf.mbxState e.val c.val false = 1 ∧ t.waf.get (dirBlk e.val c.val false) F.QUE_MBX_HDR.WORDS = n.toNat ∧
      t.waf.get (dirBlk e.val c.val false) F.QUE_MBX_HDR.COMMAND = x.toNat ∧
      sameRegsBut s t (inBlock (dirBlk e.val c.val false) 0x100) ∧ sameSup s t ∧ sameBytes s t) ∧
  (∀ (s : State) (e : Fin 16) (c : Fin 64), s.waf.active (128 + e.val) = true → s.waf.mbxState e.val c.val false = 1 →
    Wafer.mbxRibbon e.val c.val = false → s.waf.flag (dirBlk e.val c.val false) F.QUE_MBX_STAT.NOTIFY_EMPTY = false →
    Completes (.take .unhal e c false) s fun t =>
      t.waf.mbxState e.val c.val false = (if s.waf.flag (chanBlk e.val c.val) F.QUE_MBX_CFG.ACK_MODE then 2 else 0) ∧ sameBytes s t) ∧
  (∀ (s : State) (a : MbxActor) (e : Fin 16) (c : Fin 64), s.waf.active (128 + e.val) = true → s.waf.mbxState e.val c.val true = 1 →
    s.waf.mbxClient a e.val c.val = true → s.waf.que.replies = [] →
    Completes (.take a e c true) s fun t => t.waf.mbxState e.val c.val true = 0 ∧ sameSup s t ∧ sameBytes s t) ∧
  (∀ (s : State) (e : Fin 16) (c : Fin 64) (x : BitVec 16), s.waf.active (128 + e.val) = true → s.waf.mbxState e.val c.val false = 2 →
    Wafer.mbxRibbon e.val c.val = false → s.waf.flag (dirBlk e.val c.val false) F.QUE_MBX_STAT.NOTIFY_EMPTY = false →
    Completes (.ack .unhal e c false x) s fun t =>
      t.waf.mbxState e.val c.val false = 0 ∧ t.waf.get (dirBlk e.val c.val false) F.QUE_MBX_STAT.RET_CODE = x.toNat ∧ sameBytes s t) ∧
  (∀ (s : State) (a : MbxActor) (e : Fin 16) (c : Fin 64), s.waf.active (128 + e.val) = true → s.waf.mbxState e.val c.val false = 1 →
    s.waf.mbxClient a e.val c.val = true → Wafer.mbxRibbon e.val c.val = false →
    s.waf.flag (dirBlk e.val c.val false) F.QUE_MBX_STAT.NOTIFY_EMPTY = false →
    Completes (.withdraw a e c false) s fun t =>
      t.waf.mbxState e.val c.val false = 0 ∧ t.waf.get (dirBlk e.val c.val false) F.QUE_MBX_STAT.WITHDRAWN = 1 ∧ sameBytes s t) ∧
  (∀ (s : State) (a : MbxActor) (e : Fin 16) (c : Fin 64), s.waf.active (128 + e.val) = true → s.waf.mbxClient a e.val c.val = true →
    a ≠ .unhal →
    Completes (.take a e c false) s fun t =>
      t.waf.get (dirBlk e.val c.val false) F.QUE_MBX_STAT.OVERRUN = 1 ∧
      t.waf.mbxState e.val c.val false = s.waf.mbxState e.val c.val false ∧
      sameRegsBut s t (fun k => k = dirBlk e.val c.val false + F.QUE_MBX_STAT.OVERRUN.off)) ∧
  (∀ (s : State) (v : Fin 64) (e : Fin 16) (c : Fin 64), s.waf.mbxClient (.volume v) e.val c.val = false →
    Completes (.withdraw (.volume v) e c false) s fun t => t = s)

/-! ### Commands (spec files 07, 08, 09, 16) -/

/-- Descriptors come in (R246, R258–R260, R312–R314): a burst of 1 to 32 descriptors starts at CI of the ring served next; when a burst of one valid FUSED descriptor returns, CI has moved past it, two completion
slots are reserved, and a record holds it as accepted; a stage list that can be read and validates is stored with its command; one that lies outside memory that the volume may name fails with LIST_READ; a FUSED command that may start runs
on its home engine; a NOP that may start ends. -/
def Obligations.CommandIntake : Prop :=
  (∀ (s : State) (i : Fin 128) (r : Nat), s.waf.active i.val = true →
    (s.waf.que.bursts.filter (fun x => x.site == i.val)).length < 4 → s.waf.nextRing i.val = some r →
    Completes (.fetchBurst i) s fun t =>
      t.waf.que.bursts = s.waf.que.bursts ++ [{ site := i.val, ring := r, first := s.waf.rCI (ringBlk i.val r), count := s.waf.burstSize i.val r }] ∧
      1 ≤ s.waf.burstSize i.val r ∧ s.waf.burstSize i.val r ≤ 32 ∧
      t.waf.cmds = s.waf.cmds ∧ t.waf.regs = s.waf.regs ∧ sameSup s t ∧ sameBytes s t) ∧
  (∀ (s : State) (i : Fin 128) (r : Fin 2048) (x : Burst), s.waf.active i.val = true → s.waf.que.bursts = [x] → x.site = i.val → x.ring = r.val →
    x.count = 1 → s.waf.cmds = [] → s.waf.reg (ringBlk i.val r.val + 0x18) = 0 →
    s.waf.readStatus (volSrc (s.waf.rVol (ringBlk i.val r.val))) (s.waf.rSlot (ringBlk i.val r.val) (x.first % 2 ^ 32)) 64 = stOk →
    leAt (s.waf.load (s.waf.rSlot (ringBlk i.val r.val) (x.first % 2 ^ 32)) 64) 0 1 = 1 →
    descCode (s.waf.load (s.waf.rSlot (ringBlk i.val r.val) (x.first % 2 ^ 32)) 64) = 0 →
    Completes (.fetchBurstReturn i r) s fun t =>
      t.waf.rCI (ringBlk i.val r.val) = (x.first + 1) % 2 ^ 32 ∧ t.waf.que.bursts = [] ∧
      t.waf.get (s.waf.complBlk i.val r.val) F.QUE_RING_RESV.RESERVED = (s.waf.get (s.waf.complBlk i.val r.val) F.QUE_RING_RESV.RESERVED + 2) % 2 ^ 32 ∧
      t.waf.cmds.length = 1 ∧
      (t.waf.cmd? i.val 0).any (fun c => c.st == .accepted && c.ring == r.val && c.vol == s.waf.rVol (ringBlk i.val r.val) && c.descIndex == x.first % 2 ^ 32 &&
        c.desc == s.waf.load (s.waf.rSlot (ringBlk i.val r.val) (x.first % 2 ^ 32)) 64) = true ∧ sameBytes s t) ∧
  (∀ (s : State) (i : Fin 128) (r : Fin 1024) (c d : Cmd) (h : List Byte) (l : List (List Byte)), s.waf.cmd? i.val r.val = some c → s.waf.active i.val = true →
    c.st = .accepted → c.fused = true → c.listRead = false → l.length = c.stageCount →
    (∀ j, j < c.stageCount + 1 →
      (adRegion (c.body + 64 * j) = 2 ∨ s.waf.ownSram c.vol c.home (c.body + 64 * j) 64 = true) ∧
      s.waf.fetch (s.waf.ctxOf c 0) (c.body + 64 * j) 64 = .ok ((h :: l).getD j [])) →
    d = { c with header := h, stages := l, listRead := true } → s.waf.listCode d = none → s.waf.sourceGone d = none →
    Completes (.stageListRead i r) s fun t =>
      (t.waf.cmd? i.val r.val).any (fun x => x.listRead && x.header == h && x.stages == l) = true ∧ t.sup = s.sup) ∧
  (∀ (s : State) (i : Fin 128) (r : Fin 1024) (c : Cmd), s.waf.cmd? i.val r.val = some c → s.waf.active i.val = true →
    c.st = .accepted → c.fused = true → c.listRead = false → adRegion c.body ≠ 2 → s.waf.ownSram c.vol c.home c.body 64 = false →
    Completes (.stageListRead i r) s fun t =>
      (t.waf.cmd? i.val r.val).any (fun x => x.st == .final && leAt x.final 8 2 == 0x5111 && leAt x.final 24 8 == 255) = true ∧ sameBytes s t) ∧
  (∀ (s : State) (i : Fin 128) (r : Fin 1024) (c : Cmd), s.waf.cmd? i.val r.val = some c → s.waf.active i.val = true →
    s.waf.canStart c = true → s.waf.rotRuns c = true → c.fused = true →
    Completes (.commandStart i r) s fun t =>
      (t.waf.cmd? i.val r.val).any (fun x => x.st == .running && x.run.any (fun y => y.eng == s.waf.engOf c && y.start == s.waf.now)) = true ∧
      sameSup s t ∧ sameBytes s t) ∧
  (∀ (s : State) (i : Fin 128) (r : Fin 1024) (c : Cmd), s.waf.cmd? i.val r.val = some c → s.waf.active i.val = true →
    s.waf.canStart c = true → c.opcode = 0 →
    Completes (.commandStart i r) s fun t =>
      (t.waf.cmd? i.val r.val).any (fun x => x.st == .final && x.run.isNone) = true ∧ sameBytes s t)

/-- How commands end (R55, R60, R250, R251, R257, R325, R329, R336, R337, R507, R511, R535): a completion record that its ring takes is written, PI moves and the slots it used are no longer reserved; one that cannot be written is tried again 1 ms later, and
a retry that is due writes it; a running FOLIO command whose deadline is reached ends LATE; the command timeout aborts a run without replay, the stage watchdog with replay; an abort that is complete leads to FAILED without replay, to one more replay
below MAX_REPLAYS, and to REPLAY_LIMIT at it. -/
def Obligations.CommandEnds : Prop :=
  (∀ (s : State) (i : Fin 128) (r : Fin 2048) (p : Pend), s.waf.que.pend = [p] → p.home = i.val → p.ring = r.val → p.retryAt = none → p.cmd = none →
    s.waf.active p.writer = true → s.waf.writeStatus (volSrc p.vol) (s.waf.rSlot (ringBlk i.val r.val) (s.waf.rPI (ringBlk i.val r.val))) 32 = stOk →
    Completes (.completionRecord i r) s fun t =>
      t.waf.que.pend = [] ∧ t.waf.rPI (ringBlk i.val r.val) = (s.waf.rPI (ringBlk i.val r.val) + 1) % 2 ^ 32 ∧
      t.waf.get (ringBlk i.val r.val) F.QUE_RING_RESV.RESERVED = s.waf.get (ringBlk i.val r.val) F.QUE_RING_RESV.RESERVED - p.slots ∧ sameSup s t) ∧
  (∀ (s : State) (i : Fin 128) (r : Fin 2048) (p : Pend), s.waf.que.pend = [p] → p.home = i.val → p.ring = r.val → p.retryAt = none → p.cmd = none →
    s.waf.active p.writer = true → s.waf.writeStatus (volSrc p.vol) (s.waf.rSlot (ringBlk i.val r.val) (s.waf.rPI (ringBlk i.val r.val))) 32 ≠ stOk →
    p.once = false →
    Completes (.completionRecord i r) s fun t =>
      t.waf.que.pend = [{ p with retryAt := some (s.waf.now + 100000) }] ∧ t.waf.regs = s.waf.regs ∧ sameSup s t ∧ sameBytes s t) ∧
  (∀ (s : State) (i : Fin 128) (r : Fin 2048) (p : Pend) (t0 : Nat), s.waf.que.pend = [p] → p.home = i.val → p.ring = r.val → p.retryAt = some t0 →
    t0 ≤ s.waf.now → p.cmd = none → s.waf.active p.writer = true →
    s.waf.writeStatus (volSrc p.vol) (s.waf.rSlot (ringBlk i.val r.val) (s.waf.rPI (ringBlk i.val r.val))) 32 = stOk →
    Completes (.completionRetry i r) s fun t =>
      t.waf.que.pend = [] ∧ t.waf.rPI (ringBlk i.val r.val) = (s.waf.rPI (ringBlk i.val r.val) + 1) % 2 ^ 32 ∧ sameSup s t) ∧
  (∀ (s : State) (i : Fin 128) (r : Fin 1024) (c : Cmd), s.waf.cmd? i.val r.val = some c → s.waf.active i.val = true → s.waf.deadlineHit c = true →
    Completes (.deadlineAbort i r) s fun t =>
      (t.waf.cmd? i.val r.val).any (fun x => x.st == .final && x.run.isNone && leAt x.final 8 2 == (if c.jumped then 0x3003 else 0x3002)) = true ∧
      t.waf.get (cmdBlk i.val) F.CMD_EVT.ABORT = 1 ∧ t.waf.que.pend.length = s.waf.que.pend.length + 1 ∧ sameBytes s t) ∧
  (∀ (s : State) (i : Fin 128) (r : Fin 1024) (c : Cmd), s.waf.cmd? i.val r.val = some c → s.waf.active i.val = true → c.isOpen = true →
    c.firstStart ≠ 0 → c.run.isSome = true → s.waf.deadlineHit c = false →
    ms (s.waf.get (cmdBlk i.val) F.CMD_CFG.CMD_TIMEOUT_MS) ≤ since c.firstStart (s.waf.refcount i.val) →
    Completes (.commandTimeout i r) s fun t =>
      (t.waf.cmd? i.val r.val).any (fun x => x.run.isNone && x.aborting == some s.waf.now && x.lastFault == 0x5163 && x.noReplay) = true ∧
      t.waf.get (cmdBlk i.val) F.CMD_EVT.ABORT = 1 ∧ sameBytes s t) ∧
  (∀ (s : State) (i : Fin 128) (r : Fin 1024) (g : Fin 8) (c : Cmd) (y : Run) (u : Unit_), s.waf.cmd? i.val r.val = some c → s.waf.active i.val = true →
    c.run = some y → y.units = [u] → u.stage = g.val → 8 ≤ u.res → c.kindOf g.val ≠ kGather →
    us (s.waf.get (cmdBlk i.val) F.CMD_CFG.STAGE_WD_US) ≤ since u.start s.waf.now →
    Completes (.stageWatchdog i r g) s fun t =>
      (t.waf.cmd? i.val r.val).any (fun x => x.run.isNone && x.aborting == some s.waf.now && x.lastFault == 0x5162 && !x.noReplay) = true ∧
      t.waf.get (cmdBlk i.val) F.CMD_EVT.WATCHDOG = 1 ∧ sameBytes s t) ∧
  (∀ (s : State) (i : Fin 128) (r : Fin 1024) (c : Cmd), s.waf.cmd? i.val r.val = some c → s.waf.active i.val = true → c.aborting.isSome = true →
    c.run = none → c.rebuild = false → c.noReplay = true →
    Completes (.abortComplete i r) s fun t =>
      (t.waf.cmd? i.val r.val).any (fun x => x.st == .final && leAt x.final 8 2 == 0x5000 + c.lastFault % 4096) = true ∧ sameBytes s t) ∧
  (∀ (s : State) (i : Fin 128) (r : Fin 1024) (c : Cmd), s.waf.cmd? i.val r.val = some c → s.waf.active i.val = true → c.aborting.isSome = true →
    c.run = none → c.rebuild = false → c.noReplay = false → c.replays < s.waf.get (fltBlk i.val) F.FLT_CFG.MAX_REPLAYS →
    Completes (.abortComplete i r) s fun t =>
      (t.waf.cmd? i.val r.val).any (fun x => x.replays == c.replays + 1 && x.aborting == none) = true ∧ t.sup = s.sup) ∧
  (∀ (s : State) (i : Fin 128) (r : Fin 1024) (c : Cmd), s.waf.cmd? i.val r.val = some c → s.waf.active i.val = true → c.aborting.isSome = true →
    c.run = none → c.rebuild = false → c.noReplay = false → s.waf.get (fltBlk i.val) F.FLT_CFG.MAX_REPLAYS ≤ c.replays →
    Completes (.abortComplete i r) s fun t =>
      (t.waf.cmd? i.val r.val).any (fun x => x.st == .final && leAt x.final 8 2 == 0x5000 + c.lastFault % 4096) = true ∧
      t.waf.get (fltBlk i.val) F.FLT_EVT.REPLAY_LIMIT = 1 ∧ sameBytes s t)

/-- Units on their engines (R303, R318, R321–R324, R364, R367–R369): a FETCH or EMIT unit whose turn it is starts on the fetch engine of its home engine; a FETCH unit that ends puts the records it has read into its output slot; a saved unit whose engine
is free, let go and led returns to it; a parity error aborts the command on the engine for replay; HALT stops an engine and RESUME lets it go on. -/
def Obligations.UnitsOfWork : Prop :=
  (∀ (s : State) (i : Fin 128) (r : Fin 1024) (g : Fin 8) (c : Cmd) (y : Run) (k : Nat), s.waf.cmd? i.val r.val = some c → s.waf.active i.val = true →
    c.run = some y → c.readyUnit y g.val = some k → (c.kindOf g.val = 0 ∨ c.kindOf g.val = 5) → s.waf.unitTurn c y g.val = true →
    s.waf.engineBusy i.val (s.waf.stageEngine c y g.val) = false →
    Completes (.unitStart i r g) s fun t =>
      (t.waf.cmd? i.val r.val).any (fun x => x.run.any (fun z =>
        z.units == y.units ++ [{ stage := g.val, mb := k, res := 96 + y.eng, start := s.waf.now }])) = true ∧
      t.waf.regs = s.waf.regs ∧ sameSup s t ∧ sameBytes s t) ∧
  (∀ (s : State) (i : Fin 128) (r : Fin 1024) (c : Cmd) (y : Run) (u : Unit_) (l : List Byte), s.waf.cmds = [c] → c.site = i.val → c.idx = r.val →
    s.waf.active i.val = true → c.st = .running → c.fused = true → c.rotSlot = none → c.run = some y → y.units = [u] → u.stage = 0 → 8 ≤ u.res → c.kindOf 0 = kFetch →
    c.kindOf 1 ≠ kGather → s.waf.lve.grants = [] → s.waf.fetchInput c u.mb = .ok l →
    Completes (.unitEnd i r 0) s fun t =>
      (t.waf.cmd? i.val r.val).any (fun x => x.run.any (fun z => z.units.isEmpty && z.slots.any (fun v => v.stage == 0 && v.mb == u.mb && v.data == l))) = true ∧
      t.waf.regs = s.waf.regs ∧ sameSup s t ∧ sameBytes s t) ∧
  (∀ (s : State) (i : Fin 128) (e : Fin 8) (x : Saved) (v : Cmd), s.waf.active i.val = true → (s.waf.engAt i.val e.val).saved = [x] →
    (s.waf.engAt i.val e.val).on = none → (s.waf.engAt i.val e.val).halted = none → s.waf.cmd? i.val x.unit.idx = some v → v.run.isSome = true →
    s.waf.letGo i.val e.val x.by_ = true → s.waf.heavies v e.val = [] →
    s.waf.readStatus .unhal (s.waf.ownAddr (saveSlot i.val e.val x.cls)) 0x4900 = stOk →
    Completes (.restore i e) s fun t =>
      (t.waf.engAt i.val e.val).on = some { x.unit with start := s.waf.now } ∧ (t.waf.engAt i.val e.val).saved = [] ∧
      t.waf.get (matBlk i.val e.val) F.MAT_EVT.RESTORED = 1 ∧ sameSup s t ∧ sameBytes s t) ∧
  (∀ (s : State) (i : Fin 128) (e : Fin 8) (o : OnEng) (c : Cmd), s.waf.active i.val = true → (s.waf.engAt i.val e.val).on = some o →
    s.waf.cmd? i.val o.idx = some c →
    Completes (.accParity i e) s fun t =>
      t.waf.get (matBlk i.val e.val) F.MAT_EVT.PARITY = 1 ∧
      (t.waf.cmd? i.val o.idx).any (fun x => x.run.isNone && x.aborting == some s.waf.now && x.lastFault == 0x5167 && !x.noReplay) = true ∧ sameBytes s t) ∧
  (∀ (s : State) (src : Src) (i : Fin 128) (e : Fin 8), configSrc src = true → s.waf.active i.val = true → (s.waf.engAt i.val e.val).halted = none →
    Completes (.halt src i e) s fun t =>
      (t.waf.engAt i.val e.val).halted.isSome = true ∧ ((t.waf.engAt i.val e.val).on.isSome = (s.waf.engAt i.val e.val).on.isSome) ∧
      t.waf.regs = s.waf.regs ∧ sameSup s t ∧ sameBytes s t) ∧
  (∀ (s : State) (src : Src) (i : Fin 128) (e : Fin 8) (n : Nat), configSrc src = true → s.waf.active i.val = true → (s.waf.engAt i.val e.val).halted = some n →
    Completes (.resume src i e) s fun t =>
      (t.waf.engAt i.val e.val).halted = none ∧
      (t.waf.engAt i.val e.val).on = (s.waf.engAt i.val e.val).on.map (fun o => { o with start := s.waf.now }) ∧
      t.waf.regs = s.waf.regs ∧ sameSup s t ∧ sameBytes s t) ∧
  (∀ (s : State) (v : Fin 64) (i : Fin 128) (e : Fin 8), Completes (.halt (.volume v) i e) s fun t => t = s)

/-- Gathering and rotation (R149, R330–R334): an operand from the right waits at its node until the left value is there; a bound command that needs another page asks m_0 for a turn, and the first request calls it for every member; a member sends its current half to its
receiver and notes that it has; a member that has sent and received swaps its halves and moves to the next page; a command with all its passes combines its partials. -/
def Obligations.GatherAndRotation : Prop :=
  (∀ (s : State) (v : Fin 64) (gid : BitVec 16) (sh : Bool) (n k : Nat) (d : List Byte) (x : Sess),
    s.waf.net = [.gather v.val gid.toNat sh n k d] → s.waf.gat = [x] → x.vol = v.val → x.gid = gid.toNat → x.shelf = sh → x.broken = false → x.vals = [] →
    Completes (.gatherOperand v gid sh n k) s fun t =>
      t.waf.gat = [{ x with vals := [(n + 2 ^ k, k, d)] }] ∧ t.waf.net = [] ∧ t.waf.regs = s.waf.regs ∧ sameSup s t ∧ sameBytes s t) ∧
  (∀ (s : State) (i : Fin 128) (g : Fin 16) (c : Cmd) (y : Run) (m : Nat) (ms : List Nat), s.waf.active i.val = true → s.waf.bound i.val g.val = [c] → c.run = some y →
    c.st = .running → y.inPass = false → y.asked = false → 0 < y.passes → y.passes < s.waf.rotG c →
    s.waf.rotMembers g.val (s.waf.get (rotBlk i.val g.val) F.CMD_ROT_CFG.FIRST) = m :: ms → s.waf.get (rotBlk i.val g.val) F.CMD_ROT_TURNS.CALLED = 0 →
    Completes (.turnRequest i g) s fun t =>
      t.waf.net = s.waf.net ++ [.turnReq m g.val] ∧ (t.waf.cmd? c.site c.idx).any (fun x => x.run.any (·.asked)) = true ∧
      t.waf.regs = s.waf.regs ∧ sameSup s t ∧ sameBytes s t) ∧
  (∀ (s : State) (i : Fin 128) (g : Fin 16) (ms : List Nat), s.waf.active i.val = true → s.waf.net = [.turnReq i.val g.val] →
    s.waf.rotMembers g.val (s.waf.get (rotBlk i.val g.val) F.CMD_ROT_CFG.FIRST) = ms →
    (∀ m ∈ ms, s.waf.get (rotBlk m g.val) F.CMD_ROT_CFG.STATE = 1 ∧ s.waf.get (rotBlk m g.val) F.CMD_ROT_TURNS.CALLED = 0) →
    Completes (.turnCall i g) s fun t =>
      (∀ m ∈ ms, t.waf.get (rotBlk m g.val) F.CMD_ROT_CFG.STATE = 2 ∧ t.waf.get (rotBlk m g.val) F.CMD_ROT_TURNS.CALLED = 1) ∧ t.waf.net = [] ∧
      sameSup s t ∧ sameBytes s t) ∧
  (∀ (s : State) (i : Fin 128) (g : Fin 16) (d : Nat), s.waf.active i.val = true → s.waf.active d = true → i.val ≠ d →
    s.waf.rotMembers g.val (s.waf.get (rotBlk i.val g.val) F.CMD_ROT_CFG.FIRST) = [i.val, d] →
    s.waf.get (rotBlk i.val g.val) F.CMD_ROT_CFG.VALID = 1 → s.waf.get (rotBlk i.val g.val) F.CMD_ROT_TURNS.CALLED = 1 →
    (s.waf.turnAt i.val g.val).sent = false → (s.waf.turnAt d g.val).arrived = false → s.waf.bound i.val g.val = [] → s.waf.asc.bad = [] →
    s.waf.get (rotBlk i.val g.val) F.CMD_ROT_BANKS.BANKS * 0x20000 + s.waf.get (rotBlk i.val g.val) F.CMD_ROT_SIZE.SRAM_BYTES ≤ 2 ^ 20 →
    s.waf.readStatus .unhal (s.waf.halfSram i.val g.val (s.waf.flag (rotBlk i.val g.val) F.CMD_ROT_CFG.HALF)) (s.waf.get (rotBlk i.val g.val) F.CMD_ROT_SIZE.SRAM_BYTES) = stOk →
    Completes (.pageSend i g) s fun t =>
      (t.waf.turnAt i.val g.val).sent = true ∧ (t.waf.turnAt d g.val).arrived = true ∧ sameSup s t) ∧
  (∀ (s : State) (i : Fin 128) (g : Fin 16), s.waf.active i.val = true → (s.waf.turnAt i.val g.val).sent = true → (s.waf.turnAt i.val g.val).arrived = true →
    s.waf.get (rotBlk i.val g.val) F.CMD_ROT_CFG.VALID = 1 → s.waf.bound i.val g.val = [] → 0 < s.waf.get (rotBlk i.val g.val) F.CMD_ROT_CFG.MEMBERS →
    Completes (.halfSwap i g) s fun t =>
      t.waf.get (rotBlk i.val g.val) F.CMD_ROT_CFG.HALF = 1 - s.waf.get (rotBlk i.val g.val) F.CMD_ROT_CFG.HALF ∧
      t.waf.get (rotBlk i.val g.val) F.CMD_ROT_CFG.PAGE =
        (s.waf.get (rotBlk i.val g.val) F.CMD_ROT_CFG.PAGE + 1) % s.waf.get (rotBlk i.val g.val) F.CMD_ROT_CFG.MEMBERS ∧
      t.waf.get (rotBlk i.val g.val) F.CMD_ROT_CFG.STATE = 1 ∧ t.waf.get (rotBlk i.val g.val) F.CMD_ROT_TURNS.CALLED = 0 ∧
      t.waf.get (rotBlk i.val g.val) F.CMD_ROT_TURNS.TURNS = (s.waf.get (rotBlk i.val g.val) F.CMD_ROT_TURNS.TURNS + 1) % 2 ^ 32 ∧
      t.waf.turnAt i.val g.val = Turn.init ∧ sameRegsBut s t (inBlock (rotBlk i.val g.val) 0x40) ∧ sameSup s t ∧ sameBytes s t) ∧
  (∀ (s : State) (i : Fin 128) (r : Fin 1024) (c : Cmd) (y : Run), s.waf.cmd? i.val r.val = some c → s.waf.active i.val = true → c.run = some y →
    c.rot = true → c.st = .running → y.inPass = false → y.delivered = none → s.waf.rotG c = 1 → 1 ≤ y.passes →
    s.waf.readStatus (Wafer.areaSrc c) (s.waf.scratchAt c + c.partialOff 0) (c.records * sgOut (c.stage c.lastPage)) = stOk →
    Completes (.partialCombine i r) s fun t =>
      (t.waf.cmd? i.val r.val).any (fun x => x.run.any (fun z =>
        z.delivered == some (s.waf.load (s.waf.scratchAt c + c.partialOff 0) (c.records * sgOut (c.stage c.lastPage))))) = true ∧
      t.waf.regs = s.waf.regs ∧ sameSup s t ∧ sameBytes s t)

/-! ### Leave and heat (spec file 15) -/

/-- Leave (R482, R483, R485–R487, R491, R496): a request that fails no condition and fits the ramp is granted at once, for the duration asked or GRANT_MAX, and the grant leaves for its site; one without LU or duration is denied BAD_REQUEST; a recall that finds no unit
running ends the grant; what waits is decided again; a renewal of a grant that could be granted anew sets its expiry from now; a renewal is due when a quarter of the duration remains; a return ends the grant, and one that names no live handle answers
BAD_REQUEST; an expired grant ends, or enters its tail while a unit runs; a grant that arrives counts and is led; a denial that arrives latches DENIED and is kept for admission. -/
def Obligations.LeaveDecisions : Prop :=
  (∀ (s : State) (rq : LeaveReq) (r : LWait), s.waf.active rq.site = true → s.waf.lve.waits = [] →
    r = { id := s.waf.lve.next, site := rq.site, res := rq.res, cls := rq.cls, vol := rq.vol, lu := rq.lu, dur := rq.durationUs,
          owner := s.waf.leaveClient rq, denied := false, held := false, hold := 0 } →
    (s.waf.leaveFails r (fun _ => false)).1 = 0 → (if s.waf.lve.win = s.waf.now / 1000 then s.waf.lve.spent else 0) + r.lu ≤ s.waf.rampLu →
    Completes (.leaveRequest rq) s fun t =>
      t.waf.lve.grants = s.waf.lve.grants ++
        [{ site := rq.site, res := rq.res, handle := (s.waf.newHandle rq.site).1, cls := rq.cls, vol := rq.vol, lu := rq.lu, decided := s.waf.now,
           expiry := s.waf.now + us (min rq.durationUs s.waf.grantMax), dur := us (min rq.durationUs s.waf.grantMax), tail := false, arrived := false,
           asked := false, owner := s.waf.leaveClient rq, forReq := none }] ∧
      t.waf.lve.waits = [] ∧
      t.waf.net = s.waf.net ++ [.leaveGrant rq.site rq.res (s.waf.newHandle rq.site).1 (s.waf.now + us (min rq.durationUs s.waf.grantMax)) rq.lu] ∧
      t.waf.get lveWBlk F.LVE_W_CNT.GRANTS = (s.waf.get lveWBlk F.LVE_W_CNT.GRANTS + 1) % 2 ^ 32 ∧ sameSup s t ∧ sameBytes s t) ∧
  (∀ (s : State) (rq : LeaveReq), s.waf.active rq.site = true → s.waf.lve.waits = [] → rq.lu = 0 ∨ 600 < rq.lu ∨ rq.durationUs = 0 ∨ 2000 < rq.durationUs →
    Completes (.leaveRequest rq) s fun t =>
      t.waf.net = s.waf.net ++ [.leaveDenial rq.site rq.res 8 0 s.waf.now] ∧ t.waf.lve.waits = [] ∧ t.waf.lve.grants = s.waf.lve.grants ∧
      sameSup s t ∧ sameBytes s t) ∧
  (∀ (s : State) (i : Fin 128) (h : BitVec 16) (g : Grant), s.waf.net = [.leaveRecall i h.toNat] → s.waf.grantOf i.val h.toNat = some g →
    g.tail = true → s.waf.grantBusy g = false →
    Completes (.leaveRecall i h) s fun t =>
      t.waf.lve.grants = s.waf.lve.grants.filter (fun x => x ≠ g) ∧ t.waf.get (lveBlk i.val) F.LVE_SITE_EVT.RECALLED = 1 ∧ t.waf.net = [] ∧
      sameSup s t ∧ sameBytes s t) ∧
  (∀ (s : State) (r : LWait), s.waf.lve.waits = [r] → (s.waf.leaveFails r (fun _ => false)).1 = 0 →
    (if s.waf.lve.win = s.waf.now / 1000 then s.waf.lve.spent else 0) + r.lu ≤ s.waf.rampLu →
    Completes .leaveRedecide s fun t =>
      t.waf.lve.waits = [] ∧ t.waf.lve.grants.length = s.waf.lve.grants.length + 1 ∧
      t.waf.lve.grants.any (fun g => g.site == r.site && g.res == r.res && g.lu == r.lu && g.owner == r.owner && g.decided == s.waf.now &&
        g.expiry == s.waf.now + us (min r.dur s.waf.grantMax)) = true ∧ sameSup s t ∧ sameBytes s t) ∧
  (∀ (s : State) (i : Fin 128) (h : BitVec 16) (d : Nat) (g : Grant), s.waf.active i.val = true → s.waf.lve.grants = [g] → g.site = i.val →
    g.handle = h.toNat → g.tail = false → s.waf.now < g.expiry →
    (s.waf.leaveFails { id := s.waf.lve.next, site := g.site, res := g.res, cls := g.cls, vol := g.vol, lu := g.lu, dur := d, owner := g.owner,
                        denied := false, held := false, hold := 0 } (fun x => x == g)).1 = 0 →
    Completes (.leaveRenew i h d) s fun t =>
      t.waf.lve.grants = [{ g with expiry := s.waf.now + us (min d s.waf.grantMax), dur := us (min d s.waf.grantMax), asked := false }] ∧
      t.waf.regs = s.waf.regs ∧ sameSup s t ∧ sameBytes s t) ∧
  (∀ (s : State) (i : Fin 128) (h : BitVec 16) (g : Grant) (k : Nat) (c : Cmd), s.waf.lve.grants = [g] → g.site = i.val → g.handle = h.toNat →
    g.arrived = true → g.tail = false → g.owner = some k → s.waf.cmd? i.val k = some c → c.run.isSome = true → 4 * (g.expiry - s.waf.now) ≤ g.dur →
    Completes (.renewDue i h) s fun t =>
      t.waf.lve.grants = [{ g with asked := true }] ∧ t.waf.regs = s.waf.regs ∧ sameSup s t ∧ sameBytes s t) ∧
  (∀ (s : State) (i : Fin 128) (h : BitVec 16) (g : Grant), s.waf.active i.val = true → s.waf.grantOf i.val h.toNat = some g →
    Completes (.leaveReturn i h) s fun t =>
      t.waf.lve.grants = s.waf.lve.grants.filter (fun x => x ≠ g) ∧ t.waf.net = s.waf.net ∧ t.waf.regs = s.waf.regs ∧ sameSup s t ∧ sameBytes s t) ∧
  (∀ (s : State) (i : Fin 128) (h : BitVec 16), s.waf.active i.val = true → s.waf.grantOf i.val h.toNat = none →
    Completes (.leaveReturn i h) s fun t =>
      t.waf.net = s.waf.net ++ [.leaveDenial i.val 1023 8 0 s.waf.now] ∧ t.waf.lve = s.waf.lve ∧ t.waf.regs = s.waf.regs ∧ sameSup s t ∧ sameBytes s t) ∧
  (∀ (s : State) (i : Fin 128) (h : BitVec 16) (g : Grant), s.waf.lve.grants = [g] → g.site = i.val → g.handle = h.toNat → g.tail = false →
    g.expiry ≤ s.waf.now →
    Completes (.leaveExpiry i h) s fun t =>
      t.waf.lve.grants = (if s.waf.grantBusy g then [{ g with tail := true }] else []) ∧ t.waf.regs = s.waf.regs ∧ sameSup s t ∧ sameBytes s t) ∧
  (∀ (s : State) (i : Fin 128) (res e lu : Nat) (g : Grant), s.waf.net = [.leaveGrant i.val res g.handle e lu] → s.waf.lve.grants = [g] → g.site = i.val →
    s.waf.cmds = [] →
    Completes (.leaveGrant i res) s fun t =>
      t.waf.lve.grants = [{ g with arrived := true }] ∧
      t.waf.get (lveBlk i.val) F.LVE_SITE_CNT.GRANTS = (s.waf.get (lveBlk i.val) F.LVE_SITE_CNT.GRANTS + 1) % 2 ^ 32 ∧
      tabGet t.waf.lve.told (1024 * i.val + res) = none ∧ t.waf.net = [] ∧ sameSup s t ∧ sameBytes s t) ∧
  (∀ (s : State) (i : Fin 128) (res reason avail t0 : Nat), s.waf.net = [.leaveDenial i.val res reason avail t0] → res ≠ 1023 → s.waf.cmds = [] →
    Completes (.leaveDenial i res) s fun t =>
      t.waf.get (lveBlk i.val) F.LVE_SITE_EVT.DENIED = 1 ∧ tabGet t.waf.lve.told (1024 * i.val + res) = some (reason, t0 + us avail) ∧ t.waf.net = [] ∧
      t.waf.lve.grants = s.waf.lve.grants ∧ sameSup s t ∧ sameBytes s t)

/-- Envelope and heat (R481, R490, R492, R493): a new envelope that the leave in force fits latches POOL_CHANGE; leave above the pool is recalled; leave that stays above the pool for 100 µs brings EMERGENCY on every site; the pacing windows end at multiples of
10 µs; a sample in a hotter band raises the step at once, 1 ms of cool samples lowers it by one; FORCE_STEP is written, above 4 it is refused. -/
def Obligations.HeatAndEnvelope : Prop :=
  (∀ (s : State), s.waf.lve.grants = [] → s.waf.envelope ≠ s.waf.lve.env →
    Completes .envelopeChange s fun t =>
      t.waf.lve.env = s.waf.envelope ∧ t.waf.get lveWBlk F.LVE_W_EVT.POOL_CHANGE = 1 ∧ t.waf.lve.emergency = false ∧ t.waf.net = s.waf.net ∧
      sameSup s t ∧ sameBytes s t) ∧
  (∀ (s : State) (g : Grant), s.waf.lve.grants = [g] → s.waf.envelope = s.waf.lve.env → s.waf.pool < g.lu → g.cls ≠ 0 → g.tail = false →
    s.waf.lve.excess = none →
    Completes .envelopeChange s fun t =>
      t.waf.lve.grants = [{ g with tail := true, forReq := none }] ∧ t.waf.lve.excess = some s.waf.now ∧
      t.waf.net = s.waf.net ++ [.leaveRecall g.site g.handle] ∧ sameSup s t ∧ sameBytes s t) ∧
  (∀ (s : State) (t0 : Nat), s.waf.lve.excess = some t0 → s.waf.pool < s.waf.granted → us 100 ≤ s.waf.now - t0 → s.waf.lve.emergency = false →
    Completes .emergency s fun t =>
      t.waf.lve.emergency = true ∧ t.waf.get lveWBlk F.LVE_W_EVT.EMERGENCY = 1 ∧
      (∀ i ∈ s.waf.activeSites, t.waf.get (lveBlk i) F.LVE_SITE_EVT.EMERGENCY = 1 ∧ 4 ≤ t.waf.clkStep i) ∧ sameSup s t ∧ sameBytes s t) ∧
  (∀ (s : State) (i : Fin 128), s.waf.active i.val = true → s.waf.refcount i.val % 1000 = 0 →
    Completes (.pacingWindow i) s fun t =>
      Tab.look (fun _ => 0) t.waf.lve.paced i.val = s.waf.refcount i.val / 1000 ∧ t.waf.regs = s.waf.regs ∧ t.waf.cmds = s.waf.cmds ∧
      sameSup s t ∧ sameBytes s t) ∧
  (∀ (s : State) (i : Fin 128) (x : BitVec 16), s.waf.active i.val = true → s.waf.measStep i.val < thermBand x.toInt →
    s.waf.get (lveBlk i.val) F.LVE_SITE_CFG.FORCE_EN = 0 →
    Completes (.thermalSample i [x] []) s fun t =>
      t.waf.thermStep i.val = thermBand x.toInt ∧ t.waf.get (lveBlk i.val) F.LVE_SITE_SENSOR.BASE = x.toNat ∧
      t.waf.get (lveBlk i.val) F.LVE_SITE_EVT.STEP_UP = 1 ∧ sameRegsBut s t (inBlock (lveBlk i.val) 0x60) ∧ sameSup s t ∧ sameBytes s t) ∧
  (∀ (s : State) (i : Fin 128) (x : BitVec 16), s.waf.active i.val = true → 0 < s.waf.measStep i.val → x.toInt ≤ thermCool (s.waf.measStep i.val) →
    Tab.look (fun _ => 0) s.waf.lve.cool i.val = 0 →
    Completes (.thermalSample i [x] []) s fun t =>
      t.waf.measStep i.val = s.waf.measStep i.val ∧ Tab.look (fun _ => 0) t.waf.lve.cool i.val = s.waf.now + 1 ∧ sameSup s t ∧ sameBytes s t) ∧
  (∀ (s : State) (i : Fin 128) (c : Nat), 0 < s.waf.measStep i.val → Tab.look (fun _ => 0) s.waf.lve.cool i.val = c + 1 → ms 1 ≤ s.waf.now - c →
    s.waf.get (lveBlk i.val) F.LVE_SITE_CFG.FORCE_EN = 0 →
    Completes (.stepDown i) s fun t =>
      t.waf.thermStep i.val = s.waf.measStep i.val - 1 ∧ t.waf.get (lveBlk i.val) F.LVE_SITE_EVT.STEP_DOWN = 1 ∧
      sameRegsBut s t (inBlock (lveBlk i.val) 0x60) ∧ sameSup s t ∧ sameBytes s t) ∧
  (∀ (s : State) (src : Src) (i : Fin 128) (v : BitVec 64), s.waf.active i.val = true → configSrc src = true → getF v 1 3 ≤ 4 → getF v 0 1 = 1 →
    Completes (.forceStepWrite src i v) s fun t =>
      t.waf.get (lveBlk i.val) F.LVE_SITE_CFG.FORCE_STEP = getF v 1 3 ∧ t.waf.thermStep i.val = max (s.waf.measStep i.val) (getF v 1 3) ∧
      sameRegsBut s t (inBlock (lveBlk i.val) 0x60) ∧ sameSup s t ∧ sameBytes s t) ∧
  (∀ (s : State) (src : Src) (i : Fin 128) (v : BitVec 64), 4 < getF v 1 3 → Completes (.forceStepWrite src i v) s fun t => t = s)

/-! ### Associative banks (spec file 12) -/

/-- Banks (R398, R400, R411–R413, R416, R458): a whole row written to a bank is stored and no longer poisoned; a write into the rows of a running move is refused with MOVE_CONFLICT; a commit goes BUSY; applied, it writes its staged row, and without a staged row it is refused;
a block move that obeys R412 starts at its first position, a second START gives BUSY; a step moves the next entry into the hole and leaves zeroed rows (log entry 44), and with no entry left the move ends; a scrub step goes to the next row, and one that
finds an uncorrectable error poisons its row; a poisoned row of a loaded image's bank is rewritten from the image. -/
def Obligations.AssocBanks : Prop :=
  (∀ (s : State) (src : Src) (i : Fin 128) (b : Fin 64) (r : Fin 4096) (l : List Byte), s.waf.active i.val = true → s.waf.bankAllowed src i.val b.val = true →
    s.waf.moveAt i.val b.val = none → l.length = 32 →
    Completes (.ascRowWrite src i b (32 * r.val) l) s fun t =>
      t.waf.bytes (bankKey i.val b.val (32 * r.val)) 32 = l ∧ r.val ∉ t.waf.bankBad i.val b.val ∧
      sameRegsBut s t (inBlock (thumbKey i.val b.val 0) 0x800) ∧ sameSup s t ∧ sameBytesBut s t (bankKey i.val b.val (32 * r.val)) 32) ∧
  (∀ (s : State) (src : Src) (i : Fin 128) (b : Fin 64) (r : Fin 4096) (l : List Byte) (x : Move), s.waf.active i.val = true →
    s.waf.bankAllowed src i.val b.val = true → s.waf.moveAt i.val b.val = some x → (Wafer.moveRows x).1 ≤ r.val → r.val < (Wafer.moveRows x).2 → l.length = 32 →
    Completes (.ascRowWrite src i b (32 * r.val) l) s fun t =>
      t.waf.get (ascBlk i.val) F.ASC_EVT.MOVE_CONFLICT = 1 ∧ sameRegsBut s t (inBlock (ascBlk i.val) 0x20) ∧ sameSup s t ∧ sameBytes s t) ∧
  (∀ (s : State) (src : Src) (i : Fin 128) (b : Fin 64), s.waf.active i.val = true → s.waf.bankAllowed src i.val b.val = true →
    Completes (.pairCommit src i b) s fun t =>
      t.waf.get (bankBlk i.val b.val) F.ASC_PAIR_STAT.BUSY = 1 ∧ sameRegsBut s t (inBlock (bankBlk i.val b.val + 0x1030) 8) ∧ sameSup s t ∧ sameBytes s t) ∧
  (∀ (s : State) (i : Fin 128) (b : Fin 64), s.waf.active i.val = true → s.waf.get (bankBlk i.val b.val) F.ASC_PAIR_STAT.BUSY = 1 →
    s.waf.pairTargets i.val b.val = [] →
    Completes (.pairApply i b) s fun t =>
      t.waf.get (bankBlk i.val b.val) F.ASC_PAIR_STAT.BUSY = 0 ∧ t.waf.get (bankBlk i.val b.val) F.ASC_PAIR_STAT.RESULT = 3 ∧
      t.waf.get (ascBlk i.val) F.ASC_EVT.PAIR_REFUSED = 1 ∧ sameSup s t ∧ sameBytes s t) ∧
  (∀ (s : State) (i : Fin 128) (b : Fin 64) (j : Fin 8) (r : Fin 4096), s.waf.active i.val = true → s.waf.get (bankBlk i.val b.val) F.ASC_PAIR_STAT.BUSY = 1 →
    s.waf.pairTargets i.val b.val = [(j.val, r.val)] → s.waf.moveAt i.val b.val = none → s.waf.rotOf i.val b.val = none →
    Completes (.pairApply i b) s fun t =>
      t.waf.get (bankBlk i.val b.val) F.ASC_PAIR_STAT.BUSY = 0 ∧ t.waf.get (bankBlk i.val b.val) F.ASC_PAIR_STAT.RESULT = 0 ∧
      t.waf.bytes (bankKey i.val b.val (32 * r.val)) 32 =
        (List.range 4).flatMap (fun q => toLE 8 (s.waf.reg (stageRowKey i.val b.val j.val + 8 * q)).toNat) ∧
      sameSup s t ∧ sameBytesBut s t (bankKey i.val b.val (32 * r.val)) 32) ∧
  (∀ (s : State) (src : Src) (i : Fin 128) (b : Fin 64) (f l : BitVec 12) (dir : Bool) (c : BitVec 2), s.waf.active i.val = true →
    s.waf.bankAllowed src i.val b.val = true → s.waf.moveAt i.val b.val = none → s.waf.rotOf i.val b.val = none → widthUnits c.toNat ≠ 0 →
    f.toNat % widthUnits c.toNat = 0 → l.toNat % widthUnits c.toNat = 0 → f.toNat ≤ l.toNat →
    (if dir then widthUnits c.toNat ≤ f.toNat else l.toNat + 2 * widthUnits c.toNat ≤ 4096) →
    (∀ r ∈ validRows (bankCells s.waf i.val b.val) i.val b.val,
      ¬ inBlock (if dir then f.toNat - widthUnits c.toNat else l.toNat + widthUnits c.toNat) (widthUnits c.toNat) r) →
    Wafer.uniformRows (bankCells s.waf i.val b.val) i.val b.val f.toNat (l.toNat + widthUnits c.toNat) (widthUnits c.toNat) = true →
    Completes (.moveStart src i b f l dir c) s fun t =>
      t.waf.moveAt i.val b.val = some { first := f.toNat, last := l.toNat, next := if dir then f.toNat else l.toNat, width := widthUnits c.toNat, up := !dir } ∧
      t.waf.get (bankBlk i.val b.val) F.ASC_MOVE_STAT.BUSY = 1 ∧
      t.waf.get (bankBlk i.val b.val) F.ASC_MOVE_STAT.NEXT = (if dir then f.toNat else l.toNat) ∧ sameSup s t ∧ sameBytes s t) ∧
  (∀ (s : State) (src : Src) (i : Fin 128) (b : Fin 64) (f l : BitVec 12) (dir : Bool) (c : BitVec 2), s.waf.active i.val = true →
    s.waf.bankAllowed src i.val b.val = true → (s.waf.moveAt i.val b.val).isSome = true →
    Completes (.moveStart src i b f l dir c) s fun t =>
      t.waf.get (bankBlk i.val b.val) F.ASC_MOVE_STAT.RESULT = 4 ∧ t.waf.asc = s.waf.asc ∧ sameSup s t ∧ sameBytes s t) ∧
  (∀ (s : State) (i : Fin 128) (b : Fin 64) (x : Move), s.waf.active i.val = true → s.waf.moveAt i.val b.val = some x →
    (∀ p ∈ Wafer.movePositions x, ∀ r ∈ validRows (bankCells s.waf i.val b.val) i.val b.val, ¬ inBlock p x.width r) →
    Completes (.moveStep i b) s fun t =>
      t.waf.moveAt i.val b.val = none ∧ t.waf.get (bankBlk i.val b.val) F.ASC_MOVE_STAT.BUSY = 0 ∧
      t.waf.get (bankBlk i.val b.val) F.ASC_MOVE_STAT.RESULT = 0 ∧ sameSup s t ∧ sameBytes s t) ∧
  (∀ (s : State) (i : Fin 128) (b : Fin 64) (x : Move) (p r : Nat) (l : List Nat), s.waf.active i.val = true → s.waf.moveAt i.val b.val = some x →
    Wafer.movePositions x = p :: l → r ∈ validRows (bankCells s.waf i.val b.val) i.val b.val → inBlock p x.width r → (x.up = true ∨ x.width ≤ p) →
    Completes (.moveStep i b) s fun t =>
      t.waf.bytes (bankKey i.val b.val (32 * (if x.up then p + x.width else p - x.width))) (32 * x.width) =
        s.waf.bytes (bankKey i.val b.val (32 * p)) (32 * x.width) ∧
      t.waf.bytes (bankKey i.val b.val (32 * p)) (32 * x.width) = List.replicate (32 * x.width) 0 ∧
      (l = [] → t.waf.moveAt i.val b.val = none ∧ t.waf.get (bankBlk i.val b.val) F.ASC_MOVE_STAT.BUSY = 0) ∧ sameSup s t) ∧
  (∀ (s : State) (i : Fin 128) (b : Fin 64), s.waf.active i.val = true →
    Completes (.scrubStep i b .clean) s fun t =>
      Tab.look (fun _ => 0) t.waf.asc.scrub (64 * i.val + b.val) = (Tab.look (fun _ => 0) s.waf.asc.scrub (64 * i.val + b.val) + 1) % 4096 ∧
      t.waf.asc.bad = s.waf.asc.bad ∧ sameRegsBut s t (inBlock (thumbKey i.val b.val 0) 0x800) ∧ sameSup s t ∧ sameBytes s t) ∧
  (∀ (s : State) (i : Fin 128) (b : Fin 64), s.waf.active i.val = true →
    Completes (.scrubStep i b .uncorrectable) s fun t =>
      Tab.look (fun _ => 0) s.waf.asc.scrub (64 * i.val + b.val) % 4096 ∈ t.waf.bankBad i.val b.val ∧
      t.waf.get (ascBlk i.val) F.ASC_EVT.POISON = 1 ∧ sameSup s t ∧ sameBytes s t) ∧
  (∀ (s : State) (i : Fin 128) (b : Fin 64) (r k : Nat) (l : List Nat) (x : EnsImg), s.waf.active i.val = true → s.waf.bankBad i.val b.val = r :: l →
    s.waf.rotOf i.val b.val = none → s.waf.asc.ens = [(k, x)] → inBlock x.first x.sites i.val → inBlock x.bank (x.banks * x.replicas) b.val →
    s.waf.readStatus .unhal (x.image + x.page0 + (b.val - x.bank) % x.banks * 0x20000 + 32 * r) 32 = stOk →
    Completes (.poisonRewrite i b) s fun t =>
      t.waf.bytes (bankKey i.val b.val (32 * r)) 32 = s.waf.load (x.image + x.page0 + (b.val - x.bank) % x.banks * 0x20000 + 32 * r) 32 ∧
      r ∉ t.waf.bankBad i.val b.val ∧ sameSup s t ∧ sameBytesBut s t (bankKey i.val b.val (32 * r)) 32)

/-! ### General cores (spec file 13) -/

/-- RISC-V instructions of a core (R423–R426, R429, R446; Table COR-4): ADD and ADDI write the wrapped sum; BEQ goes to its target when its operands are equal; JAL writes the link and jumps; a load in M-mode writes what it has read, extended as its width says; a store in
M-mode stores the low bytes of rs2; FOLRD reads an image entry, a held rate or FOL_REFCOUNT; an AMO returns the old value; LR reads its word and reserves it; SC under the reservation stores and writes 0, without it writes 1 (the 1 is the family's, log entry 50) and stores nothing; an instruction outside the set
traps with cause 2. -/
def Obligations.CoreInstructions : Prop :=
  (∀ (s : State) (i : Fin 128) (k : Fin 96) (raw x len : Nat) (c : Core), coreRuns s i.val k.val .other raw x len c → iOp x = 0x33 → iF7 x = 0 → iF3 x = 0 →
    Completes (.coreInstruction i k) s fun t =>
      coreDone t i.val k.val c (iRd x) (c.getX (iRs1 x) + c.getX (iRs2 x)) len ∧ (t.coreAt i.val k.val).csr = c.csr ∧ onlyCore s t i.val k.val) ∧
  (∀ (s : State) (i : Fin 128) (k : Fin 96) (raw x len : Nat) (c : Core), coreRuns s i.val k.val .other raw x len c → iOp x = 0x13 → iF3 x = 0 →
    Completes (.coreInstruction i k) s fun t =>
      coreDone t i.val k.val c (iRd x) (c.getX (iRs1 x) + BitVec.signExtend 64 (BitVec.ofNat 12 (x / 2 ^ 20))) len ∧
      (t.coreAt i.val k.val).csr = c.csr ∧ onlyCore s t i.val k.val) ∧
  (∀ (s : State) (i : Fin 128) (k : Fin 96) (raw x len : Nat) (c : Core), coreRuns s i.val k.val .other raw x len c → iOp x = 0x63 → iF3 x = 0 →
    Completes (.coreInstruction i k) s fun t =>
      (t.coreAt i.val k.val).pc = (if c.getX (iRs1 x) = c.getX (iRs2 x) then c.pc + immB x else c.pc + BitVec.ofNat 64 len) ∧
      { t.coreAt i.val k.val with pc := c.pc, retired := c.retired } = c ∧ onlyCore s t i.val k.val) ∧
  (∀ (s : State) (i : Fin 128) (k : Fin 96) (raw x len : Nat) (c : Core), coreRuns s i.val k.val .other raw x len c → iOp x = 0x6F →
    Completes (.coreInstruction i k) s fun t =>
      (t.coreAt i.val k.val).pc = c.pc + immJ x ∧
      (t.coreAt i.val k.val).getX (iRd x) = (if iRd x = 0 then 0 else c.pc + BitVec.ofNat 64 len) ∧ onlyCore s t i.val k.val) ∧
  (∀ (s : State) (i : Fin 128) (k : Fin 96) (raw x len a n : Nat) (c : Core) (d : List Byte), coreRuns s i.val k.val .other raw x len c → iOp x = 0x03 →
    iF3 x ≠ 7 → n = 2 ^ (iF3 x % 4) → a = (c.getX (iRs1 x) + BitVec.signExtend 64 (BitVec.ofNat 12 (x / 2 ^ 20))).toNat → a % n = 0 → c.mmode = true →
    s.waf.cachedLine i.val a = none → s.waf.busRead s.sup .unhal a n = (stOk, d, s.waf) →
    Completes (.coreInstruction i k) s fun t =>
      coreDone t i.val k.val c (iRd x) (if iF3 x < 4 then sx (8 * n) (fromLE d) else BitVec.ofNat 64 (fromLE d)) len ∧
      (t.coreAt i.val k.val).csr = c.csr ∧ onlyCore s t i.val k.val) ∧
  (∀ (s u : State) (i : Fin 128) (k : Fin 96) (raw x len a n : Nat) (c : Core), coreRuns s i.val k.val .other raw x len c → iOp x = 0x23 → iF3 x ≤ 3 →
    n = 2 ^ iF3 x → a = (c.getX (iRs1 x) + immS x).toNat → a % n = 0 → c.mmode = true → s.waf.cachedLine i.val a = none →
    s.busWrite .unhal a (toLE n (c.getX (iRs2 x)).toNat) = (stOk, u) →
    Completes (.coreInstruction i k) s fun t =>
      coreDone t i.val k.val c 0 0 len ∧ t.waf.mem = u.waf.mem ∧ t.waf.regs = u.waf.regs ∧ t.sup = u.sup) ∧
  (∀ (s : State) (i : Fin 128) (k : Fin 96) (raw x len : Nat) (c : Core), coreRuns s i.val k.val .folEntry raw x len c →
    Completes (.folrdEntry i k) s fun t =>
      coreDone t i.val k.val c (iRd x) (s.waf.reg (imgKey i.val ((c.getX (iRs1 x)).toNat % 256))) len ∧ onlyCore s t i.val k.val) ∧
  (∀ (s : State) (i : Fin 128) (k : Fin 96) (raw x len : Nat) (c : Core), coreRuns s i.val k.val .folHeld raw x len c →
    Completes (.folrdHeld i k) s fun t =>
      coreDone t i.val k.val c (iRd x) (s.waf.reg (imgHeldKey i.val ((c.getX (iRs1 x)).toNat % 256))) len ∧ onlyCore s t i.val k.val) ∧
  (∀ (s : State) (i : Fin 128) (k : Fin 96) (raw x len : Nat) (c : Core), coreRuns s i.val k.val .folRef raw x len c →
    Completes (.folrdRefcount i k) s fun t =>
      coreDone t i.val k.val c (iRd x) (BitVec.ofNat 64 (s.waf.refcount i.val)) len ∧ onlyCore s t i.val k.val) ∧
  (∀ (s : State) (i : Fin 128) (k : Fin 96) (raw x len a n old : Nat) (c : Core) (w : Wafer), coreRuns s i.val k.val .amo raw x len c → n = 2 ^ iF3 x →
    a = (c.getX (iRs1 x)).toNat → a % n = 0 → c.mmode = true → s.waf.busAtomic .unhal a n (amoOp (ib x 31 27)) (c.getX (iRs2 x)) 0 = (stOk, old, w) →
    Completes (.amo i k) s fun t => coreDone t i.val k.val c (iRd x) (sx (8 * n) old) len ∧ t.waf.mem = w.mem ∧ t.waf.regs = w.regs ∧ sameSup s t) ∧
  (∀ (s : State) (i : Fin 128) (k : Fin 96) (raw x len a n : Nat) (c : Core) (d : List Byte), coreRuns s i.val k.val .lr raw x len c → n = 2 ^ iF3 x →
    a = (c.getX (iRs1 x)).toNat → a % n = 0 → c.mmode = true → resvPlace s.waf i.val k.val a n = true → s.waf.cachedLine i.val a = none →
    s.waf.busRead s.sup .unhal a n = (stOk, d, s.waf) →
    Completes (.lr i k) s fun t =>
      coreDone t i.val k.val c (iRd x) (sx (8 * n) (fromLE d)) len ∧ (t.coreAt i.val k.val).resv = some (a / 8 * 8 % 2 ^ 56) ∧ onlyCore s t i.val k.val) ∧
  (∀ (s u : State) (i : Fin 128) (k : Fin 96) (raw x len a n : Nat) (c : Core), coreRuns s i.val k.val .sc raw x len c → n = 2 ^ iF3 x →
    a = (c.getX (iRs1 x)).toNat → a % n = 0 → c.mmode = true → resvPlace s.waf i.val k.val a n = true → s.waf.cachedLine i.val a = none →
    c.resv = some (a / 8 * 8 % 2 ^ 56) → s.busWrite .unhal a (toLE n (c.getX (iRs2 x)).toNat) = (stOk, u) →
    Completes (.sc i k) s fun t =>
      coreDone t i.val k.val c (iRd x) 0 len ∧ (t.coreAt i.val k.val).resv = none ∧ t.waf.mem = u.waf.mem ∧ t.waf.regs = u.waf.regs) ∧
  (∀ (s : State) (i : Fin 128) (k : Fin 96) (raw x len a n : Nat) (c : Core), coreRuns s i.val k.val .sc raw x len c → n = 2 ^ iF3 x →
    a = (c.getX (iRs1 x)).toNat → a % n = 0 → c.mmode = true → resvPlace s.waf i.val k.val a n = true → c.resv ≠ some (a / 8 * 8 % 2 ^ 56) →
    Completes (.sc i k) s fun t =>
      coreDone t i.val k.val c (iRd x) 1 len ∧ (t.coreAt i.val k.val).resv = none ∧ onlyCore s t i.val k.val) ∧
  (∀ (s : State) (i : Fin 128) (k : Fin 96) (raw x len : Nat) (c : Core), coreRuns s i.val k.val .other raw x len c → iOp x = 0 → c.unit = none →
    Completes (.coreInstruction i k) s fun t =>
      (t.coreAt i.val k.val).getCsr 0x341 = c.pc ∧ (t.coreAt i.val k.val).getCsr 0x342 = 2 ∧ (t.coreAt i.val k.val).getCsr 0x343 = BitVec.ofNat 64 raw ∧
      (t.coreAt i.val k.val).mmode = true ∧ (t.coreAt i.val k.val).pc = c.getCsr 0x305 &&& ~~~3 ∧ (t.coreAt i.val k.val).x = c.x ∧
      onlyCore s t i.val k.val)

/-- The VNX instructions (R440–R443): BIN gives MISSING_BIN for a value without a place in the order, else the number of edges not above it (for a table of one edge); NSTEP gives the child that the predicate picks; QPUSH, QPOP, SYNCADD and SYNCWAIT leave as requests, and the core waits
for the answer; a bad reference traps with cause 26. -/
def Obligations.CoreVnx : Prop :=
  (∀ (s : State) (i : Fin 128) (k : Fin 96) (raw x len a fmt : Nat) (c : Core) (d : List Byte), coreRuns s i.val k.val .bin raw x len c →
    a = (c.getX (iRs2 x)).toNat → a % 8 = 0 → c.mmode = true → s.waf.cachedLine i.val a = none → s.waf.busRead s.sup .unhal a 8 = (stOk, d, s.waf) →
    1 ≤ leAt d 0 2 → leAt d 0 2 ≤ 4096 → fmt = leAt d 2 1 → (2 ≤ fmt ∧ fmt ≤ 12) → leAt d 5 3 = 0 →
    (toKey fmt false ((c.getX (iRs1 x)).toNat % 2 ^ fmtWidth fmt)).1 = 0 →
    Completes (.bin i k) s fun t => coreDone t i.val k.val c (iRd x) (BitVec.ofNat 64 (leAt d 3 2)) len ∧ onlyCore s t i.val k.val) ∧
  (∀ (s : State) (i : Fin 128) (k : Fin 96) (raw x len a fmt wb key : Nat) (c : Core) (d e : List Byte), coreRuns s i.val k.val .bin raw x len c →
    a = (c.getX (iRs2 x)).toNat → a % 8 = 0 → c.mmode = true → s.waf.cachedLine i.val a = none → s.waf.busRead s.sup .unhal a 8 = (stOk, d, s.waf) →
    leAt d 0 2 = 1 → fmt = leAt d 2 1 → (2 ≤ fmt ∧ fmt ≤ 12) → leAt d 5 3 = 0 → wb = (if fmtWidth fmt = 32 then 4 else 2) →
    key = (toKey fmt false ((c.getX (iRs1 x)).toNat % 2 ^ fmtWidth fmt)).1 → key ≠ 0 → s.waf.cachedLine i.val (a + 8) = none →
    s.waf.busRead s.sup .unhal (a + 8) wb = (stOk, e, s.waf) →
    Completes (.bin i k) s fun t =>
      coreDone t i.val k.val c (iRd x) (if fromLE e ≤ key then 1 else 0) len ∧ onlyCore s t i.val k.val) ∧
  (∀ (s : State) (i : Fin 128) (k : Fin 96) (raw x len a ka : Nat) (c : Core) (d e : List Byte), coreRuns s i.val k.val .nstep raw x len c →
    (c.getX (iRs1 x)).toNat < (c.getCsr 0x803).toNat → a = ((c.getCsr 0x802).toNat + 16 * (c.getX (iRs1 x)).toNat) % 2 ^ 64 → c.mmode = true →
    s.waf.cachedLine i.val a = none → s.waf.busRead s.sup .unhal a 16 = (stOk, d, s.waf) → leAt d 0 8 < 2 ^ 45 → nThr (leAt d 0 8) ≠ 0 →
    nThr (leAt d 0 8) < 65536 → ka = ((c.getX (iRs2 x)).toNat + 2 * nFeature (leAt d 0 8)) % 2 ^ 64 → s.waf.cachedLine i.val ka = none →
    s.waf.busRead s.sup .unhal ka 2 = (stOk, e, s.waf) →
    Completes (.nstep i k) s fun t =>
      coreDone t i.val k.val c (iRd x) (sx 32 (if nodePred (leAt d 0 8) (fromLE e) then leAt d 8 4 else leAt d 12 4)) len ∧
      (t.coreAt i.val k.val).csr = c.csr ∧ onlyCore s t i.val k.val) ∧
  (∀ (s : State) (i : Fin 128) (k : Fin 96) (raw x len id : Nat) (c : Core), coreRuns s i.val k.val .qpush raw x len c → iF7 x = 3 →
    vnxRef (c.getX (iRs1 x)) = some (id, s.waf.col.wafer) →
    Completes (.qpush i k) s fun t =>
      coreAsks s t i.val k.val x (fun q tag => .qpushOperation q tag (s.waf.coreSrc i.val c) (Fin.ofNat 128 (id / 2048)) (Fin.ofNat 2048 id)
        (toLE 8 (c.getX (iRs2 x)).toNat)) ∧ (t.coreAt i.val k.val).pc = c.pc ∧ t.waf.regs = s.waf.regs ∧ sameSup s t ∧ sameBytes s t) ∧
  (∀ (s : State) (i : Fin 128) (k : Fin 96) (raw x len id : Nat) (c : Core), coreRuns s i.val k.val .qpop raw x len c → iF7 x = 3 →
    vnxRef (c.getX (iRs1 x)) = some (id, s.waf.col.wafer) →
    Completes (.qpop i k) s fun t =>
      coreAsks s t i.val k.val x (fun q tag => .qpopOperation q tag (s.waf.coreSrc i.val c) (Fin.ofNat 128 (id / 2048)) (Fin.ofNat 2048 id) 3) ∧
      (t.coreAt i.val k.val).pc = c.pc ∧ t.waf.regs = s.waf.regs ∧ sameSup s t ∧ sameBytes s t) ∧
  (∀ (s : State) (i : Fin 128) (k : Fin 96) (raw x len id : Nat) (c : Core), coreRuns s i.val k.val .syncadd raw x len c →
    vnxRef (c.getX (iRs1 x)) = some (id, s.waf.col.wafer) →
    Completes (.syncadd i k) s fun t =>
      coreAsks s t i.val k.val x (fun q tag => .syncAdd q tag (s.waf.coreSrc i.val c) (Fin.ofNat 128 (id / 2048)) (Fin.ofNat 2048 id) (c.getX (iRs2 x))) ∧
      (t.coreAt i.val k.val).pc = c.pc ∧ t.waf.regs = s.waf.regs ∧ sameSup s t ∧ sameBytes s t) ∧
  (∀ (s : State) (i : Fin 128) (k : Fin 96) (raw x len id : Nat) (c : Core), coreRuns s i.val k.val .syncwait raw x len c →
    vnxRef (c.getX (iRs1 x)) = some (id, s.waf.col.wafer) →
    Completes (.syncwait i k) s fun t =>
      coreAsks s t i.val k.val x (fun q tag => .syncWait q tag (s.waf.coreSrc i.val c) (Fin.ofNat 128 (id / 2048)) (Fin.ofNat 2048 id) (c.getX (iRs2 x))
        (BitVec.ofNat 32 (waitUs s.waf i.val c))) ∧ (t.coreAt i.val k.val).pc = c.pc ∧ t.waf.regs = s.waf.regs ∧ sameSup s t ∧ sameBytes s t) ∧
  (∀ (s : State) (i : Fin 128) (k : Fin 96) (raw x len : Nat) (c : Core), coreRuns s i.val k.val .syncadd raw x len c →
    2 ^ 22 ≤ (c.getX (iRs1 x)).toNat → c.unit = none →
    Completes (.syncadd i k) s fun t =>
      (t.coreAt i.val k.val).getCsr 0x342 = 26 ∧ (t.coreAt i.val k.val).getCsr 0x343 = c.getX (iRs1 x) ∧ (t.coreAt i.val k.val).getCsr 0x341 = c.pc ∧
      onlyCore s t i.val k.val)

/-- LEAVEREQ (R445; log entry 60 for QUERY's first field, 256 + core as the core's resource is log entry 53): QUERY writes its word; REQUEST in M-mode that the steward grants at once writes GRANTED, the LU and the handle; in U-mode it traps as illegal and faults the command; RENEW that is granted sets the expiry anew; RETURN
gives the leave back, and of a handle that is not live it writes BAD_REQUEST. -/
def Obligations.CoreLeave : Prop :=
  (∀ (s : State) (i : Fin 128) (k : Fin 96) (raw x len : Nat) (c : Core), coreRuns s i.val k.val .lveQuery raw x len c →
    Completes (.leavereqQuery i k) s fun t =>
      coreDone t i.val k.val c (iRd x) (BitVec.ofNat 64 (min 1023 (min s.waf.siteMax (s.waf.ceiling i.val) - s.waf.charge i.val (fun _ => true) []) +
        min 1023 (s.waf.luOf (fun g => g.site == i.val && g.vol == s.waf.coreVol i.val c)) * 2 ^ 10 + s.waf.thermStep i.val * 2 ^ 20 +
        s.waf.clkStep i.val * 2 ^ 23)) len ∧ onlyCore s t i.val k.val) ∧
  (∀ (s : State) (i : Fin 128) (k : Fin 96) (raw x len : Nat) (c : Core) (v : Word) (r : LWait), coreRuns s i.val k.val .lveRequest raw x len c →
    c.mmode = true → leaveAnswer s.waf i.val (256 + k.val) = none → s.waf.lve.waits = [] → v = c.getX (iRs1 x) → getF v 10 3 < 5 →
    r = { id := s.waf.lve.next, site := i.val, res := 256 + k.val, cls := getF v 19 2, vol := getF v 13 6, lu := getF v 0 10,
          dur := (c.getX (iRs2 x)).toNat, owner := none, denied := false, held := false, hold := 0 } →
    (s.waf.leaveFails r (fun _ => false)).1 = 0 → (if s.waf.lve.win = s.waf.now / 1000 then s.waf.lve.spent else 0) + r.lu ≤ s.waf.rampLu →
    Completes (.leavereqRequest i k) s fun t =>
      coreDone t i.val k.val c (iRd x) (BitVec.ofNat 64 (2 ^ 63 + r.lu * 2 ^ 16 + (s.waf.newHandle i.val).1)) len ∧
      t.waf.lve.grants.length = s.waf.lve.grants.length + 1 ∧ t.waf.lve.waits = [] ∧ sameSup s t ∧ sameBytes s t) ∧
  (∀ (s : State) (i : Fin 128) (k : Fin 96) (raw x len : Nat) (c : Core) (d : Cmd) (g b : Nat), coreRuns s i.val k.val .lveRequest raw x len c →
    c.mmode = false → c.unit = some (d.idx, g, b) → s.waf.cmd? i.val d.idx = some d →
    Completes (.leavereqRequest i k) s fun t =>
      (t.coreAt i.val k.val).getCsr 0x342 = 2 ∧ (t.coreAt i.val k.val).getCsr 0x341 = c.pc ∧ (t.coreAt i.val k.val).mmode = true ∧
      (t.waf.cmd? i.val d.idx).any (fun z => z.run.isNone && z.aborting == some s.waf.now && z.lastFault == 0x5141) = true ∧
      t.waf.lve.waits = s.waf.lve.waits.filter (fun q => !(q.site == i.val && q.owner == some d.idx)) ∧ t.sup = s.sup ∧ sameBytes s t) ∧
  (∀ (s : State) (i : Fin 128) (k : Fin 96) (raw x len d : Nat) (c : Core) (g : Grant), coreRuns s i.val k.val .lveRenew raw x len c → c.mmode = true →
    s.waf.lve.grants = [g] → g.site = i.val → g.handle = getF (c.getX (iRs1 x)) 0 16 → g.tail = false → s.waf.now < g.expiry → s.waf.lve.waits = [] →
    s.waf.net = [] → d = (c.getX (iRs2 x)).toNat →
    (s.waf.leaveFails { id := s.waf.lve.next, site := g.site, res := g.res, cls := g.cls, vol := g.vol, lu := g.lu, dur := d, owner := g.owner,
                        denied := false, held := false, hold := 0 } (fun x => x == g)).1 = 0 →
    Completes (.leavereqRenew i k) s fun t =>
      t.waf.lve.grants =
        [{ g with expiry := s.waf.now + us (min d s.waf.grantMax), dur := us (min d s.waf.grantMax), asked := false, arrived := true }] ∧
      coreDone t i.val k.val c (iRd x) (BitVec.ofNat 64 (2 ^ 63 + g.lu % 1024 * 2 ^ 16 + g.handle)) len ∧ sameSup s t ∧ sameBytes s t) ∧
  (∀ (s : State) (i : Fin 128) (k : Fin 96) (raw x len : Nat) (c : Core) (g : Grant), coreRuns s i.val k.val .lveReturn raw x len c → c.mmode = true →
    s.waf.grantOf i.val (getF (c.getX (iRs1 x)) 0 16) = some g →
    Completes (.leavereqReturn i k) s fun t =>
      t.waf.lve.grants = s.waf.lve.grants.filter (fun y => y ≠ g) ∧ (t.coreAt i.val k.val).pc = c.pc + BitVec.ofNat 64 len ∧
      (iRd x ≠ 0 → getF ((t.coreAt i.val k.val).getX (iRd x)) 63 1 = 1 ∧
        getF ((t.coreAt i.val k.val).getX (iRd x)) 0 16 = getF (c.getX (iRs1 x)) 0 16) ∧ t.waf.regs = s.waf.regs ∧ sameSup s t ∧ sameBytes s t) ∧
  (∀ (s : State) (i : Fin 128) (k : Fin 96) (raw x len : Nat) (c : Core), coreRuns s i.val k.val .lveReturn raw x len c → c.mmode = true →
    s.waf.grantOf i.val (getF (c.getX (iRs1 x)) 0 16) = none →
    Completes (.leavereqReturn i k) s fun t => coreDone t i.val k.val c (iRd x) 8 len ∧ onlyCore s t i.val k.val)

/-- Units on cores (R429, R433, R435, R436; Table COR-4): a unit starts on a free core of its cluster in U-mode at the block's entry, with its registers as Table COR-6 gives them; ECALL with a0 = 0 ends the unit with the contents of its output slot; with another a0 it faults the command; a trap of a unit is
recorded, ends it, and its command is aborted for replay. -/
def Obligations.CoreUnits : Prop :=
  (∀ (s : State) (i : Fin 128) (k : Fin 96) (r : Fin 1024) (g : Fin 8) (c : Cmd) (y : Run) (b : Nat) (ia oa : Area) (p input : List Byte),
    s.waf.cmd? i.val r.val = some c → s.waf.active i.val = true → c.run = some y → c.readyUnit y g.val = some b → c.kindOf g.val = kCore → k.val ≠ 95 →
    k.val / 8 = Tab.look (fun _ => 0) y.clusters g.val → (s.coreAt i.val k.val).unit = none → (s.coreAt i.val k.val).draining = false →
    (s.coreAt i.val k.val).wait = none → s.waf.unitTurn c y g.val = true → y.running g.val < sgCores (c.stage g.val) → s.waf.stageCores c g.val = [] →
    y.areas = [ia, oa] → ia.stage = g.val → oa.stage = g.val → ia.out = false → oa.out = true → y.slots.all (fun z => z.stage != g.val) = true →
    s.waf.ownSram c.vol c.site (sgParam (c.stage g.val)) 128 = true → s.waf.fetch (s.waf.ctxOf c g.val) (sgParam (c.stage g.val)) 128 = .ok p →
    s.waf.unitInput c y g.val b = .ok input → blockOk s.waf (s.waf.ctxOf c g.val) p = true →
    (s.coreAt i.val k.val).code = some (bCode p, bCodeBytes p, c.vol) →
    Completes (.coreUnitStart i k r g) s fun t =>
      (t.coreAt i.val k.val).unit = some (c.idx, g.val, b) ∧ (t.coreAt i.val k.val).mmode = false ∧
      (t.coreAt i.val k.val).pc = BitVec.ofNat 64 (s.waf.localAt i.val k.val 0 + bEntry p) ∧
      (t.coreAt i.val k.val).getX 10 = BitVec.ofNat 64 (s.waf.sharedAt i.val (k.val / 8) ia.off) ∧
      (t.coreAt i.val k.val).getX 11 = BitVec.ofNat 64 (s.waf.sharedAt i.val (k.val / 8) oa.off) ∧
      (t.coreAt i.val k.val).getX 12 = BitVec.ofNat 64 (c.mbLenAt g.val b) ∧ (t.coreAt i.val k.val).getX 13 = BitVec.ofNat 64 b ∧
      (t.waf.cmd? i.val r.val).any (fun z => z.run.any (fun v => v.units == y.units ++ [{ stage := g.val, mb := b, res := 512 + k.val, start := s.waf.now }])) = true ∧
      t.sup = s.sup) ∧
  (∀ (s : State) (i : Fin 128) (k : Fin 96) (raw x len : Nat) (c : Core) (d : Cmd) (y : Run) (u : Unit_), coreRuns s i.val k.val .ecall raw x len c →
    c.mmode = false → c.unit = some (d.idx, u.stage, u.mb) → c.getX 10 = 0 → s.waf.cmds = [d] → d.site = i.val → d.st = .running → d.fused = true →
    d.rotSlot = none → d.kindOf u.stage = kCore → d.kindOf (u.stage + 1) ≠ kGather → d.run = some y → y.units = [u] → s.waf.lve.grants = [] →
    s.waf.readStatus .unhal c.outSlot (d.mbLenAt u.stage u.mb * sgOut (d.stage u.stage)) = stOk →
    Completes (.ecall i k) s fun t =>
      (t.coreAt i.val k.val).unit = none ∧ (t.coreAt i.val k.val).mmode = true ∧
      t.waf.get (clusterBlk i.val (k.val / 8)) F.COR_CL_UNITS.UNITS = (s.waf.get (clusterBlk i.val (k.val / 8)) F.COR_CL_UNITS.UNITS + 1) % 2 ^ 64 ∧
      (t.waf.cmd? i.val d.idx).any (fun z => z.run.any (fun v => v.units.isEmpty && v.slots.any (fun w => w.stage == u.stage && w.mb == u.mb &&
        w.data == s.waf.load c.outSlot (d.mbLenAt u.stage u.mb * sgOut (d.stage u.stage)) && w.addr == c.outSlot))) = true ∧ t.sup = s.sup ∧ sameBytes s t) ∧
  (∀ (s : State) (i : Fin 128) (k : Fin 96) (raw x len : Nat) (c : Core) (d : Cmd) (g b : Nat), coreRuns s i.val k.val .ecall raw x len c →
    c.mmode = false → c.unit = some (d.idx, g, b) → s.waf.cmd? i.val d.idx = some d → c.getX 10 ≠ 0 →
    Completes (.ecall i k) s fun t =>
      (t.coreAt i.val k.val).unit = none ∧
      (t.waf.cmd? i.val d.idx).any (fun z => z.run.isNone && z.aborting == some s.waf.now && z.lastFault == 0x5143 && z.noReplay) = true ∧
      t.sup = s.sup ∧ sameBytes s t) ∧
  (∀ (s : State) (i : Fin 128) (k : Fin 96) (cause : BitVec 8) (tval : BitVec 64) (d : Cmd) (g b : Nat), s.waf.active i.val = true →
    (s.coreAt i.val k.val).unit = some (d.idx, g, b) → (s.coreAt i.val k.val).mmode = false → s.waf.cmd? i.val d.idx = some d →
    cause.toNat ≤ 7 ∨ (24 ≤ cause.toNat ∧ cause.toNat ≤ 26) →
    Completes (.coreTrap i k cause tval) s fun t =>
      (t.coreAt i.val k.val).unit = none ∧ (t.coreAt i.val k.val).mmode = true ∧ (t.coreAt i.val k.val).getCsr 0x342 = BitVec.ofNat 64 cause.toNat ∧
      (t.coreAt i.val k.val).getCsr 0x341 = (s.coreAt i.val k.val).pc ∧ (t.coreAt i.val k.val).getCsr 0x343 = tval ∧
      t.waf.get (corBlk i.val) F.COR_EVT.TRAP = 1 ∧
      (t.waf.cmd? i.val d.idx).any (fun z => z.run.isNone && z.aborting == some s.waf.now && z.lastFault == 0x5141 && !z.noReplay) = true ∧ sameBytes s t)

/-! ### Ports (spec file 17) -/

/-- PCIe (R284, R526, R527, R530–R535): RESTART puts the settings written into force and takes the link down; a link that trains shows its rate and width; a link that leaves L0 latches LINK_DOWN; a VF's doorbell word moves the producer index of its ring, a word of another size is dropped and counted; a VF write inside the
volume's HBM window is stored, one outside is answered Unsupported Request; a device's write inside an inbound window is stored, outside it is answered Unsupported Request; a host completion answers its read, one without a request is late; unmasking a pending vector raises it; an FLR is recorded and resets the bound volume. -/
def Obligations.PciePorts : Prop :=
  (∀ (s : State) (src : Src) (e : Fin 16) (p : Fin 2) (v : BitVec 64), s.waf.active (128 + e.val) = true → configSrc src = true →
    s.waf.pcieCfgOk e.val p.val (v ||| 0x80) = true →
    Completes (.pcieRestart src e p v) s fun t =>
      t.waf.pcieCfg e.val p.val F.PRT_PCIE_CFG.ROLE = getF v 0 1 ∧ t.waf.pcieCfg e.val p.val F.PRT_PCIE_CFG.MAX_RATE = getF v 1 3 ∧
      t.waf.pcieCfg e.val p.val F.PRT_PCIE_CFG.VF_FIRST = getF v 8 6 ∧ t.waf.pcieCfg e.val p.val F.PRT_PCIE_CFG.VF_COUNT = getF v 14 7 ∧
      t.waf.get (pcieBlk e.val p.val) F.PRT_PCIE_STAT.LINK_UP = 0 ∧ t.waf.get (pcieBlk e.val p.val) F.PRT_PCIE_EVT.LINK_DOWN = 1 ∧
      sameRegsBut s t (inBlock (pcieBlk e.val p.val) 0x20) ∧ sameSup s t ∧ sameBytes s t) ∧
  (∀ (s : State) (v : Fin 64) (e : Fin 16) (p : Fin 2) (x : BitVec 64), Completes (.pcieRestart (.volume v) e p x) s fun t => t = s) ∧
  (∀ (s : State) (e : Fin 16) (p : Fin 2) (r : Fin 6) (n : BitVec 5) (f : Bool), s.waf.active (128 + e.val) = true →
    s.waf.pcieCfg e.val p.val F.PRT_PCIE_CFG.ROLE = 0 → (n = 1 ∨ n = 2 ∨ n = 4 ∨ n = 8 ∨ n = 16) → r.val ≤ s.waf.pcieCfg e.val p.val F.PRT_PCIE_CFG.MAX_RATE →
    (r = 5 → f = true) →
    Completes (.pcieLinkUp e p 0 r n f) s fun t =>
      t.waf.get (pcieBlk e.val p.val) F.PRT_PCIE_STAT.LINK_UP = 1 ∧ t.waf.get (pcieBlk e.val p.val) F.PRT_PCIE_STAT.RATE = r.val ∧
      t.waf.get (pcieBlk e.val p.val) F.PRT_PCIE_STAT.WIDTH = n.toNat ∧ sameRegsBut s t (fun k => k = pcieBlk e.val p.val + 8) ∧ sameSup s t ∧ sameBytes s t) ∧
  (∀ (s : State) (e : Fin 16) (p : Fin 2), s.waf.active (128 + e.val) = true → s.waf.pcieCfg e.val p.val F.PRT_PCIE_CFG.ROLE = 0 →
    s.waf.get (pcieBlk e.val p.val) F.PRT_PCIE_STAT.LINK_UP = 1 →
    Completes (.pcieLinkDown e p 0) s fun t =>
      t.waf.get (pcieBlk e.val p.val) F.PRT_PCIE_STAT.LINK_UP = 0 ∧ t.waf.get (pcieBlk e.val p.val) F.PRT_PCIE_EVT.LINK_DOWN = 1 ∧ sameSup s t ∧ sameBytes s t) ∧
  (∀ (s : State) (e : Fin 16) (p : Fin 2) (vf v : Fin 64) (i : Fin 128) (r : Fin 2048) (x : BitVec 32) (d : List Byte), s.waf.vfVol vf.val = some v.val →
    s.waf.vfHere e.val p.val vf.val = true → d = toLE 4 (i.val * 2048 + r.val) ++ toLE 4 x.toNat → dbReaches s (.vf v) i.val r.val →
    s.waf.ringOn (ringBlk i.val r.val) = true → s.waf.rKind (ringBlk i.val r.val) = 0 →
    (x.toNat + 2 ^ 32 - s.waf.rPI (ringBlk i.val r.val)) % 2 ^ 32 ≠ 0 →
    (x.toNat + 2 ^ 32 - s.waf.rPI (ringBlk i.val r.val)) % 2 ^ 32 ≤ s.waf.rSize (ringBlk i.val r.val) - s.waf.rHeld (ringBlk i.val r.val) →
    Completes (.vfDoorbell e p vf d) s fun t =>
      t.waf.rPI (ringBlk i.val r.val) = x.toNat ∧ sameRegsBut s t (fun k => k = ringBlk i.val r.val + 16) ∧ sameSup s t ∧ sameBytes s t) ∧
  (∀ (s : State) (e : Fin 16) (p : Fin 2) (vf : Fin 64) (v : Nat) (d : List Byte), s.waf.vfVol vf.val = some v → s.waf.vfHere e.val p.val vf.val = true →
    d.length ≠ 8 →
    Completes (.vfDoorbell e p vf d) s fun t =>
      t.waf.get (pcieBlk e.val p.val) F.PRT_PCIE_CNT.DB_DROPS = satInc 16 (s.waf.get (pcieBlk e.val p.val) F.PRT_PCIE_CNT.DB_DROPS) ∧
      sameRegsBut s t (fun k => k = pcieBlk e.val p.val + 16) ∧ sameSup s t ∧ sameBytes s t) ∧
  (∀ (s : State) (e : Fin 16) (p : Fin 2) (vf : Fin 64) (v o : Nat) (d : List Byte), s.waf.vfVol vf.val = some v → s.waf.vfHere e.val p.val vf.val = true →
    0 < d.length → d.length ≤ 512 → o + d.length ≤ (s.waf.hbmWin v).2 → (s.waf.hbmWin v).1 + o + d.length ≤ 0x9000000000 →
    s.waf.writeStatus (volSrc v) (s.waf.ownAddr (hbmAddr ((s.waf.hbmWin v).1 + o))) d.length = stOk →
    Completes (.vfHbmAccess e p vf o (.write d)) s fun t =>
      t.waf.bytes (hbmAddr ((s.waf.hbmWin v).1 + o)) d.length = d ∧ sameBytesBut s t (hbmAddr ((s.waf.hbmWin v).1 + o)) d.length ∧
      t.waf.regs = s.waf.regs ∧ sameSup s t) ∧
  (∀ (s : State) (e : Fin 16) (p : Fin 2) (vf : Fin 64) (v o n : Nat), s.waf.vfVol vf.val = some v → s.waf.vfHere e.val p.val vf.val = true →
    (s.waf.hbmWin v).2 < o + n →
    Completes (.vfHbmAccess e p vf o (.read n)) s fun t =>
      t.waf.get (pcieBlk e.val p.val) F.PRT_PCIE_EVT.UR_SENT = 1 ∧ sameRegsBut s t (fun k => k = pcieBlk e.val p.val + 24) ∧ sameSup s t ∧ sameBytes s t) ∧
  (∀ (s : State) (e : Fin 16) (p : Fin 2) (a v x : Nat) (d : List Byte), s.waf.active (128 + e.val) = true →
    s.waf.pcieCfg e.val p.val F.PRT_PCIE_CFG.ROLE = 1 → s.waf.get (pcieBlk e.val p.val) F.PRT_PCIE_STAT.UP ≠ 0 → d.length ≤ 512 →
    s.waf.inWindow e.val p.val a d.length = some (v, x) → s.waf.writeStatus (volSrc v) x d.length = stOk →
    Completes (.rpInbound e p a (.write d)) s fun t => t.waf.mem = (s.waf.save x d).mem ∧ t.waf.regs = s.waf.regs ∧ sameSup s t) ∧
  (∀ (s : State) (e : Fin 16) (p : Fin 2) (a : Nat) (d : List Byte), s.waf.active (128 + e.val) = true →
    s.waf.pcieCfg e.val p.val F.PRT_PCIE_CFG.ROLE = 1 → s.waf.get (pcieBlk e.val p.val) F.PRT_PCIE_STAT.UP ≠ 0 → s.waf.inWindow e.val p.val a d.length = none →
    Completes (.rpInbound e p a (.write d)) s fun t =>
      t.waf.get (pcieBlk e.val p.val) F.PRT_PCIE_EVT.UR_SENT = 1 ∧ sameRegsBut s t (fun k => k = pcieBlk e.val p.val + 24) ∧ sameSup s t ∧ sameBytes s t) ∧
  (∀ (s : State) (e : Fin 16) (p : Fin 2) (q : Requester) (tag : BitVec 12) (err : Bool) (d : List Byte) (o : Out), s.waf.net = [] → s.waf.out = [o] →
    o.who = q → o.tag = tag.toNat → o.kind = some .read → adRegion o.addr.toNat = 4 → adDie o.addr.toNat = 2 * e.val + p.val →
    Completes (.hostCompletion e p q tag err d) s fun t =>
      t.waf.net = [.rsp .read q tag.toNat (if err then stHost else stOk) (if err then [] else d)] ∧
      t.waf.get (pcieBlk e.val p.val) F.PRT_PCIE_CNT.HOST_ERRS =
        (if err then satInc 16 (s.waf.get (pcieBlk e.val p.val) F.PRT_PCIE_CNT.HOST_ERRS) else s.waf.get (pcieBlk e.val p.val) F.PRT_PCIE_CNT.HOST_ERRS) ∧
      sameSup s t ∧ sameBytes s t) ∧
  (∀ (s : State) (e : Fin 16) (p : Fin 2) (q : Requester) (tag : BitVec 12) (err : Bool) (d : List Byte), s.waf.active (128 + e.val) = true → s.waf.out = [] →
    Completes (.hostCompletion e p q tag err d) s fun t =>
      t.waf.get (pcieBlk e.val p.val) F.PRT_PCIE_CNT.LATE_CPL = satInc 16 (s.waf.get (pcieBlk e.val p.val) F.PRT_PCIE_CNT.LATE_CPL) ∧
      t.waf.net = s.waf.net ∧ sameSup s t ∧ sameBytes s t) ∧
  (∀ (s : State) (vf : Fin 64) (n : Fin 2048) (v : Nat) (q : Nat × Nat), s.waf.vfVol vf.val = some v → s.waf.vfPort vf.val = some q →
    s.waf.vfHere q.1 q.2 vf.val = true →
    Completes (.msixUnmask vf n) s fun t =>
      t.waf.prt.raised = (if (s.waf.msixAt vf.val n.val).pend then s.waf.prt.raised ++ [(vf.val, n.val)] else s.waf.prt.raised) ∧
      (t.waf.msixAt vf.val n.val).mask = false ∧ (t.waf.msixAt vf.val n.val).pend = false ∧ t.waf.regs = s.waf.regs ∧ sameSup s t ∧ sameBytes s t) ∧
  (∀ (s : State) (vf : Fin 64) (v : Nat) (q : Nat × Nat), s.waf.vfPort vf.val = some q → s.waf.vfHere q.1 q.2 vf.val = true → s.waf.vfVol vf.val = some v →
    Completes (.flr vf) s fun t => t.waf.rib32 0x41 = BitVec.ofNat 32 (2 + v * 4) ∧ t.waf.get (pcieBlk q.1 q.2) F.PRT_PCIE_EVT.FLR = 1 ∧ t.sup = s.sup) ∧
  (∀ (s : State) (vf : Fin 64) (q : Nat × Nat), s.waf.vfPort vf.val = some q → s.waf.vfHere q.1 q.2 vf.val = true → s.waf.vfVol vf.val = none →
    Completes (.flr vf) s fun t =>
      t.waf.get (pcieBlk q.1 q.2) F.PRT_PCIE_EVT.FLR = 1 ∧ sameRegsBut s t (fun k => k = pcieBlk q.1 q.2 + 24) ∧ sameSup s t ∧ sameBytes s t)

/-- Ethernet and HBM (R536–R544; Tables PRT-2, PRT-5): a frame with a bad FCS counts CHECK; a frame that a rule sends to a ring that can take it becomes its entry; one without a rule goes to Unhal; one whose ring is full under PAUSE is held and PAUSE is sent; a received PAUSE
stops the sub-port for its quanta; a held frame is written once its ring has room, and PAUSE 0 is sent; PAUSE is refreshed; RESTART puts MODE into force and drops what is held; links come up and go down; a refresh changes no contents; a temperature chooses the refresh interval;
a scrub counts what it corrects, and poisons a word that it cannot correct. -/
def Obligations.EthAndHbm : Prop :=
  (∀ (s : State) (e : Fin 16) (q : Fin 4) (f : List Byte), s.waf.subUp e.val q.val = true →
    Completes (.ethFrame e q f false) s fun t =>
      t.waf.get (ethBlk e.val) F.PRT_ETH_DROP.CHECK = satInc 16 (s.waf.get (ethBlk e.val) F.PRT_ETH_DROP.CHECK) ∧
      sameRegsBut s t (fun k => k = ethBlk e.val + 0x18) ∧ sameSup s t ∧ sameBytes s t) ∧
  (∀ (s : State) (e : Fin 16) (q : Fin 4) (l : List Byte) (f : Wafer.Frame) (k i r : Nat), s.waf.subUp e.val q.val = true → Wafer.parseFrame l = some f →
    s.waf.ruleFor e.val q.val f = some k → getF (s.waf.ruleWord e.val k 0) 2 1 = 0 → s.waf.ethHeld e.val q.val = [] →
    ruleRing s e.val k i r f.payload.length →
    Completes (.ethFrame e q l true) s fun t =>
      t.waf.rPI (ringBlk i r) = (s.waf.rPI (ringBlk i r) + 1) % 2 ^ 32 ∧ t.waf.rCI (ringBlk i r) = s.waf.rCI (ringBlk i r) ∧
      t.waf.get (ethBlk e.val) F.PRT_ETH_RX.FRAMES = (s.waf.get (ethBlk e.val) F.PRT_ETH_RX.FRAMES + 1) % 2 ^ 64 ∧ sameSup s t) ∧
  (∀ (s : State) (e : Fin 16) (q : Fin 4) (l : List Byte) (f : Wafer.Frame), s.waf.subUp e.val q.val = true → Wafer.parseFrame l = some f →
    s.waf.ruleFor e.val q.val f = none → s.waf.ethHeld e.val q.val = [] →
    Completes (.ethFrame e q l true) s fun t =>
      t.waf.prt.unhal = s.waf.prt.unhal ++ [(e.val, q.val, l)] ∧ sameRegsBut s t (fun k => k = ethBlk e.val + 0x10) ∧ sameSup s t ∧ sameBytes s t) ∧
  (∀ (s : State) (e : Fin 16) (q : Fin 4) (l : List Byte) (f : Wafer.Frame) (k i r : Nat), s.waf.subUp e.val q.val = true → Wafer.parseFrame l = some f →
    s.waf.ruleFor e.val q.val f = some k → getF (s.waf.ruleWord e.val k 0) 1 1 = 1 → getF (s.waf.ruleWord e.val k 0) 2 1 = 0 → s.waf.prt.held = [] →
    i = getF (s.waf.ruleWord e.val k 1) 0 18 / 2048 → r = getF (s.waf.ruleWord e.val k 1) 0 18 % 2048 → s.waf.active i = true →
    s.waf.ringOn (ringBlk i r) = true → s.waf.rKind (ringBlk i r) = 2 → s.waf.rVol (ringBlk i r) = getF (s.waf.ruleWord e.val k 1) 18 6 →
    f.payload.length + 16 ≤ s.waf.rEsize (ringBlk i r) → s.waf.rSize (ringBlk i r) ≤ s.waf.rHeld (ringBlk i r) →
    Completes (.ethFrame e q l true) s fun t =>
      (t.waf.ethHeld e.val q.val).map (·.payload) = [f.payload] ∧
      t.waf.prt.pauses = s.waf.prt.pauses ++ [(e.val, q.val, s.waf.get (ethBlk e.val) F.PRT_ETH_CFG.PAUSE_QUANTA)] ∧ sameSup s t ∧ sameBytes s t) ∧
  (∀ (s : State) (e : Fin 16) (q : Fin 4) (n : BitVec 16), s.waf.subUp e.val q.val = true → n ≠ 0 →
    Completes (.ethPauseFrame e q n) s fun t =>
      Tab.look (fun _ => 0) t.waf.prt.quietTo (4 * e.val + q.val) =
        s.waf.now + (n.toNat * 64 * Wafer.subPorts (s.waf.ethMode e.val) + 999) / 1000 ∧ t.waf.regs = s.waf.regs ∧ sameSup s t ∧ sameBytes s t) ∧
  (∀ (s : State) (e : Fin 16) (q : Fin 4) (h : Held) (i r : Nat), s.waf.active (128 + e.val) = true → s.waf.ethHeld e.val q.val = [h] → h.rule < 64 →
    ruleRing s e.val h.rule i r h.payload.length →
    Completes (.heldFrameWrite e q) s fun t =>
      t.waf.ethHeld e.val q.val = [] ∧ t.waf.rPI (ringBlk i r) = (s.waf.rPI (ringBlk i r) + 1) % 2 ^ 32 ∧
      t.waf.prt.pauses = s.waf.prt.pauses ++ [(e.val, q.val, 0)] ∧ sameSup s t) ∧
  (∀ (s : State) (e : Fin 16) (q : Fin 4) (t0 : Nat), s.waf.active (128 + e.val) = true → Tab.look (fun _ => 0) s.waf.prt.pausedAt (4 * e.val + q.val) = t0 + 1 →
    s.waf.ethHeld e.val q.val ≠ [] →
    s.waf.get (ethBlk e.val) F.PRT_ETH_CFG.PAUSE_QUANTA * 64 * Wafer.subPorts (s.waf.ethMode e.val) ≤ (s.waf.now - t0) * 2000 →
    Completes (.pauseRefresh e q) s fun t =>
      t.waf.prt.pauses = s.waf.prt.pauses ++ [(e.val, q.val, s.waf.get (ethBlk e.val) F.PRT_ETH_CFG.PAUSE_QUANTA)] ∧
      Tab.look (fun _ => 0) t.waf.prt.pausedAt (4 * e.val + q.val) = s.waf.now + 1 ∧ t.waf.regs = s.waf.regs ∧ sameSup s t ∧ sameBytes s t) ∧
  (∀ (s : State) (src : Src) (e : Fin 16) (v : BitVec 64), s.waf.active (128 + e.val) = true → configSrc src = true → getF v 0 2 ≠ 3 →
    Completes (.ethRestart src e v) s fun t =>
      t.waf.ethMode e.val = getF v 0 2 ∧ (∀ q < 4, t.waf.ethHeld e.val q = []) ∧ t.waf.get (ethBlk e.val) F.PRT_ETH_STAT.UP = 0 ∧
      sameRegsBut s t (inBlock (ethBlk e.val) 0x10) ∧ sameSup s t ∧ sameBytes s t) ∧
  (∀ (s : State) (e : Fin 16) (q : Fin 4), s.waf.active (128 + e.val) = true → q.val < Wafer.subPorts (s.waf.ethMode e.val) →
    Completes (.ethLinkUp e q) s fun t =>
      Nat.testBit (t.waf.get (ethBlk e.val) F.PRT_ETH_STAT.UP) q.val = true ∧ sameRegsBut s t (fun k => k = ethBlk e.val + 8) ∧ sameSup s t ∧ sameBytes s t) ∧
  (∀ (s : State) (e : Fin 16) (q : Fin 4), s.waf.active (128 + e.val) = true → Nat.testBit (s.waf.get (ethBlk e.val) F.PRT_ETH_STAT.UP) q.val = true →
    Completes (.ethLinkDown e q) s fun t =>
      Nat.testBit (t.waf.get (ethBlk e.val) F.PRT_ETH_STAT.UP) q.val = false ∧ sameRegsBut s t (fun k => k = ethBlk e.val + 8) ∧ sameSup s t ∧ sameBytes s t) ∧
  (∀ (s : State) (e : Fin 16), Completes (.hbmRefresh e) s fun t => t = s) ∧
  (∀ (s : State) (e : Fin 16) (c : BitVec 8), s.waf.active (128 + e.val) = true →
    Completes (.hbmTempSample e c) s fun t =>
      t.waf.get (hbmBlk e.val) F.PRT_HBM_STAT.TEMP = c.toNat ∧
      t.waf.get (hbmBlk e.val) F.PRT_HBM_STAT.REFRESH = (if c.toNat ≤ 85 then 0 else if c.toNat ≤ 95 then 1 else 2) ∧
      sameRegsBut s t (fun k => k = hbmBlk e.val) ∧ sameSup s t ∧ sameBytes s t) ∧
  (∀ (s : State) (e : Fin 16) (n : Nat), n < 0x120000000 → s.waf.stackUp e.val = true →
    Completes (.patrolScrub e n .corrected) s fun t =>
      t.waf.get (hbmBlk e.val) F.PRT_HBM_ECC.CORRECTED = satInc 32 (s.waf.get (hbmBlk e.val) F.PRT_HBM_ECC.CORRECTED) ∧ t.waf.poison = s.waf.poison ∧
      sameRegsBut s t (fun k => k = hbmBlk e.val + 8) ∧ sameSup s t ∧ sameBytes s t) ∧
  (∀ (s : State) (e : Fin 16) (n o : Nat), hbmKey e.val (8 * n) = some o → s.waf.stackUp e.val = true → s.waf.poisoned (hbmAddr o) 8 = false →
    Completes (.patrolScrub e n .uncorrectable) s fun t =>
      t.waf.poisoned (hbmAddr o) 8 = true ∧
      t.waf.get (hbmBlk e.val) F.PRT_HBM_ECC.UNCORRECTED = satInc 32 (s.waf.get (hbmBlk e.val) F.PRT_HBM_ECC.UNCORRECTED) ∧
      t.waf.get (hbmBlk e.val) F.PRT_HBM_REPAIR.PENDING = satInc 8 (s.waf.get (hbmBlk e.val) F.PRT_HBM_REPAIR.PENDING) ∧ sameSup s t ∧ sameBytes s t)

/-! ### Calls of Unhal (R279, R280) -/

/-- How Unhal takes a call (R271, R274, R279, R280), for every call: with its edge die out of service, or Unhal not running, it waits; a REQUEST direction that holds another message takes the OVERRUN and nothing else;
a short form whose argument does not fit 16 bits is answered BAD_ARGUMENT in short form; a configuration call of a volume without RIB_VOL_AUTH is NOT_AUTHORIZED; outside PHASE 3 and 4 a call is UNAVAILABLE.
The order of the checks is log entry 63. -/
def Obligations.CallIntake : Prop :=
  (∀ (s : State) (via : Via) (num : Nat) (args : List Nat) (cfg : Bool) (f : Nat → State → Nat × List Nat × State),
    (s.waf.active (128 + via.edge.val) = false ∨ s.waf.col.boot.running = false) → unhalCall via num args cfg s f = .next s) ∧
  (∀ (s : State) (via : Via) (num : Nat) (args : List Nat) (cfg : Bool) (f : Nat → State → Nat × List Nat × State),
    s.waf.active (128 + via.edge.val) = true → s.waf.col.boot.running = true → s.waf.chanUsed via.edge.val via.ch.val = true →
    s.waf.mbxState via.edge.val via.ch.val false ≠ 0 → (s.waf.mbxState via.edge.val via.ch.val false = 1 → s.waf.postedCall via.edge.val via.ch.val ≠ num) →
    ∃ t, unhalCall via num args cfg s f = .next t ∧ t.waf.get (dirBlk via.edge.val via.ch.val false) F.QUE_MBX_STAT.OVERRUN = 1 ∧
      t.waf.mbxState via.edge.val via.ch.val false = s.waf.mbxState via.edge.val via.ch.val false ∧
      sameRegsBut s t (fun k => k = dirBlk via.edge.val via.ch.val false) ∧ sameSup s t ∧ sameBytes s t) ∧
  (∀ (s : State) (via : Via) (num x : Nat) (cfg : Bool) (f : Nat → State → Nat × List Nat × State), num < 65536 → 65536 ≤ x →
    s.waf.active (128 + via.edge.val) = true → s.waf.col.boot.running = true → s.waf.chanUsed via.edge.val via.ch.val = true →
    s.waf.mbxForm via.edge.val via.ch.val false = true → s.waf.mbxState via.edge.val via.ch.val false = 0 → s.waf.mbxState via.edge.val via.ch.val true = 0 →
    ∃ t, unhalCall via num [x] cfg s f = .next t ∧ t.waf.mbxState via.edge.val via.ch.val false = 0 ∧ t.waf.mbxState via.edge.val via.ch.val true = 1 ∧
      t.waf.get (dirBlk via.edge.val via.ch.val true) F.QUE_MBX_WORD.WORD = num * 65536 + 3 ∧ sameSup s t ∧ sameBytes s t) ∧
  (∀ (s : State) (via : Via) (num v : Nat) (args : List Nat) (f : Nat → State → Nat × List Nat × State), num < 65536 → args ≠ [] → args.length ≤ 16 →
    callOpen s via v → s.waf.volAuth v = false →
    ∃ t, unhalCall via num args true s f = .next t ∧ callDone s t via num 1 [] (fun _ => False) ∧ sameSup s t ∧ sameBytes s t) ∧
  (∀ (s : State) (via : Via) (num : Nat) (args : List Nat) (f : Nat → State → Nat × List Nat × State), num < 65536 → args ≠ [] → args.length ≤ 16 →
    callChan s via → s.waf.col.phase ≠ 3 → s.waf.col.phase ≠ 4 →
    ∃ t, unhalCall via num args false s f = .next t ∧ callDone s t via num 5 [] (fun _ => False) ∧ sameSup s t ∧ sameBytes s t)

/-- Calls on folio, module, boot and memory (R24, R41, R68, R153, R155, R207, R230, R231): fol_bind sets a counter's source, input, window and stall time and loads position 0; an alarm is armed, its handle returned, and disarmed; mod_status copies Table MOD-2 into the
buffer; boot_update writes an image that verifies to the slot of both flashes and refuses another; commit_version raises the fused minimum and never lowers it; memory is handed out at an address the caller may use and taken back; a flush starts, and ends with its answer;
mem_copy moves the bytes and signals. The handle of an alarm is the model's choice. -/
def Obligations.CallsOfClockBootMemory : Prop :=
  (∀ (s : State) (via : Via) (v : Nat) (c src inp : BitVec 64) (win st nom : Option (BitVec 64)), callOpen s via v → s.waf.volAuth v = true → c.toNat < 256 →
    src.toNat ≤ 5 → inp.toNat ≤ 1 → 6 ≤ (win.getD 16).toNat → (win.getD 16).toNat ≤ 26 → (st.getD 0).toNat < 2 ^ 32 → s.waf.edgeUp (c.toNat / 16) = true →
    Completes (.unhalFolBind via c src inp win st nom) s fun t =>
      callDone s t via 0x0101 0 [] (inBlock (cntBlk c.toNat) 0x80) ∧ t.waf.cntSource c.toNat = src.toNat ∧
      t.waf.get (cntBlk c.toNat) F.FOL_CNT_CFG.TICK_INPUT = inp.toNat ∧
      t.waf.get (cntBlk c.toNat) F.FOL_CNT_CFG.WINDOW_LOG2 = (win.getD 16).toNat ∧
      (st.isSome = true → t.waf.get (cntBlk c.toNat) F.FOL_CNT_CFG.STALL_US = (st.getD 0).toNat) ∧
      t.waf.reg (cntBlk c.toNat + 0x28) = nom.getD 0 ∧ t.waf.cntPos c.toNat = 0 ∧ t.sup = s.sup ∧ sameBytes s t) ∧
  (∀ (s : State) (via : Via) (v i a base j : Nat) (c pos act tgt val : BitVec 64) (dir per stp : Option (BitVec 64)) (pick : Nat), callOpen s via v → v < 64 → c.toNat < 256 →
    pos.toNat < 2 ^ 48 → act.toNat ≤ 2 → tgt.toNat < 2 ^ 18 → val.toNat < 2 ^ 32 → (dir.getD 0).toNat ≤ 2 → (per.getD 0).toNat < 2 ^ 47 → (stp.getD 0).toNat < 256 →
    i = tgt.toNat / 2048 → s.waf.siteCode v i = 0 → base = (if v = 0 then 240 else 0) →
    (v ≠ 0 → ((List.range 240).filter (fun a => !s.waf.almFree i a && s.waf.get (almBlk i a) F.FOL_ALM_CFG.VOLUME == v)).length < s.waf.volField v 0 37 8) →
    Wafer.pickFree (if v = 0 then 16 else 240) (pick - base) (fun x => s.waf.almFree i (base + x)) = some j → a = base + j →
    Completes (.unhalFolAlarmArm via c pos act tgt val dir per stp pick) s fun t =>
      callDone s t via 0x0102 0 [i * 256 + a] (inBlock (almBlk i a) 0x40) ∧ t.waf.get (almBlk i a) F.FOL_ALM_CFG.ENABLE = 1 ∧
      t.waf.get (almBlk i a) F.FOL_ALM_CFG.DIR = (dir.getD 0).toNat ∧ t.waf.get (almBlk i a) F.FOL_ALM_CFG.PERIODIC = (if per.getD 0 = 0 then 0 else 1) ∧
      t.waf.get (almBlk i a) F.FOL_ALM_CFG.ACTION = act.toNat ∧ t.waf.get (almBlk i a) F.FOL_ALM_CFG.COUNTER = c.toNat ∧
      t.waf.get (almBlk i a) F.FOL_ALM_CFG.VOLUME = v ∧ t.waf.reg (almBlk i a + 8) = pos ∧ t.waf.reg (almBlk i a + 16) = per.getD 0 ∧
      (t.waf.reg (almBlk i a + 24)).toNat = tgt.toNat + (match stp with | some x => x.toNat | none => if act = 2 ∧ per.getD 0 ≠ 0 then 1 else 0) * 2 ^ 18 + val.toNat * 2 ^ 32 ∧
      t.sup = s.sup ∧ sameBytes s t) ∧
  (∀ (s : State) (via : Via) (v : Nat) (i : Fin 128) (a : Fin 256), callOpen s via v → s.waf.anySite i.val = 0 → s.waf.get (almBlk i.val a.val) F.FOL_ALM_CFG.VOLUME = v →
    Completes (.unhalFolAlarmDisarm via i a) s fun t =>
      callDone s t via 0x0103 0 [] (fun k => k = almBlk i.val a.val) ∧ t.waf.get (almBlk i.val a.val) F.FOL_ALM_CFG.ENABLE = 0 ∧ t.sup = s.sup ∧ sameBytes s t) ∧
  (∀ (s : State) (via : Via) (v : Nat) (a n : BitVec 64), callOpen s via v → 64 ≤ n.toNat → s.waf.writeStatus (volSrc v) a.toNat 64 = stOk →
    Completes (.unhalModStatus via a n) s fun t => callDone s t via 0x0201 0 [] (fun _ => False) ∧ wrote s t a.toNat s.modBytes ∧ t.sup = s.sup) ∧
  (∀ (s : State) (via : Via) (v : Nat) (k a n : BitVec 64) (img : List Byte), callOpen s via v → s.waf.volAuth v = true → k.toNat < 2 → 512 ≤ n.toNat → n.toNat ≤ 0x3000000 →
    s.waf.readStatus (volSrc v) a.toNat n.toNat = stOk → img = s.waf.load a.toNat n.toNat →
    Completes (.unhalBootUpdate via k a n) s fun t =>
      callDone s t via 0x0401 (if s.imageVerifies img then 0 else 3) [] (fun _ => False) ∧ sameBytes s t ∧
      (s.imageVerifies img = true → tabGet t.sup.flash k.toNat = some img ∧ tabGet t.sup.flash (16 + k.toNat) = some img) ∧
      (s.imageVerifies img = false → t.sup = s.sup)) ∧
  (∀ (s : State) (via : Via) (v : Nat) (n : BitVec 64), callOpen s via v → s.waf.volAuth v = true → n.toNat ≤ 63 →
    Completes (.unhalBootCommitVersion via n) s fun t =>
      callDone s t via 0x0402 0 [] (fun _ => False) ∧ t.sup.blown = some (max s.secMin n.toNat) ∧ sameBytes s t) ∧
  (∀ (s : State) (via : Via) (v a : Nat) (kind n i place : BitVec 64), callOpen s via v → kind.toNat ≤ 2 → n ≠ 0 → (kind = 0 → s.waf.siteCode v i.toNat = 0) →
    s.waf.placeFor v kind.toNat i.toNat n.toNat place.toNat = some a →
    Completes (.unhalMemAlloc via kind n i place) s fun t =>
      callDone s t via 0x0601 0 [a] (fun _ => False) ∧ t.sup = s.sup ∧ sameBytes s t ∧
      t.waf.que.allocs = s.waf.que.allocs ++ [{ vol := v, kind := if kind = 0 then 0 else 1, addr := BitVec.ofNat 64 a, bytes := n.toNat }]) ∧
  (∀ (s : State) (via : Via) (v : Nat) (a : BitVec 64) (x : Alloc), callOpen s via v → s.waf.que.allocs.find? (fun y => y.addr.toNat == a.toNat && y.kind != 2) = some x → x.vol = v →
    Completes (.unhalMemFree via a) s fun t =>
      callDone s t via 0x0602 0 [] (fun _ => False) ∧ t.sup = s.sup ∧ sameBytes s t ∧ t.waf.que.allocs.length + 1 = s.waf.que.allocs.length) ∧
  (∀ (s : State) (via : Via) (v : Nat) (i : BitVec 64), callOpen s via v → s.waf.anySite i.toNat = 0 → i.toNat < 128 → s.waf.get (memBlk i.toNat) F.MEM_STAT.FLUSH_BUSY = 0 →
    Completes (.unhalMemFlush via i) s fun t =>
      t.waf.get (memBlk i.toNat) F.MEM_STAT.FLUSH_BUSY = 1 ∧ (∀ e ∈ t.waf.coh.lines, e.1 / 2 ^ 28 ≠ i.toNat) ∧
      t.waf.que.flushes = s.waf.que.flushes ++ [(i.toNat, via.edge.val, via.ch.val)] ∧ t.waf.mbxState via.edge.val via.ch.val true = 0 ∧ sameSup s t ∧ sameBytes s t) ∧
  (∀ (s : State) (via : Via) (i : Fin 128), callChan s via → s.waf.active i.val = true → s.waf.get (memBlk i.val) F.MEM_STAT.FLUSH_BUSY = 1 →
    (∀ e ∈ s.waf.coh.wback, e.1 / 2 ^ 28 ≠ i.val) → s.waf.que.flushes = [(i.val, via.edge.val, via.ch.val)] →
    Completes (.flushDone i) s fun t =>
      callDone s t via 0x0603 0 [] (fun k => k = memBlk i.val + F.MEM_STAT.FLUSH_BUSY.off) ∧ t.waf.get (memBlk i.val) F.MEM_STAT.FLUSH_BUSY = 0 ∧ t.waf.que.flushes = [] ∧
      t.sup = s.sup ∧ sameBytes s t) ∧
  (∀ (s : State) (via : Via) (v i j m : Nat) (d a n ref x : BitVec 64) (w : Wafer), callOpen s via v → signalOpen s v ref.toNat i j x →
    (∀ k < n.toNat, s.waf.isRam (a.toNat + k) = true ∧ s.waf.isRam (d.toNat + k) = true) →
    Wafer.moveBytes s.sup (volSrc v) (volSrc v) (n.toNat + 2) s.waf a.toNat d.toNat n.toNat = (stOk, m, w) →
    Completes (.unhalMemCopy via d a n ref x) s fun t =>
      callDone s t via 0x0604 0 [] (signalRegs i j) ∧ t.waf.mem = w.mem ∧ t.waf.poison = w.poison ∧ t.waf.coh = w.coh ∧ signalled s t i j x ∧ t.sup = s.sup)

/-- Calls on rings, sync objects and volumes (R239, R240, R264, R269, R282–R290, R304, R307): ring_create gives a ring of the kind, size and entry size asked for, empty, enabled, its memory zeroed; ring_destroy clears a ring that is not in use and refuses one that is; a sync object is handed out with its
initial value and returns to the pool; volumes are created, reset and destroyed; a host window is set; vol_query copies the report into the buffer. CONS_DOORBELL of a new ring and the layout of the report are the model's (log entries 64, 65). -/
def Obligations.CallsOfRingsAndVolumes : Prop :=
  (∀ (s : State) (via : Via) (v i r : Nat) (kind site sz es mem cr : BitVec 64) (pick : Nat), callOpen s via v → v < 64 → i = site.toNat → i < 128 → s.waf.siteCode v i = 0 →
    kind.toNat ≤ 3 → sz.toNat ≤ 20 → es.toNat ≤ 16 →
    (kind = 0 → cr.toNat / 2048 = i ∧ s.waf.rKind (ringBlk i (cr.toNat % 2048)) = 1 ∧ s.waf.ringUnused i (cr.toNat % 2048) = false ∧ s.waf.rVol (ringBlk i (cr.toNat % 2048)) = v) →
    s.waf.writeStatus (volSrc v) mem.toNat (2 ^ (sz.toNat + es.toNat)) = stOk → Wafer.pickFree 2048 pick (s.waf.ringUnused i) = some r →
    ((s.waf.setReg (ringBlk i r) mem).setReg (ringBlk i r + 8)
      (BitVec.ofNat 64 (Wafer.ringWord v kind.toNat sz.toNat es.toNat (if kind = 0 then cr.toNat % 2048 else 0)))).ringFits (ringBlk i r) = true →
    s.waf.ringCount v i < (if v = 0 then 64 else s.waf.volField v 0 0 11) →
    Completes (.unhalRingCreate via kind site sz es mem cr pick) s fun t =>
      callDone s t via 0x0701 0 [i * 2048 + r] (inBlock (ringBlk i r) 0x30) ∧ t.waf.reg (ringBlk i r) = mem ∧ t.waf.rKind (ringBlk i r) = kind.toNat ∧
      t.waf.rSize (ringBlk i r) = 2 ^ sz.toNat ∧ t.waf.rEsize (ringBlk i r) = 2 ^ es.toNat ∧ t.waf.rVol (ringBlk i r) = v ∧ t.waf.ringOn (ringBlk i r) = true ∧
      (kind = 0 → t.waf.get (ringBlk i r) F.QUE_RING_CTRL.COMPL_RING = cr.toNat % 2048) ∧ t.waf.rPI (ringBlk i r) = 0 ∧ t.waf.rCI (ringBlk i r) = 0 ∧
      wrote s t mem.toNat (List.replicate (2 ^ (sz.toNat + es.toNat)) 0) ∧ t.sup = s.sup) ∧
  (∀ (s : State) (via : Via) (v i r : Nat) (id : BitVec 64), callOpen s via v → i < 128 → r < 2048 → id.toNat = i * 2048 + r → s.waf.anySite i = 0 → s.waf.ringUnused i r = false →
    s.waf.rVol (ringBlk i r) = v → s.waf.ringInUse i r = false →
    Completes (.unhalRingDestroy via id) s fun t =>
      callDone s t via 0x0702 0 [] (inBlock (ringBlk i r) 64) ∧ (∀ k, inBlock (ringBlk i r) 64 k → t.waf.reg k = regReset k) ∧ t.sup = s.sup ∧ sameBytes s t) ∧
  (∀ (s : State) (via : Via) (v i r : Nat) (id : BitVec 64), callOpen s via v → i < 128 → r < 2048 → id.toNat = i * 2048 + r → s.waf.anySite i = 0 → s.waf.ringUnused i r = false →
    s.waf.rVol (ringBlk i r) = v → s.waf.rHeld (ringBlk i r) ≠ 0 →
    Completes (.unhalRingDestroy via id) s fun t => callDone s t via 0x0702 6 [] (fun _ => False) ∧ sameSup s t ∧ sameBytes s t) ∧
  (∀ (s : State) (via : Via) (v i j : Nat) (site x : BitVec 64) (pick : Nat), callOpen s via v → v < 64 → i = site.toNat → i < 128 → s.waf.siteCode v i = 0 → x ≠ poisonVal →
    ((s.waf.syncsOf v).filter (fun y => y.1 == i && s.waf.syncLive y.1 y.2)).length < (if v = 0 then 256 else s.waf.volField v 0 11 11) →
    Wafer.pickFree 2048 pick (fun j => !s.waf.syncLive i j) = some j →
    Completes (.unhalSyncAlloc via site x pick) s fun t =>
      callDone s t via 0x0703 0 [i * 2048 + j] (signalRegs i j) ∧ t.waf.syncLive i j = true ∧ t.waf.syncVol i j = v ∧ t.waf.syncVal i j = x ∧ t.sup = s.sup ∧ sameBytes s t) ∧
  (∀ (s : State) (via : Via) (v i j : Nat) (id : BitVec 64), callOpen s via v → i < 128 → j < 2048 → id.toNat = i * 2048 + j → s.waf.anySite i = 0 → s.waf.syncLive i j = true →
    s.waf.syncVol i j = v →
    Completes (.unhalSyncFree via id) s fun t =>
      callDone s t via 0x0704 0 [] (signalRegs i j) ∧ t.waf.syncLive i j = false ∧ t.waf.syncVal i j = 0 ∧ (∀ x ∈ t.waf.que.waits, ¬(x.site = i ∧ x.obj = j)) ∧ t.sup = s.sup ∧ sameBytes s t) ∧
  (∀ (s : State) (via : Via) (c : Nat) (v pr vf : BitVec 64), callOpen s via c → s.waf.volAuth c = true → v ≠ 0 → v.toNat < 64 →
    (s.waf.createVolume v.toNat pr.toNat (if vf.toNat < 64 then some vf.toNat else none)).1 = 0 →
    Completes (.unhalVolCreate via v pr vf) s fun t =>
      callDone s t via 0x0801 0 [] (fun _ => True) ∧ t.waf.live.getLsbD v.toNat = true ∧ t.waf.rib32 0x41 = BitVec.ofNat 32 (2 + v.toNat * 4) ∧
      (t.waf.volInfo v.toNat).vf = (if vf.toNat < 64 then some vf.toNat else none) ∧ t.sup = s.sup) ∧
  (∀ (s : State) (via : Via) (c : Nat) (v pr vf : BitVec 64), callOpen s via c → s.waf.volAuth c = true → v ≠ 0 → v.toNat < 64 → s.waf.live.getLsbD v.toNat = true →
    Completes (.unhalVolCreate via v pr vf) s fun t =>
      callDone s t via 0x0801 3 [] (fun _ => False) ∧ t.waf.live = s.waf.live ∧ t.waf.rib32 0x41 = BitVec.ofNat 32 (2 + v.toNat * 4 + 2 ^ 8) ∧ sameSup s t ∧ sameBytes s t) ∧
  (∀ (s : State) (via : Via) (c : Nat) (v : BitVec 64), callOpen s via c → s.waf.volAuth c = true → v ≠ 0 → v.toNat < 64 → c ≠ v.toNat → s.waf.live.getLsbD v.toNat = true →
    Completes (.unhalVolReset via v) s fun t => callDone s t via 0x0802 0 [] (fun _ => True) ∧ t.waf.rib32 0x41 = BitVec.ofNat 32 (2 + v.toNat * 4) ∧ t.sup = s.sup) ∧
  (∀ (s : State) (via : Via) (c : Nat) (v : BitVec 64), callOpen s via c → s.waf.volAuth c = true → v ≠ 0 → v.toNat < 64 → c ≠ v.toNat → s.waf.live.getLsbD v.toNat = true →
    Completes (.unhalVolDestroy via v) s fun t =>
      callDone s t via 0x0803 0 [] (fun _ => True) ∧ t.waf.live.getLsbD v.toNat = false ∧ t.waf.rib32 0x41 = BitVec.ofNat 32 (2 + v.toNat * 4) ∧ t.sup = s.sup) ∧
  (∀ (s : State) (via : Via) (c : Nat) (v n p a l wr : BitVec 64), callOpen s via c → s.waf.volAuth c = true → v ≠ 0 → v.toNat < 64 → s.waf.liveVol v.toNat = true → n.toNat < 4 →
    p.toNat < 32 → a.toNat % 4096 = 0 → a.toNat < 2 ^ 48 → l.toNat % 4096 = 0 → l.toNat < 2 ^ 48 → wr.toNat ≤ 1 →
    Completes (.unhalVolHostwin via v n p a l wr) s fun t =>
      callDone s t via 0x0804 0 [] (inBlock (hostwinBlk v.toNat n.toNat) 0x10) ∧
      t.waf.reg (hostwinBlk v.toNat n.toNat) = BitVec.ofNat 64 (a.toNat + p.toNat * 2 ^ 48 + (if l = 0 then 0 else 2 ^ 63)) ∧
      t.waf.reg (hostwinBlk v.toNat n.toNat + 8) = BitVec.ofNat 64 (l.toNat + wr.toNat * 2 ^ 48) ∧ t.sup = s.sup ∧ sameBytes s t) ∧
  (∀ (s : State) (via : Via) (c : Nat) (v a n : BitVec 64), callOpen s via c → v.toNat < 64 → (v = 0 ∨ s.waf.liveVol v.toNat = true) → (c = 0 ∨ c = v.toNat) → 80 ≤ n.toNat →
    s.waf.writeStatus (volSrc c) a.toNat 80 = stOk →
    Completes (.unhalVolQuery via v a n) s fun t =>
      callDone s t via 0x0805 0 [] (fun _ => False) ∧ wrote s t a.toNat (s.waf.volReport v.toNat) ∧ t.sup = s.sup) ∧
  (∀ (s : State) (via : Via) (c : Nat) (v a n : BitVec 64), callOpen s via c → v.toNat < 64 → (v = 0 ∨ s.waf.liveVol v.toNat = true) → c ≠ 0 → c ≠ v.toNat →
    Completes (.unhalVolQuery via v a n) s fun t => callDone s t via 0x0805 7 [] (fun _ => False) ∧ sameSup s t ∧ sameBytes s t)

/-- Calls on engines, cores, leave, twins and ports (R366, R448, R495, R515, R527, R533, R536, R539): mat_dump, core_query and lve_status copy into the caller's buffer the accumulator view of an engine, Table COR-9, and Tables LVE-4 and LVE-5; a twin range is set, and ended; a PCIe port takes a role and split and trains
again; blocks from a shelf arrive in memory and signal; a frame rule is written; a flow is made; a datagram is sent and signals. Buffer layouts are log entry 65. -/
def Obligations.CallsOfUnitsAndPorts : Prop :=
  (∀ (s : State) (via : Via) (v : Nat) (i e a n : BitVec 64), callOpen s via v → s.waf.volAuth v = true → i.toNat < 128 → s.waf.anySite i.toNat = 0 → e.toNat < 8 → 16384 ≤ n.toNat →
    s.waf.writeStatus (volSrc v) a.toNat 16384 = stOk →
    Completes (.unhalMatDump via i e a n) s fun t =>
      callDone s t via 0x0A01 0 [] (fun _ => False) ∧ wrote s t a.toNat ((s.waf.haltEngine i.toNat e.toNat).viewBytes i.toNat e.toNat) ∧ t.sup = s.sup) ∧
  (∀ (s : State) (via : Via) (v : Nat) (i a n : BitVec 64), callOpen s via v → i.toNat < 128 → s.waf.anySite i.toNat = 0 → 312 ≤ n.toNat → s.waf.writeStatus (volSrc v) a.toNat 312 = stOk →
    Completes (.unhalCoreQuery via i a n) s fun t =>
      callDone s t via 0x0D01 0 [] (fun _ => False) ∧ wrote s t a.toNat (s.waf.regBytes i.toNat Wafer.coreRegs) ∧ t.sup = s.sup) ∧
  (∀ (s : State) (via : Via) (v : Nat) (i a n : BitVec 64), callOpen s via v → i.toNat < 128 → s.waf.anySite i.toNat = 0 → 136 ≤ n.toNat → s.waf.writeStatus (volSrc v) a.toNat 136 = stOk →
    Completes (.unhalLveStatus via i a n) s fun t =>
      callDone s t via 0x0F01 0 [] (fun _ => False) ∧ wrote s t a.toNat (s.waf.leaveBytes s.sup i.toNat) ∧ t.sup = s.sup) ∧
  (∀ (s : State) (via : Via) (v k : Nat) (i n o l : BitVec 64), callOpen s via v → i.toNat < 128 → s.waf.siteCode v i.toNat = 0 → n.toNat < 64 → k = fltBlk i.toNat + 0x20 + 0x10 * n.toNat →
    (getF (s.waf.reg k) 63 1 = 0 ∨ Wafer.within (s.waf.sramWin v) (getF (s.waf.reg k) 0 32) (getF (s.waf.reg k) 32 31) = true) → l ≠ 0 → Wafer.within (s.waf.sramWin v) o.toNat l.toNat = true →
    (s.waf.twinSet i.toNat n.toNat (BitVec.ofNat 64 (o.toNat + l.toNat * 2 ^ 32 + 2 ^ 63))).isSome = true →
    Completes (.unhalFltTwin via i n o l) s fun t =>
      callDone s t via 0x1001 0 [] (fun x => x = k) ∧ t.waf.reg k = BitVec.ofNat 64 (o.toNat + l.toNat * 2 ^ 32 + 2 ^ 63) ∧ t.sup = s.sup) ∧
  (∀ (s : State) (via : Via) (v k : Nat) (i n o : BitVec 64), callOpen s via v → i.toNat < 128 → s.waf.siteCode v i.toNat = 0 → n.toNat < 64 → k = fltBlk i.toNat + 0x20 + 0x10 * n.toNat →
    getF (s.waf.reg k) 63 1 = 0 →
    Completes (.unhalFltTwin via i n o 0) s fun t => callDone s t via 0x1001 0 [] (fun x => x = k) ∧ t.waf.reg k = 0 ∧ t.sup = s.sup ∧ sameBytes s t) ∧
  (∀ (s : State) (via : Via) (v e p : Nat) (n r q : BitVec 64), callOpen s via v → s.waf.volAuth v = true → e < 16 → p < 2 → n.toNat = 2 * e + p → r.toNat < 2 → q.toNat < 4 →
    s.waf.active (128 + e) = true → s.waf.pcieCfgOk e p (putF (putF (s.waf.reg (pcieBlk e p)) 0 1 r.toNat) 4 2 q.toNat) = true →
    Completes (.unhalPrtPcieRole via n r q) s fun t =>
      callDone s t via 0x1101 0 [] (inBlock (pcieBlk e p) 0x20) ∧ t.waf.pcieCfg e p F.PRT_PCIE_CFG.ROLE = r.toNat ∧ t.waf.pcieCfg e p F.PRT_PCIE_CFG.SPLIT = q.toNat ∧
      t.waf.get (pcieBlk e p) F.PRT_PCIE_STAT.LINK_UP = 0 ∧ t.waf.get (pcieBlk e p) F.PRT_PCIE_EVT.LINK_DOWN = 1 ∧ t.sup = s.sup ∧ sameBytes s t) ∧
  (∀ (s : State) (via : Via) (v i j : Nat) (n ns lba b d ref x : BitVec 64) (l : List Byte), callOpen s via v → n.toNat < 32 → b ≠ 0 → s.waf.active (128 + n.toNat / 2) = true →
    s.waf.pcieCfg (n.toNat / 2) (n.toNat % 2) F.PRT_PCIE_CFG.ROLE ≠ 0 → signalOpen s v ref.toNat i j x → s.waf.get (pcieBlk (n.toNat / 2) (n.toNat % 2)) F.PRT_PCIE_STAT.UP ≠ 0 →
    (l.length = 512 * b.toNat ∨ l.length = 4096 * b.toNat) → s.waf.writeStatus (volSrc v) d.toNat l.length = stOk →
    Completes (.unhalNvmeRead via n ns lba b d ref x l) s fun t =>
      callDone s t via 0x1102 0 [] (signalRegs i j) ∧ wrote s t d.toNat l ∧ signalled s t i j x ∧ t.sup = s.sup) ∧
  (∀ (s : State) (via : Via) (v i r : Nat) (n k m ring off pol : BitVec 64), callOpen s via v → v < 64 → n.toNat < 16 → k.toNat < 64 → m.toNat < 2 ^ 60 → i < 128 → r < 2048 →
    ring.toNat = i * 2048 + r → off.toNat < 4096 → pol.toNat < 2 → s.waf.active (128 + n.toNat) = true → s.waf.anySite i = 0 →
    (getF (s.waf.reg (ethRuleKey n.toNat k.toNat 0)) 0 1 = 1 → getF (s.waf.reg (ethRuleKey n.toNat k.toNat 1)) 18 6 = v) → s.waf.rKind (ringBlk i r) = 2 → s.waf.ringUnused i r = false →
    s.waf.rVol (ringBlk i r) = v → (∀ e < 16, e ≠ n.toNat → ∀ y < 64, getF (s.waf.reg (ethRuleKey e y 0)) 0 1 = 1 → getF (s.waf.reg (ethRuleKey e y 1)) 0 18 ≠ ring.toNat) →
    Completes (.unhalEthRule via n k m ring off pol) s fun t =>
      callDone s t via 0x1103 0 [] (fun x => x = ethRuleKey n.toNat k.toNat 0 ∨ x = ethRuleKey n.toNat k.toNat 1) ∧
      t.waf.reg (ethRuleKey n.toNat k.toNat 0) = putF m 1 1 pol.toNat ∧
      t.waf.reg (ethRuleKey n.toNat k.toNat 1) = BitVec.ofNat 64 (ring.toNat + v * 2 ^ 18 + off.toNat * 2 ^ 32) ∧ t.sup = s.sup ∧ sameBytes s t) ∧
  (∀ (s : State) (via : Via) (v : Nat) (n q mac : BitVec 64) (ip : List Byte) (sp dp : BitVec 64) (x : Nat), callOpen s via v → (∀ f ∈ s.waf.prt.flows, f.id ≠ x) → (∀ y < x, ∃ f ∈ s.waf.prt.flows, f.id = y) → n.toNat < 16 → q.toNat < Wafer.subPorts (s.waf.ethMode n.toNat) →
    mac.toNat < 2 ^ 48 → (ip.length = 4 ∨ ip.length = 16) → sp.toNat < 65536 → dp.toNat < 65536 → s.waf.active (128 + n.toNat) = true →
    Completes (.unhalEthFlow via n q mac ip sp dp) s fun t =>
      callDone s t via 0x1104 0 [x] (fun _ => False) ∧
      t.waf.prt.flows = s.waf.prt.flows ++ [{ id := x, vol := v, edge := n.toNat, sub := q.toNat, mac := mac.toNat, ip := ip, src := sp.toNat, dst := dp.toNat }] ∧ t.sup = s.sup ∧ sameBytes s t) ∧
  (∀ (s : State) (via : Via) (v i j : Nat) (n a l ref x : BitVec 64) (f : Flow), callOpen s via v → s.waf.prt.flows.find? (·.id == n.toNat) = some f → f.vol = v →
    l.toNat + (if f.ip.length = 4 then 46 else 66) ≤ 9216 → signalOpen s v ref.toNat i j x → s.waf.readStatus (volSrc v) a.toNat l.toNat = stOk → s.waf.subUp f.edge f.sub = true →
    Completes (.unhalEthSend via n a l ref x) s fun t =>
      callDone s t via 0x1105 0 [] (signalRegs i j) ∧ signalled s t i j x ∧ t.sup = s.sup ∧ sameBytes s t ∧
      t.waf.prt.sent = s.waf.prt.sent ++ [(f.edge, f.sub, toBE 6 f.mac ++ f.ip ++ toBE 2 f.src ++ toBE 2 f.dst ++ s.waf.load a.toNat l.toNat)])

/-- Calls on banks, rotation groups and ensemble images (R331, R394–R396, R403, R410–R412, R451, R453, R458): asc_load places entries in order, with a hole after every SPACING of them, and gives each row its metadata word; asc_group writes a search block of 64 bytes; insert places an entry where R410 says; delete
zeroes the rows; replace puts another entry of the same width; a rotation group is created on its members and removed; an image that passes the checks is loaded on its sites and one that does not is refused with its reason; an image is unloaded. What asc_load leaves past the entries is log entry 67. -/
def Obligations.CallsOfBanksAndImages : Prop :=
  (∀ (s : State) (via : Via) (v b u : Nat) (i : Fin 128) (rel a n c sp : BitVec 64), callOpen s via v → s.waf.callBank v i.val rel.toNat = .ok b → b < 64 → (u = 1 ∨ u = 2 ∨ u = 4) → c ≠ 0 →
    32 * u * c.toNat ≤ n.toNat → u * (c.toNat + (if sp = 0 then 0 else c.toNat / sp.toNat)) ≤ 4096 → s.waf.readStatus (volSrc v) a.toNat (32 * u * c.toNat) = stOk →
    Completes (.unhalAscLoad via i rel a n c (BitVec.ofNat 64 u) sp) s fun t =>
      callDone s t via 0x0C01 0 [] (fun k => ∃ g < 64, inBlock (thumbKey i.val b g) 32 k) ∧ sameBytesBut s t (bankKey i.val b 0) 0x20000 ∧ t.sup = s.sup ∧
      (∀ e < c.toNat, ∀ j < u, t.waf.bytes (bankKey i.val b (32 * (u * (e + (if sp = 0 then 0 else e / sp.toNat)) + j))) 32 =
        fit 28 (((s.waf.load a.toNat (32 * u * c.toNat)).drop (32 * (u * e + j))).take 28) ++ toLE 4 (1 + Wafer.widthCode u * 2 + j * 8))) ∧
  (∀ (s : State) (via : Via) (v : Nat) (a n f c : BitVec 64) (rk : List (BitVec 4)), callOpen s via v → c ≠ 0 → c.toNat ≤ 64 → f.toNat + c.toNat ≤ (s.waf.bankWin v).2 → a.toNat % 64 = 0 →
    rk.length = c.toNat → 64 ≤ n.toNat → s.waf.writeStatus (volSrc v) a.toNat 64 = stOk →
    Completes (.unhalAscGroup via a n f c rk) s fun t =>
      callDone s t via 0x0C02 0 [] (fun _ => False) ∧ wrote s t a.toNat (Wafer.groupBlock f.toNat c.toNat rk) ∧ t.sup = s.sup) ∧
  (∀ (s : State) (via : Via) (v b u : Nat) (i : Fin 128) (rel p : BitVec 64) (l : List Byte) (x : Wafer.Ins), callOpen s via v → s.waf.callBank v i.val rel.toNat = .ok b → b < 64 →
    (u = 1 ∨ u = 2 ∨ u = 4) → l.length = 32 * u → p.toNat % u = 0 → p.toNat ≤ 4096 → Wafer.insertAt (bankCells s.waf i.val b) i.val b u p.toNat = some x →
    Completes (.unhalAscInsert via i rel p l) s fun t =>
      callDone s t via 0x0C03 0 [x.row] (fun k => keyDie k = i.val) ∧ sameBytesBut s t (bankKey i.val b 0) 0x20000 ∧ t.sup = s.sup ∧
      (∀ j < u, t.waf.bytes (bankKey i.val b (32 * (x.row + j))) 32 = (Wafer.entryRows u l).getD j [])) ∧
  (∀ (s : State) (via : Via) (v b u : Nat) (i : Fin 128) (rel r : BitVec 64), callOpen s via v → s.waf.callBank v i.val rel.toNat = .ok b → b < 64 → r.toNat < 4096 →
    entryAt (bankCells s.waf i.val b) i.val b r.toNat = some u →
    Completes (.unhalAscDelete via i rel r) s fun t =>
      callDone s t via 0x0C04 0 [] (fun k => keyDie k = i.val) ∧ sameBytesBut s t (bankKey i.val b (32 * r.toNat)) (32 * u) ∧ t.sup = s.sup ∧
      t.waf.bytes (bankKey i.val b (32 * r.toNat)) (32 * u) = List.replicate (32 * u) 0) ∧
  (∀ (s : State) (via : Via) (v b u : Nat) (i : Fin 128) (rel r : BitVec 64) (l : List Byte), callOpen s via v → s.waf.callBank v i.val rel.toNat = .ok b → b < 64 → r.toNat < 4096 →
    entryAt (bankCells s.waf i.val b) i.val b r.toNat = some u → l.length = 32 * u →
    Completes (.unhalAscReplace via i rel r l) s fun t =>
      callDone s t via 0x0C05 0 [] (fun k => keyDie k = i.val) ∧ sameBytesBut s t (bankKey i.val b (32 * r.toNat)) (32 * u) ∧ t.sup = s.sup ∧
      (∀ j < u, t.waf.bytes (bankKey i.val b (32 * (r.toNat + j))) 32 = (Wafer.entryRows u l).getD j [])) ∧
  (∀ (s : State) (via : Via) (v : Nat) (g f m a sr st c : BitVec 64), callOpen s via v → v < 64 → g.toNat < 16 → 2 ≤ m.toNat → m.toNat ≤ 128 → f.toNat + m.toNat ≤ 128 → c ≠ 0 → c.toNat ≤ 32 →
    st.toNat % 4096 = 0 → st.toNat < 2 ^ 32 → c.toNat * 0x20000 + sr.toNat ≤ st.toNat → s.waf.sitesCode v f.toNat m.toNat = 0 → s.waf.slotTaken v g.toNat = false →
    s.waf.readStatus (volSrc v) a.toNat (m.toNat * st.toNat) = stOk →
    (s.waf.sramWin v).1 + (s.waf.sramWin v).2 ≤ 2 ^ 28 → (∀ x ∈ s.waf.spanUp v, x < 128 ∧ (s.waf.rotReserve v x g.toNat c.toNat sr.toNat st.toNat a.toNat).isSome = true) →
    Completes (.unhalRotCreate via g f m a sr st c) s fun t =>
      callDone s t via 0x0901 0 [] (fun k => keyDie k < 128) ∧ t.sup = s.sup ∧
      (∀ j < m.toNat, t.waf.get (rotBlk (f.toNat + j) g.toNat) F.CMD_ROT_CFG.VALID = 1 ∧ t.waf.get (rotBlk (f.toNat + j) g.toNat) F.CMD_ROT_CFG.VOLUME = v ∧
        t.waf.get (rotBlk (f.toNat + j) g.toNat) F.CMD_ROT_CFG.FIRST = f.toNat ∧ t.waf.get (rotBlk (f.toNat + j) g.toNat) F.CMD_ROT_CFG.MEMBERS = m.toNat ∧
        t.waf.get (rotBlk (f.toNat + j) g.toNat) F.CMD_ROT_CFG.PAGE = j)) ∧
  (∀ (s : State) (via : Via) (v : Nat) (g : BitVec 64), callOpen s via v → g.toNat < 16 → s.waf.groupSites v g.toNat ≠ [] → s.waf.groupBound v g.toNat = false →
    (∀ i ∈ s.waf.groupSites v g.toNat, s.waf.flag (ensBlk i g.toNat) F.ENS_SLOT_CFG.VALID = false) → s.waf.spanFirst v + s.waf.spanCount v ≤ 128 →
    Completes (.unhalRotDestroy via g) s fun t =>
      callDone s t via 0x0902 0 [] (fun k => keyDie k < 128) ∧ t.sup = s.sup ∧ sameBytes s t ∧ (∀ i ∈ s.waf.spanSites v, ∀ k, inBlock (rotBlk i g.toNat) 0x40 k → t.waf.reg k = regReset k)) ∧
  (∀ (s : State) (via : Via) (v : Nat) (g a f n r : BitVec 64) (h img : List Byte), callOpen s via v → v < 64 → g.toNat < 16 → s.waf.slotTaken v g.toNat = false →
    s.waf.readStatus (volSrc v) a.toNat 4096 = stOk → h = s.waf.load a.toNat 4096 → imageHeaderOk h = true → s.waf.readStatus (volSrc v) a.toNat (iBytes h) = stOk →
    img = s.waf.load a.toNat (iBytes h) → n ≠ 0 → f.toNat + n.toNat ≤ 128 → s.waf.sitesCode v f.toNat n.toNat = 0 → r ≠ 0 → r.toNat ≤ 4 → iPages h = 1 →
    s.waf.repsFit v f.toNat n.toNat (r.toNat * iBanks h) = true → (s.waf.sramWin v).1 + (s.waf.sramWin v).2 ≤ 2 ^ 28 → (∀ j < n.toNat, (s.waf.ensSite v g.toNat a.toNat h r.toNat (f.toNat + j)).isSome = true) →
    Completes (.unhalEnsLoad via g a f n r) s fun t => t.sup = s.sup ∧
      (imageReason img ≠ 0 → callDone s t via 0x0E01 3 [imageReason img] (fun _ => False) ∧ sameBytes s t) ∧
      (imageReason img = 0 → callDone s t via 0x0E01 0 [] (fun k => keyDie k < 128) ∧
        (∀ j < n.toNat, t.waf.get (ensBlk (f.toNat + j) g.toNat) F.ENS_SLOT_CFG.VALID = 1 ∧ t.waf.get (ensBlk (f.toNat + j) g.toNat) F.ENS_SLOT_CFG.VOLUME = v ∧
          t.waf.get (ensBlk (f.toNat + j) g.toNat) F.ENS_SLOT_CFG.REPLICAS = r.toNat ∧ t.waf.get (ensBlk (f.toNat + j) g.toNat) F.ENS_SLOT_CFG.ROTATED = 0))) ∧
  (∀ (s : State) (via : Via) (v : Nat) (g : BitVec 64), callOpen s via v → g.toNat < 16 → s.waf.ensSites v g.toNat ≠ [] → s.waf.groupBound v g.toNat = false →
    (∀ c ∈ s.waf.cmds, c.isOpen = true → c.vol = v → c.site ∈ s.waf.ensSites v g.toNat → s.waf.holdsRef g.toNat c = false) → s.waf.spanFirst v + s.waf.spanCount v ≤ 128 →
    Completes (.unhalEnsUnload via g) s fun t =>
      callDone s t via 0x0E02 0 [] (fun k => keyDie k < 128) ∧ t.sup = s.sup ∧ sameBytes s t ∧
      (∀ i ∈ s.waf.spanSites v, i ∈ s.waf.ensSites v g.toNat → t.waf.get (ensBlk i g.toNat) F.ENS_SLOT_CFG.VALID = 0))

/-! ### Rules stated whole -/

/-- R384: of two keys other than MISSING (code 0), MIN gives the lesser and MAX the greater as unsigned integers; MISSING never wins against a key;
two MISSING give MISSING; no case raises a flag. -/
def Obligations.MinMaxOfKeys : Prop :=
  ∀ (c a b : Nat) (ftz isMax : Bool), fmtKey c = true →
    minMax c ftz isMax a b = (if a = 0 then b else if b = 0 then a else if isMax then max a b else min a b, fNone)

/-- R126: an advance of a window adds 8 to bits 47 to 0 of its address modulo 2^48, and leaves bits 63 to 48 (region, wafer, die). -/
def Obligations.WindowAdvanceStaysInDie : Prop :=
  ∀ (w : Wafer) (n : Nat), n < 2 →
    getF ((w.winAdvance n).win n).cur 0 48 = (getF (w.win n).cur 0 48 + 8) % 2 ^ 48 ∧
    getF ((w.winAdvance n).win n).cur 48 16 = getF (w.win n).cur 48 16

/-- R363: the save slot of engine e for class c = 1, 2 or 3 lies at SRAM offset 0x0FF00000 + (3e + c − 1) × 0x4900 of its site, and its 0x4900 bytes in
volume 0's window; two slots of one site never overlap. -/
def Obligations.SaveSlotsInVolumeZero : Prop :=
  ∀ (w : Wafer) (site e c : Nat), e < 8 → 1 ≤ c → c ≤ 3 →
    saveSlot site e c = dieAddr site (0x0FF00000 + (3 * e + c - 1) * 0x4900) ∧
    Wafer.within (w.sramWin 0) (0x0FF00000 + (3 * e + c - 1) * 0x4900) 0x4900 = true ∧
    ∀ e' c', e' < 8 → 1 ≤ c' → c' ≤ 3 → (e, c) ≠ (e', c') → saveSlot site e c + 0x4900 ≤ saveSlot site e' c' ∨ saveSlot site e' c' + 0x4900 ≤ saveSlot site e c
end

