-- ==== Sys2Proof/Laws/State.lean ====
section
/-! SUPPORT. One lemma per field and update: what the shared updates leave unchanged, so that no proof unfolds a record. -/

namespace Sys2Proof.Machine

namespace State

@[simp] theorem onWafer_pending (s : State) (f : Wafer → Wafer) : (s.onWafer f).pending = s.pending := rfl
@[simp] theorem onWafer_sup (s : State) (f : Wafer → Wafer) : (s.onWafer f).sup = s.sup := rfl
@[simp] theorem onWafer_waf (s : State) (f : Wafer → Wafer) : (s.onWafer f).waf = f s.waf := rfl
@[simp] theorem onSup_pending (s : State) (f : Sup → Sup) : (s.onSup f).pending = s.pending := rfl
@[simp] theorem onSup_sup (s : State) (f : Sup → Sup) : (s.onSup f).sup = f s.sup := rfl
@[simp] theorem onSup_waf (s : State) (f : Sup → Sup) : (s.onSup f).waf = s.waf := rfl

end State

namespace Sup

@[simp] theorem setReg_running (p : Sup) (o : Nat) (v : Word) : (p.setReg o v).running = p.running := rfl
@[simp] theorem setReg_power (p : Sup) (o : Nat) (v : Word) : (p.setReg o v).power = p.power := rfl
@[simp] theorem setReg_planes (p : Sup) (o : Nat) (v : Word) : (p.setReg o v).planes = p.planes := rfl
@[simp] theorem setReg_hotSwap (p : Sup) (o : Nat) (v : Word) : (p.setReg o v).hotSwap = p.hotSwap := rfl
@[simp] theorem setReg_inReset (p : Sup) (o : Nat) (v : Word) : (p.setReg o v).inReset = p.inReset := rfl
@[simp] theorem setReg_clock (p : Sup) (o : Nat) (v : Word) : (p.setReg o v).clock = p.clock := rfl
@[simp] theorem setReg_refSince (p : Sup) (o : Nat) (v : Word) : (p.setReg o v).refSince = p.refSince := rfl
@[simp] theorem setReg_coolCap (p : Sup) (o : Nat) (v : Word) : (p.setReg o v).coolCap = p.coolCap := rfl
@[simp] theorem setReg_entryCap (p : Sup) (o : Nat) (v : Word) : (p.setReg o v).entryCap = p.entryCap := rfl
@[simp] theorem setReg_capClear (p : Sup) (o : Nat) (v : Word) : (p.setReg o v).capClear = p.capClear := rfl
@[simp] theorem setReg_hotSince (p : Sup) (o : Nat) (v : Word) : (p.setReg o v).hotSince = p.hotSince := rfl
@[simp] theorem setReg_slowSince (p : Sup) (o : Nat) (v : Word) : (p.setReg o v).slowSince = p.slowSince := rfl
@[simp] theorem setReg_wetSince (p : Sup) (o : Nat) (v : Word) : (p.setReg o v).wetSince = p.wetSince := rfl
@[simp] theorem setReg_fences (p : Sup) (o : Nat) (v : Word) : (p.setReg o v).fences = p.fences := rfl
@[simp] theorem setReg_waferNum (p : Sup) (o : Nat) (v : Word) : (p.setReg o v).waferNum = p.waferNum := rfl
@[simp] theorem setReg_nextSlot (p : Sup) (o : Nat) (v : Word) : (p.setReg o v).nextSlot = p.nextSlot := rfl
@[simp] theorem setReg_lastReset (p : Sup) (o : Nat) (v : Word) : (p.setReg o v).lastReset = p.lastReset := rfl
@[simp] theorem setReg_flash (p : Sup) (o : Nat) (v : Word) : (p.setReg o v).flash = p.flash := rfl
@[simp] theorem setReg_blown (p : Sup) (o : Nat) (v : Word) : (p.setReg o v).blown = p.blown := rfl
@[simp] theorem setReg_edgeTemp (p : Sup) (o : Nat) (v : Word) : (p.setReg o v).edgeTemp = p.edgeTemp := rfl
@[simp] theorem setReg_resetDue (p : Sup) (o : Nat) (v : Word) : (p.setReg o v).resetDue = p.resetDue := rfl
@[simp] theorem set_running (p : Sup) (f : Fld) (x : Nat) : (p.set f x).running = p.running := rfl
@[simp] theorem set_power (p : Sup) (f : Fld) (x : Nat) : (p.set f x).power = p.power := rfl
@[simp] theorem set_planes (p : Sup) (f : Fld) (x : Nat) : (p.set f x).planes = p.planes := rfl
@[simp] theorem set_hotSwap (p : Sup) (f : Fld) (x : Nat) : (p.set f x).hotSwap = p.hotSwap := rfl
@[simp] theorem set_inReset (p : Sup) (f : Fld) (x : Nat) : (p.set f x).inReset = p.inReset := rfl
@[simp] theorem set_clock (p : Sup) (f : Fld) (x : Nat) : (p.set f x).clock = p.clock := rfl
@[simp] theorem set_refSince (p : Sup) (f : Fld) (x : Nat) : (p.set f x).refSince = p.refSince := rfl
@[simp] theorem set_coolCap (p : Sup) (f : Fld) (x : Nat) : (p.set f x).coolCap = p.coolCap := rfl
@[simp] theorem set_entryCap (p : Sup) (f : Fld) (x : Nat) : (p.set f x).entryCap = p.entryCap := rfl
@[simp] theorem set_capClear (p : Sup) (f : Fld) (x : Nat) : (p.set f x).capClear = p.capClear := rfl
@[simp] theorem set_hotSince (p : Sup) (f : Fld) (x : Nat) : (p.set f x).hotSince = p.hotSince := rfl
@[simp] theorem set_slowSince (p : Sup) (f : Fld) (x : Nat) : (p.set f x).slowSince = p.slowSince := rfl
@[simp] theorem set_wetSince (p : Sup) (f : Fld) (x : Nat) : (p.set f x).wetSince = p.wetSince := rfl
@[simp] theorem set_fences (p : Sup) (f : Fld) (x : Nat) : (p.set f x).fences = p.fences := rfl
@[simp] theorem set_waferNum (p : Sup) (f : Fld) (x : Nat) : (p.set f x).waferNum = p.waferNum := rfl
@[simp] theorem set_nextSlot (p : Sup) (f : Fld) (x : Nat) : (p.set f x).nextSlot = p.nextSlot := rfl
@[simp] theorem set_lastReset (p : Sup) (f : Fld) (x : Nat) : (p.set f x).lastReset = p.lastReset := rfl
@[simp] theorem set_flash (p : Sup) (f : Fld) (x : Nat) : (p.set f x).flash = p.flash := rfl
@[simp] theorem set_blown (p : Sup) (f : Fld) (x : Nat) : (p.set f x).blown = p.blown := rfl
@[simp] theorem set_edgeTemp (p : Sup) (f : Fld) (x : Nat) : (p.set f x).edgeTemp = p.edgeTemp := rfl
@[simp] theorem set_resetDue (p : Sup) (f : Fld) (x : Nat) : (p.set f x).resetDue = p.resetDue := rfl

end Sup

namespace Wafer

@[simp] theorem setReg_now (w : Wafer) (k : Nat) (v : Word) : (w.setReg k v).now = w.now := rfl
@[simp] theorem setReg_free (w : Wafer) (k : Nat) (v : Word) : (w.setReg k v).free = w.free := rfl
@[simp] theorem setReg_mem (w : Wafer) (k : Nat) (v : Word) : (w.setReg k v).mem = w.mem := rfl
@[simp] theorem setReg_poison (w : Wafer) (k : Nat) (v : Word) : (w.setReg k v).poison = w.poison := rfl
@[simp] theorem setReg_rib (w : Wafer) (k : Nat) (v : Word) : (w.setReg k v).rib = w.rib := rfl
@[simp] theorem setReg_col (w : Wafer) (k : Nat) (v : Word) : (w.setReg k v).col = w.col := rfl
@[simp] theorem setReg_fol (w : Wafer) (k : Nat) (v : Word) : (w.setReg k v).fol = w.fol := rfl
@[simp] theorem setReg_net (w : Wafer) (k : Nat) (v : Word) : (w.setReg k v).net = w.net := rfl
@[simp] theorem setReg_out (w : Wafer) (k : Nat) (v : Word) : (w.setReg k v).out = w.out := rfl
@[simp] theorem setReg_link (w : Wafer) (k : Nat) (v : Word) : (w.setReg k v).link = w.link := rfl
@[simp] theorem setReg_coh (w : Wafer) (k : Nat) (v : Word) : (w.setReg k v).coh = w.coh := rfl
@[simp] theorem setReg_que (w : Wafer) (k : Nat) (v : Word) : (w.setReg k v).que = w.que := rfl
@[simp] theorem setReg_cmds (w : Wafer) (k : Nat) (v : Word) : (w.setReg k v).cmds = w.cmds := rfl
@[simp] theorem setReg_order (w : Wafer) (k : Nat) (v : Word) : (w.setReg k v).order = w.order := rfl
@[simp] theorem setReg_log (w : Wafer) (k : Nat) (v : Word) : (w.setReg k v).log = w.log := rfl
@[simp] theorem setReg_capKw (w : Wafer) (k : Nat) (v : Word) : (w.setReg k v).capKw = w.capKw := rfl
@[simp] theorem setReg_live (w : Wafer) (k : Nat) (v : Word) : (w.setReg k v).live = w.live := rfl
@[simp] theorem setReg_vol (w : Wafer) (k : Nat) (v : Word) : (w.setReg k v).vol = w.vol := rfl
@[simp] theorem setReg_prt (w : Wafer) (k : Nat) (v : Word) : (w.setReg k v).prt = w.prt := rfl
@[simp] theorem setReg_eng (w : Wafer) (k : Nat) (v : Word) : (w.setReg k v).eng = w.eng := rfl
@[simp] theorem setReg_asc (w : Wafer) (k : Nat) (v : Word) : (w.setReg k v).asc = w.asc := rfl
@[simp] theorem setReg_lve (w : Wafer) (k : Nat) (v : Word) : (w.setReg k v).lve = w.lve := rfl
@[simp] theorem setReg_gat (w : Wafer) (k : Nat) (v : Word) : (w.setReg k v).gat = w.gat := rfl
@[simp] theorem setReg_rot (w : Wafer) (k : Nat) (v : Word) : (w.setReg k v).rot = w.rot := rfl
@[simp] theorem setReg_core (w : Wafer) (k : Nat) (v : Word) : (w.setReg k v).core = w.core := rfl
@[simp] theorem set_now (w : Wafer) (b : Nat) (f : Fld) (x : Nat) : (w.set b f x).now = w.now := rfl
@[simp] theorem set_free (w : Wafer) (b : Nat) (f : Fld) (x : Nat) : (w.set b f x).free = w.free := rfl
@[simp] theorem set_mem (w : Wafer) (b : Nat) (f : Fld) (x : Nat) : (w.set b f x).mem = w.mem := rfl
@[simp] theorem set_poison (w : Wafer) (b : Nat) (f : Fld) (x : Nat) : (w.set b f x).poison = w.poison := rfl
@[simp] theorem set_rib (w : Wafer) (b : Nat) (f : Fld) (x : Nat) : (w.set b f x).rib = w.rib := rfl
@[simp] theorem set_col (w : Wafer) (b : Nat) (f : Fld) (x : Nat) : (w.set b f x).col = w.col := rfl
@[simp] theorem set_fol (w : Wafer) (b : Nat) (f : Fld) (x : Nat) : (w.set b f x).fol = w.fol := rfl
@[simp] theorem set_net (w : Wafer) (b : Nat) (f : Fld) (x : Nat) : (w.set b f x).net = w.net := rfl
@[simp] theorem set_out (w : Wafer) (b : Nat) (f : Fld) (x : Nat) : (w.set b f x).out = w.out := rfl
@[simp] theorem set_link (w : Wafer) (b : Nat) (f : Fld) (x : Nat) : (w.set b f x).link = w.link := rfl
@[simp] theorem set_coh (w : Wafer) (b : Nat) (f : Fld) (x : Nat) : (w.set b f x).coh = w.coh := rfl
@[simp] theorem set_que (w : Wafer) (b : Nat) (f : Fld) (x : Nat) : (w.set b f x).que = w.que := rfl
@[simp] theorem set_cmds (w : Wafer) (b : Nat) (f : Fld) (x : Nat) : (w.set b f x).cmds = w.cmds := rfl
@[simp] theorem set_order (w : Wafer) (b : Nat) (f : Fld) (x : Nat) : (w.set b f x).order = w.order := rfl
@[simp] theorem set_log (w : Wafer) (b : Nat) (f : Fld) (x : Nat) : (w.set b f x).log = w.log := rfl
@[simp] theorem set_capKw (w : Wafer) (b : Nat) (f : Fld) (x : Nat) : (w.set b f x).capKw = w.capKw := rfl
@[simp] theorem set_live (w : Wafer) (b : Nat) (f : Fld) (x : Nat) : (w.set b f x).live = w.live := rfl
@[simp] theorem set_vol (w : Wafer) (b : Nat) (f : Fld) (x : Nat) : (w.set b f x).vol = w.vol := rfl
@[simp] theorem set_prt (w : Wafer) (b : Nat) (f : Fld) (x : Nat) : (w.set b f x).prt = w.prt := rfl
@[simp] theorem set_eng (w : Wafer) (b : Nat) (f : Fld) (x : Nat) : (w.set b f x).eng = w.eng := rfl
@[simp] theorem set_asc (w : Wafer) (b : Nat) (f : Fld) (x : Nat) : (w.set b f x).asc = w.asc := rfl
@[simp] theorem set_lve (w : Wafer) (b : Nat) (f : Fld) (x : Nat) : (w.set b f x).lve = w.lve := rfl
@[simp] theorem set_gat (w : Wafer) (b : Nat) (f : Fld) (x : Nat) : (w.set b f x).gat = w.gat := rfl
@[simp] theorem set_rot (w : Wafer) (b : Nat) (f : Fld) (x : Nat) : (w.set b f x).rot = w.rot := rfl
@[simp] theorem set_core (w : Wafer) (b : Nat) (f : Fld) (x : Nat) : (w.set b f x).core = w.core := rfl
@[simp] theorem bump_now (w : Wafer) (b : Nat) (f : Fld) : (w.bump b f).now = w.now := rfl
@[simp] theorem bump_free (w : Wafer) (b : Nat) (f : Fld) : (w.bump b f).free = w.free := rfl
@[simp] theorem bump_mem (w : Wafer) (b : Nat) (f : Fld) : (w.bump b f).mem = w.mem := rfl
@[simp] theorem bump_poison (w : Wafer) (b : Nat) (f : Fld) : (w.bump b f).poison = w.poison := rfl
@[simp] theorem bump_rib (w : Wafer) (b : Nat) (f : Fld) : (w.bump b f).rib = w.rib := rfl
@[simp] theorem bump_col (w : Wafer) (b : Nat) (f : Fld) : (w.bump b f).col = w.col := rfl
@[simp] theorem bump_fol (w : Wafer) (b : Nat) (f : Fld) : (w.bump b f).fol = w.fol := rfl
@[simp] theorem bump_net (w : Wafer) (b : Nat) (f : Fld) : (w.bump b f).net = w.net := rfl
@[simp] theorem bump_out (w : Wafer) (b : Nat) (f : Fld) : (w.bump b f).out = w.out := rfl
@[simp] theorem bump_link (w : Wafer) (b : Nat) (f : Fld) : (w.bump b f).link = w.link := rfl
@[simp] theorem bump_coh (w : Wafer) (b : Nat) (f : Fld) : (w.bump b f).coh = w.coh := rfl
@[simp] theorem bump_que (w : Wafer) (b : Nat) (f : Fld) : (w.bump b f).que = w.que := rfl
@[simp] theorem bump_cmds (w : Wafer) (b : Nat) (f : Fld) : (w.bump b f).cmds = w.cmds := rfl
@[simp] theorem bump_order (w : Wafer) (b : Nat) (f : Fld) : (w.bump b f).order = w.order := rfl
@[simp] theorem bump_log (w : Wafer) (b : Nat) (f : Fld) : (w.bump b f).log = w.log := rfl
@[simp] theorem bump_capKw (w : Wafer) (b : Nat) (f : Fld) : (w.bump b f).capKw = w.capKw := rfl
@[simp] theorem bump_live (w : Wafer) (b : Nat) (f : Fld) : (w.bump b f).live = w.live := rfl
@[simp] theorem bump_vol (w : Wafer) (b : Nat) (f : Fld) : (w.bump b f).vol = w.vol := rfl
@[simp] theorem bump_prt (w : Wafer) (b : Nat) (f : Fld) : (w.bump b f).prt = w.prt := rfl
@[simp] theorem bump_eng (w : Wafer) (b : Nat) (f : Fld) : (w.bump b f).eng = w.eng := rfl
@[simp] theorem bump_asc (w : Wafer) (b : Nat) (f : Fld) : (w.bump b f).asc = w.asc := rfl
@[simp] theorem bump_lve (w : Wafer) (b : Nat) (f : Fld) : (w.bump b f).lve = w.lve := rfl
@[simp] theorem bump_gat (w : Wafer) (b : Nat) (f : Fld) : (w.bump b f).gat = w.gat := rfl
@[simp] theorem bump_rot (w : Wafer) (b : Nat) (f : Fld) : (w.bump b f).rot = w.rot := rfl
@[simp] theorem bump_core (w : Wafer) (b : Nat) (f : Fld) : (w.bump b f).core = w.core := rfl
@[simp] theorem bumpBy_now (w : Wafer) (b : Nat) (f : Fld) (n : Nat) : (w.bumpBy b f n).now = w.now := rfl
@[simp] theorem bumpBy_free (w : Wafer) (b : Nat) (f : Fld) (n : Nat) : (w.bumpBy b f n).free = w.free := rfl
@[simp] theorem bumpBy_mem (w : Wafer) (b : Nat) (f : Fld) (n : Nat) : (w.bumpBy b f n).mem = w.mem := rfl
@[simp] theorem bumpBy_poison (w : Wafer) (b : Nat) (f : Fld) (n : Nat) : (w.bumpBy b f n).poison = w.poison := rfl
@[simp] theorem bumpBy_rib (w : Wafer) (b : Nat) (f : Fld) (n : Nat) : (w.bumpBy b f n).rib = w.rib := rfl
@[simp] theorem bumpBy_col (w : Wafer) (b : Nat) (f : Fld) (n : Nat) : (w.bumpBy b f n).col = w.col := rfl
@[simp] theorem bumpBy_fol (w : Wafer) (b : Nat) (f : Fld) (n : Nat) : (w.bumpBy b f n).fol = w.fol := rfl
@[simp] theorem bumpBy_net (w : Wafer) (b : Nat) (f : Fld) (n : Nat) : (w.bumpBy b f n).net = w.net := rfl
@[simp] theorem bumpBy_out (w : Wafer) (b : Nat) (f : Fld) (n : Nat) : (w.bumpBy b f n).out = w.out := rfl
@[simp] theorem bumpBy_link (w : Wafer) (b : Nat) (f : Fld) (n : Nat) : (w.bumpBy b f n).link = w.link := rfl
@[simp] theorem bumpBy_coh (w : Wafer) (b : Nat) (f : Fld) (n : Nat) : (w.bumpBy b f n).coh = w.coh := rfl
@[simp] theorem bumpBy_que (w : Wafer) (b : Nat) (f : Fld) (n : Nat) : (w.bumpBy b f n).que = w.que := rfl
@[simp] theorem bumpBy_cmds (w : Wafer) (b : Nat) (f : Fld) (n : Nat) : (w.bumpBy b f n).cmds = w.cmds := rfl
@[simp] theorem bumpBy_order (w : Wafer) (b : Nat) (f : Fld) (n : Nat) : (w.bumpBy b f n).order = w.order := rfl
@[simp] theorem bumpBy_log (w : Wafer) (b : Nat) (f : Fld) (n : Nat) : (w.bumpBy b f n).log = w.log := rfl
@[simp] theorem bumpBy_capKw (w : Wafer) (b : Nat) (f : Fld) (n : Nat) : (w.bumpBy b f n).capKw = w.capKw := rfl
@[simp] theorem bumpBy_live (w : Wafer) (b : Nat) (f : Fld) (n : Nat) : (w.bumpBy b f n).live = w.live := rfl
@[simp] theorem bumpBy_vol (w : Wafer) (b : Nat) (f : Fld) (n : Nat) : (w.bumpBy b f n).vol = w.vol := rfl
@[simp] theorem bumpBy_prt (w : Wafer) (b : Nat) (f : Fld) (n : Nat) : (w.bumpBy b f n).prt = w.prt := rfl
@[simp] theorem bumpBy_eng (w : Wafer) (b : Nat) (f : Fld) (n : Nat) : (w.bumpBy b f n).eng = w.eng := rfl
@[simp] theorem bumpBy_asc (w : Wafer) (b : Nat) (f : Fld) (n : Nat) : (w.bumpBy b f n).asc = w.asc := rfl
@[simp] theorem bumpBy_lve (w : Wafer) (b : Nat) (f : Fld) (n : Nat) : (w.bumpBy b f n).lve = w.lve := rfl
@[simp] theorem bumpBy_gat (w : Wafer) (b : Nat) (f : Fld) (n : Nat) : (w.bumpBy b f n).gat = w.gat := rfl
@[simp] theorem bumpBy_rot (w : Wafer) (b : Nat) (f : Fld) (n : Nat) : (w.bumpBy b f n).rot = w.rot := rfl
@[simp] theorem bumpBy_core (w : Wafer) (b : Nat) (f : Fld) (n : Nat) : (w.bumpBy b f n).core = w.core := rfl
@[simp] theorem count_now (w : Wafer) (b : Nat) (f : Fld) : (w.count b f).now = w.now := rfl
@[simp] theorem count_free (w : Wafer) (b : Nat) (f : Fld) : (w.count b f).free = w.free := rfl
@[simp] theorem count_mem (w : Wafer) (b : Nat) (f : Fld) : (w.count b f).mem = w.mem := rfl
@[simp] theorem count_poison (w : Wafer) (b : Nat) (f : Fld) : (w.count b f).poison = w.poison := rfl
@[simp] theorem count_rib (w : Wafer) (b : Nat) (f : Fld) : (w.count b f).rib = w.rib := rfl
@[simp] theorem count_col (w : Wafer) (b : Nat) (f : Fld) : (w.count b f).col = w.col := rfl
@[simp] theorem count_fol (w : Wafer) (b : Nat) (f : Fld) : (w.count b f).fol = w.fol := rfl
@[simp] theorem count_net (w : Wafer) (b : Nat) (f : Fld) : (w.count b f).net = w.net := rfl
@[simp] theorem count_out (w : Wafer) (b : Nat) (f : Fld) : (w.count b f).out = w.out := rfl
@[simp] theorem count_link (w : Wafer) (b : Nat) (f : Fld) : (w.count b f).link = w.link := rfl
@[simp] theorem count_coh (w : Wafer) (b : Nat) (f : Fld) : (w.count b f).coh = w.coh := rfl
@[simp] theorem count_que (w : Wafer) (b : Nat) (f : Fld) : (w.count b f).que = w.que := rfl
@[simp] theorem count_cmds (w : Wafer) (b : Nat) (f : Fld) : (w.count b f).cmds = w.cmds := rfl
@[simp] theorem count_order (w : Wafer) (b : Nat) (f : Fld) : (w.count b f).order = w.order := rfl
@[simp] theorem count_log (w : Wafer) (b : Nat) (f : Fld) : (w.count b f).log = w.log := rfl
@[simp] theorem count_capKw (w : Wafer) (b : Nat) (f : Fld) : (w.count b f).capKw = w.capKw := rfl
@[simp] theorem count_live (w : Wafer) (b : Nat) (f : Fld) : (w.count b f).live = w.live := rfl
@[simp] theorem count_vol (w : Wafer) (b : Nat) (f : Fld) : (w.count b f).vol = w.vol := rfl
@[simp] theorem count_prt (w : Wafer) (b : Nat) (f : Fld) : (w.count b f).prt = w.prt := rfl
@[simp] theorem count_eng (w : Wafer) (b : Nat) (f : Fld) : (w.count b f).eng = w.eng := rfl
@[simp] theorem count_asc (w : Wafer) (b : Nat) (f : Fld) : (w.count b f).asc = w.asc := rfl
@[simp] theorem count_lve (w : Wafer) (b : Nat) (f : Fld) : (w.count b f).lve = w.lve := rfl
@[simp] theorem count_gat (w : Wafer) (b : Nat) (f : Fld) : (w.count b f).gat = w.gat := rfl
@[simp] theorem count_rot (w : Wafer) (b : Nat) (f : Fld) : (w.count b f).rot = w.rot := rfl
@[simp] theorem count_core (w : Wafer) (b : Nat) (f : Fld) : (w.count b f).core = w.core := rfl
@[simp] theorem latch_now (w : Wafer) (b : Nat) (f : Fld) : (w.latch b f).now = w.now := rfl
@[simp] theorem latch_free (w : Wafer) (b : Nat) (f : Fld) : (w.latch b f).free = w.free := rfl
@[simp] theorem latch_mem (w : Wafer) (b : Nat) (f : Fld) : (w.latch b f).mem = w.mem := rfl
@[simp] theorem latch_poison (w : Wafer) (b : Nat) (f : Fld) : (w.latch b f).poison = w.poison := rfl
@[simp] theorem latch_rib (w : Wafer) (b : Nat) (f : Fld) : (w.latch b f).rib = w.rib := rfl
@[simp] theorem latch_col (w : Wafer) (b : Nat) (f : Fld) : (w.latch b f).col = w.col := rfl
@[simp] theorem latch_fol (w : Wafer) (b : Nat) (f : Fld) : (w.latch b f).fol = w.fol := rfl
@[simp] theorem latch_net (w : Wafer) (b : Nat) (f : Fld) : (w.latch b f).net = w.net := rfl
@[simp] theorem latch_out (w : Wafer) (b : Nat) (f : Fld) : (w.latch b f).out = w.out := rfl
@[simp] theorem latch_link (w : Wafer) (b : Nat) (f : Fld) : (w.latch b f).link = w.link := rfl
@[simp] theorem latch_coh (w : Wafer) (b : Nat) (f : Fld) : (w.latch b f).coh = w.coh := rfl
@[simp] theorem latch_que (w : Wafer) (b : Nat) (f : Fld) : (w.latch b f).que = w.que := rfl
@[simp] theorem latch_cmds (w : Wafer) (b : Nat) (f : Fld) : (w.latch b f).cmds = w.cmds := rfl
@[simp] theorem latch_order (w : Wafer) (b : Nat) (f : Fld) : (w.latch b f).order = w.order := rfl
@[simp] theorem latch_log (w : Wafer) (b : Nat) (f : Fld) : (w.latch b f).log = w.log := rfl
@[simp] theorem latch_capKw (w : Wafer) (b : Nat) (f : Fld) : (w.latch b f).capKw = w.capKw := rfl
@[simp] theorem latch_live (w : Wafer) (b : Nat) (f : Fld) : (w.latch b f).live = w.live := rfl
@[simp] theorem latch_vol (w : Wafer) (b : Nat) (f : Fld) : (w.latch b f).vol = w.vol := rfl
@[simp] theorem latch_prt (w : Wafer) (b : Nat) (f : Fld) : (w.latch b f).prt = w.prt := rfl
@[simp] theorem latch_eng (w : Wafer) (b : Nat) (f : Fld) : (w.latch b f).eng = w.eng := rfl
@[simp] theorem latch_asc (w : Wafer) (b : Nat) (f : Fld) : (w.latch b f).asc = w.asc := rfl
@[simp] theorem latch_lve (w : Wafer) (b : Nat) (f : Fld) : (w.latch b f).lve = w.lve := rfl
@[simp] theorem latch_gat (w : Wafer) (b : Nat) (f : Fld) : (w.latch b f).gat = w.gat := rfl
@[simp] theorem latch_rot (w : Wafer) (b : Nat) (f : Fld) : (w.latch b f).rot = w.rot := rfl
@[simp] theorem latch_core (w : Wafer) (b : Nat) (f : Fld) : (w.latch b f).core = w.core := rfl
@[simp] theorem clearRegs_now (w : Wafer) (p : Nat → Bool) : (w.clearRegs p).now = w.now := rfl
@[simp] theorem clearRegs_free (w : Wafer) (p : Nat → Bool) : (w.clearRegs p).free = w.free := rfl
@[simp] theorem clearRegs_mem (w : Wafer) (p : Nat → Bool) : (w.clearRegs p).mem = w.mem := rfl
@[simp] theorem clearRegs_poison (w : Wafer) (p : Nat → Bool) : (w.clearRegs p).poison = w.poison := rfl
@[simp] theorem clearRegs_rib (w : Wafer) (p : Nat → Bool) : (w.clearRegs p).rib = w.rib := rfl
@[simp] theorem clearRegs_col (w : Wafer) (p : Nat → Bool) : (w.clearRegs p).col = w.col := rfl
@[simp] theorem clearRegs_fol (w : Wafer) (p : Nat → Bool) : (w.clearRegs p).fol = w.fol := rfl
@[simp] theorem clearRegs_net (w : Wafer) (p : Nat → Bool) : (w.clearRegs p).net = w.net := rfl
@[simp] theorem clearRegs_out (w : Wafer) (p : Nat → Bool) : (w.clearRegs p).out = w.out := rfl
@[simp] theorem clearRegs_link (w : Wafer) (p : Nat → Bool) : (w.clearRegs p).link = w.link := rfl
@[simp] theorem clearRegs_coh (w : Wafer) (p : Nat → Bool) : (w.clearRegs p).coh = w.coh := rfl
@[simp] theorem clearRegs_que (w : Wafer) (p : Nat → Bool) : (w.clearRegs p).que = w.que := rfl
@[simp] theorem clearRegs_cmds (w : Wafer) (p : Nat → Bool) : (w.clearRegs p).cmds = w.cmds := rfl
@[simp] theorem clearRegs_order (w : Wafer) (p : Nat → Bool) : (w.clearRegs p).order = w.order := rfl
@[simp] theorem clearRegs_log (w : Wafer) (p : Nat → Bool) : (w.clearRegs p).log = w.log := rfl
@[simp] theorem clearRegs_capKw (w : Wafer) (p : Nat → Bool) : (w.clearRegs p).capKw = w.capKw := rfl
@[simp] theorem clearRegs_live (w : Wafer) (p : Nat → Bool) : (w.clearRegs p).live = w.live := rfl
@[simp] theorem clearRegs_vol (w : Wafer) (p : Nat → Bool) : (w.clearRegs p).vol = w.vol := rfl
@[simp] theorem clearRegs_prt (w : Wafer) (p : Nat → Bool) : (w.clearRegs p).prt = w.prt := rfl
@[simp] theorem clearRegs_eng (w : Wafer) (p : Nat → Bool) : (w.clearRegs p).eng = w.eng := rfl
@[simp] theorem clearRegs_asc (w : Wafer) (p : Nat → Bool) : (w.clearRegs p).asc = w.asc := rfl
@[simp] theorem clearRegs_lve (w : Wafer) (p : Nat → Bool) : (w.clearRegs p).lve = w.lve := rfl
@[simp] theorem clearRegs_gat (w : Wafer) (p : Nat → Bool) : (w.clearRegs p).gat = w.gat := rfl
@[simp] theorem clearRegs_rot (w : Wafer) (p : Nat → Bool) : (w.clearRegs p).rot = w.rot := rfl
@[simp] theorem clearRegs_core (w : Wafer) (p : Nat → Bool) : (w.clearRegs p).core = w.core := rfl
@[simp] theorem store_now (w : Wafer) (a : Nat) (l : List Byte) : (w.store a l).now = w.now := rfl
@[simp] theorem store_free (w : Wafer) (a : Nat) (l : List Byte) : (w.store a l).free = w.free := rfl
@[simp] theorem store_regs (w : Wafer) (a : Nat) (l : List Byte) : (w.store a l).regs = w.regs := rfl
@[simp] theorem store_rib (w : Wafer) (a : Nat) (l : List Byte) : (w.store a l).rib = w.rib := rfl
@[simp] theorem store_col (w : Wafer) (a : Nat) (l : List Byte) : (w.store a l).col = w.col := rfl
@[simp] theorem store_fol (w : Wafer) (a : Nat) (l : List Byte) : (w.store a l).fol = w.fol := rfl
@[simp] theorem store_net (w : Wafer) (a : Nat) (l : List Byte) : (w.store a l).net = w.net := rfl
@[simp] theorem store_out (w : Wafer) (a : Nat) (l : List Byte) : (w.store a l).out = w.out := rfl
@[simp] theorem store_link (w : Wafer) (a : Nat) (l : List Byte) : (w.store a l).link = w.link := rfl
@[simp] theorem store_coh (w : Wafer) (a : Nat) (l : List Byte) : (w.store a l).coh = w.coh := rfl
@[simp] theorem store_que (w : Wafer) (a : Nat) (l : List Byte) : (w.store a l).que = w.que := rfl
@[simp] theorem store_cmds (w : Wafer) (a : Nat) (l : List Byte) : (w.store a l).cmds = w.cmds := rfl
@[simp] theorem store_order (w : Wafer) (a : Nat) (l : List Byte) : (w.store a l).order = w.order := rfl
@[simp] theorem store_log (w : Wafer) (a : Nat) (l : List Byte) : (w.store a l).log = w.log := rfl
@[simp] theorem store_capKw (w : Wafer) (a : Nat) (l : List Byte) : (w.store a l).capKw = w.capKw := rfl
@[simp] theorem store_live (w : Wafer) (a : Nat) (l : List Byte) : (w.store a l).live = w.live := rfl
@[simp] theorem store_vol (w : Wafer) (a : Nat) (l : List Byte) : (w.store a l).vol = w.vol := rfl
@[simp] theorem store_prt (w : Wafer) (a : Nat) (l : List Byte) : (w.store a l).prt = w.prt := rfl
@[simp] theorem store_eng (w : Wafer) (a : Nat) (l : List Byte) : (w.store a l).eng = w.eng := rfl
@[simp] theorem store_asc (w : Wafer) (a : Nat) (l : List Byte) : (w.store a l).asc = w.asc := rfl
@[simp] theorem store_lve (w : Wafer) (a : Nat) (l : List Byte) : (w.store a l).lve = w.lve := rfl
@[simp] theorem store_gat (w : Wafer) (a : Nat) (l : List Byte) : (w.store a l).gat = w.gat := rfl
@[simp] theorem store_rot (w : Wafer) (a : Nat) (l : List Byte) : (w.store a l).rot = w.rot := rfl
@[simp] theorem zero_now (w : Wafer) (a n : Nat) : (w.zero a n).now = w.now := rfl
@[simp] theorem zero_free (w : Wafer) (a n : Nat) : (w.zero a n).free = w.free := rfl
@[simp] theorem zero_regs (w : Wafer) (a n : Nat) : (w.zero a n).regs = w.regs := rfl
@[simp] theorem zero_rib (w : Wafer) (a n : Nat) : (w.zero a n).rib = w.rib := rfl
@[simp] theorem zero_col (w : Wafer) (a n : Nat) : (w.zero a n).col = w.col := rfl
@[simp] theorem zero_fol (w : Wafer) (a n : Nat) : (w.zero a n).fol = w.fol := rfl
@[simp] theorem zero_net (w : Wafer) (a n : Nat) : (w.zero a n).net = w.net := rfl
@[simp] theorem zero_out (w : Wafer) (a n : Nat) : (w.zero a n).out = w.out := rfl
@[simp] theorem zero_link (w : Wafer) (a n : Nat) : (w.zero a n).link = w.link := rfl
@[simp] theorem zero_coh (w : Wafer) (a n : Nat) : (w.zero a n).coh = w.coh := rfl
@[simp] theorem zero_que (w : Wafer) (a n : Nat) : (w.zero a n).que = w.que := rfl
@[simp] theorem zero_cmds (w : Wafer) (a n : Nat) : (w.zero a n).cmds = w.cmds := rfl
@[simp] theorem zero_order (w : Wafer) (a n : Nat) : (w.zero a n).order = w.order := rfl
@[simp] theorem zero_log (w : Wafer) (a n : Nat) : (w.zero a n).log = w.log := rfl
@[simp] theorem zero_capKw (w : Wafer) (a n : Nat) : (w.zero a n).capKw = w.capKw := rfl
@[simp] theorem zero_live (w : Wafer) (a n : Nat) : (w.zero a n).live = w.live := rfl
@[simp] theorem zero_vol (w : Wafer) (a n : Nat) : (w.zero a n).vol = w.vol := rfl
@[simp] theorem zero_prt (w : Wafer) (a n : Nat) : (w.zero a n).prt = w.prt := rfl
@[simp] theorem zero_eng (w : Wafer) (a n : Nat) : (w.zero a n).eng = w.eng := rfl
@[simp] theorem zero_asc (w : Wafer) (a n : Nat) : (w.zero a n).asc = w.asc := rfl
@[simp] theorem zero_lve (w : Wafer) (a n : Nat) : (w.zero a n).lve = w.lve := rfl
@[simp] theorem zero_gat (w : Wafer) (a n : Nat) : (w.zero a n).gat = w.gat := rfl
@[simp] theorem zero_rot (w : Wafer) (a n : Nat) : (w.zero a n).rot = w.rot := rfl
@[simp] theorem copy_now (w : Wafer) (x d n : Nat) : (w.copy x d n).now = w.now := rfl
@[simp] theorem copy_free (w : Wafer) (x d n : Nat) : (w.copy x d n).free = w.free := rfl
@[simp] theorem copy_regs (w : Wafer) (x d n : Nat) : (w.copy x d n).regs = w.regs := rfl
@[simp] theorem copy_rib (w : Wafer) (x d n : Nat) : (w.copy x d n).rib = w.rib := rfl
@[simp] theorem copy_col (w : Wafer) (x d n : Nat) : (w.copy x d n).col = w.col := rfl
@[simp] theorem copy_fol (w : Wafer) (x d n : Nat) : (w.copy x d n).fol = w.fol := rfl
@[simp] theorem copy_net (w : Wafer) (x d n : Nat) : (w.copy x d n).net = w.net := rfl
@[simp] theorem copy_out (w : Wafer) (x d n : Nat) : (w.copy x d n).out = w.out := rfl
@[simp] theorem copy_link (w : Wafer) (x d n : Nat) : (w.copy x d n).link = w.link := rfl
@[simp] theorem copy_coh (w : Wafer) (x d n : Nat) : (w.copy x d n).coh = w.coh := rfl
@[simp] theorem copy_que (w : Wafer) (x d n : Nat) : (w.copy x d n).que = w.que := rfl
@[simp] theorem copy_cmds (w : Wafer) (x d n : Nat) : (w.copy x d n).cmds = w.cmds := rfl
@[simp] theorem copy_order (w : Wafer) (x d n : Nat) : (w.copy x d n).order = w.order := rfl
@[simp] theorem copy_log (w : Wafer) (x d n : Nat) : (w.copy x d n).log = w.log := rfl
@[simp] theorem copy_capKw (w : Wafer) (x d n : Nat) : (w.copy x d n).capKw = w.capKw := rfl
@[simp] theorem copy_live (w : Wafer) (x d n : Nat) : (w.copy x d n).live = w.live := rfl
@[simp] theorem copy_vol (w : Wafer) (x d n : Nat) : (w.copy x d n).vol = w.vol := rfl
@[simp] theorem copy_prt (w : Wafer) (x d n : Nat) : (w.copy x d n).prt = w.prt := rfl
@[simp] theorem copy_eng (w : Wafer) (x d n : Nat) : (w.copy x d n).eng = w.eng := rfl
@[simp] theorem copy_asc (w : Wafer) (x d n : Nat) : (w.copy x d n).asc = w.asc := rfl
@[simp] theorem copy_lve (w : Wafer) (x d n : Nat) : (w.copy x d n).lve = w.lve := rfl
@[simp] theorem copy_gat (w : Wafer) (x d n : Nat) : (w.copy x d n).gat = w.gat := rfl
@[simp] theorem copy_rot (w : Wafer) (x d n : Nat) : (w.copy x d n).rot = w.rot := rfl
@[simp] theorem poisonWord_now (w : Wafer) (a : Nat) : (w.poisonWord a).now = w.now := rfl
@[simp] theorem poisonWord_free (w : Wafer) (a : Nat) : (w.poisonWord a).free = w.free := rfl
@[simp] theorem poisonWord_regs (w : Wafer) (a : Nat) : (w.poisonWord a).regs = w.regs := rfl
@[simp] theorem poisonWord_mem (w : Wafer) (a : Nat) : (w.poisonWord a).mem = w.mem := rfl
@[simp] theorem poisonWord_rib (w : Wafer) (a : Nat) : (w.poisonWord a).rib = w.rib := rfl
@[simp] theorem poisonWord_col (w : Wafer) (a : Nat) : (w.poisonWord a).col = w.col := rfl
@[simp] theorem poisonWord_fol (w : Wafer) (a : Nat) : (w.poisonWord a).fol = w.fol := rfl
@[simp] theorem poisonWord_net (w : Wafer) (a : Nat) : (w.poisonWord a).net = w.net := rfl
@[simp] theorem poisonWord_out (w : Wafer) (a : Nat) : (w.poisonWord a).out = w.out := rfl
@[simp] theorem poisonWord_link (w : Wafer) (a : Nat) : (w.poisonWord a).link = w.link := rfl
@[simp] theorem poisonWord_coh (w : Wafer) (a : Nat) : (w.poisonWord a).coh = w.coh := rfl
@[simp] theorem poisonWord_que (w : Wafer) (a : Nat) : (w.poisonWord a).que = w.que := rfl
@[simp] theorem poisonWord_cmds (w : Wafer) (a : Nat) : (w.poisonWord a).cmds = w.cmds := rfl
@[simp] theorem poisonWord_order (w : Wafer) (a : Nat) : (w.poisonWord a).order = w.order := rfl
@[simp] theorem poisonWord_log (w : Wafer) (a : Nat) : (w.poisonWord a).log = w.log := rfl
@[simp] theorem poisonWord_capKw (w : Wafer) (a : Nat) : (w.poisonWord a).capKw = w.capKw := rfl
@[simp] theorem poisonWord_live (w : Wafer) (a : Nat) : (w.poisonWord a).live = w.live := rfl
@[simp] theorem poisonWord_vol (w : Wafer) (a : Nat) : (w.poisonWord a).vol = w.vol := rfl
@[simp] theorem poisonWord_prt (w : Wafer) (a : Nat) : (w.poisonWord a).prt = w.prt := rfl
@[simp] theorem poisonWord_eng (w : Wafer) (a : Nat) : (w.poisonWord a).eng = w.eng := rfl
@[simp] theorem poisonWord_asc (w : Wafer) (a : Nat) : (w.poisonWord a).asc = w.asc := rfl
@[simp] theorem poisonWord_lve (w : Wafer) (a : Nat) : (w.poisonWord a).lve = w.lve := rfl
@[simp] theorem poisonWord_gat (w : Wafer) (a : Nat) : (w.poisonWord a).gat = w.gat := rfl
@[simp] theorem poisonWord_rot (w : Wafer) (a : Nat) : (w.poisonWord a).rot = w.rot := rfl
@[simp] theorem poisonWord_core (w : Wafer) (a : Nat) : (w.poisonWord a).core = w.core := rfl
@[simp] theorem send_now (w : Wafer) (m : Msg) : (w.send m).now = w.now := rfl
@[simp] theorem send_free (w : Wafer) (m : Msg) : (w.send m).free = w.free := rfl
@[simp] theorem send_regs (w : Wafer) (m : Msg) : (w.send m).regs = w.regs := rfl
@[simp] theorem send_mem (w : Wafer) (m : Msg) : (w.send m).mem = w.mem := rfl
@[simp] theorem send_poison (w : Wafer) (m : Msg) : (w.send m).poison = w.poison := rfl
@[simp] theorem send_rib (w : Wafer) (m : Msg) : (w.send m).rib = w.rib := rfl
@[simp] theorem send_col (w : Wafer) (m : Msg) : (w.send m).col = w.col := rfl
@[simp] theorem send_fol (w : Wafer) (m : Msg) : (w.send m).fol = w.fol := rfl
@[simp] theorem send_out (w : Wafer) (m : Msg) : (w.send m).out = w.out := rfl
@[simp] theorem send_link (w : Wafer) (m : Msg) : (w.send m).link = w.link := rfl
@[simp] theorem send_coh (w : Wafer) (m : Msg) : (w.send m).coh = w.coh := rfl
@[simp] theorem send_que (w : Wafer) (m : Msg) : (w.send m).que = w.que := rfl
@[simp] theorem send_cmds (w : Wafer) (m : Msg) : (w.send m).cmds = w.cmds := rfl
@[simp] theorem send_order (w : Wafer) (m : Msg) : (w.send m).order = w.order := rfl
@[simp] theorem send_log (w : Wafer) (m : Msg) : (w.send m).log = w.log := rfl
@[simp] theorem send_capKw (w : Wafer) (m : Msg) : (w.send m).capKw = w.capKw := rfl
@[simp] theorem send_live (w : Wafer) (m : Msg) : (w.send m).live = w.live := rfl
@[simp] theorem send_vol (w : Wafer) (m : Msg) : (w.send m).vol = w.vol := rfl
@[simp] theorem send_prt (w : Wafer) (m : Msg) : (w.send m).prt = w.prt := rfl
@[simp] theorem send_eng (w : Wafer) (m : Msg) : (w.send m).eng = w.eng := rfl
@[simp] theorem send_asc (w : Wafer) (m : Msg) : (w.send m).asc = w.asc := rfl
@[simp] theorem send_lve (w : Wafer) (m : Msg) : (w.send m).lve = w.lve := rfl
@[simp] theorem send_gat (w : Wafer) (m : Msg) : (w.send m).gat = w.gat := rfl
@[simp] theorem send_rot (w : Wafer) (m : Msg) : (w.send m).rot = w.rot := rfl
@[simp] theorem send_core (w : Wafer) (m : Msg) : (w.send m).core = w.core := rfl
@[simp] theorem take_now (w : Wafer) (p : Msg → Bool) : (w.take p).now = w.now := rfl
@[simp] theorem take_free (w : Wafer) (p : Msg → Bool) : (w.take p).free = w.free := rfl
@[simp] theorem take_regs (w : Wafer) (p : Msg → Bool) : (w.take p).regs = w.regs := rfl
@[simp] theorem take_mem (w : Wafer) (p : Msg → Bool) : (w.take p).mem = w.mem := rfl
@[simp] theorem take_poison (w : Wafer) (p : Msg → Bool) : (w.take p).poison = w.poison := rfl
@[simp] theorem take_rib (w : Wafer) (p : Msg → Bool) : (w.take p).rib = w.rib := rfl
@[simp] theorem take_col (w : Wafer) (p : Msg → Bool) : (w.take p).col = w.col := rfl
@[simp] theorem take_fol (w : Wafer) (p : Msg → Bool) : (w.take p).fol = w.fol := rfl
@[simp] theorem take_out (w : Wafer) (p : Msg → Bool) : (w.take p).out = w.out := rfl
@[simp] theorem take_link (w : Wafer) (p : Msg → Bool) : (w.take p).link = w.link := rfl
@[simp] theorem take_coh (w : Wafer) (p : Msg → Bool) : (w.take p).coh = w.coh := rfl
@[simp] theorem take_que (w : Wafer) (p : Msg → Bool) : (w.take p).que = w.que := rfl
@[simp] theorem take_cmds (w : Wafer) (p : Msg → Bool) : (w.take p).cmds = w.cmds := rfl
@[simp] theorem take_order (w : Wafer) (p : Msg → Bool) : (w.take p).order = w.order := rfl
@[simp] theorem take_log (w : Wafer) (p : Msg → Bool) : (w.take p).log = w.log := rfl
@[simp] theorem take_capKw (w : Wafer) (p : Msg → Bool) : (w.take p).capKw = w.capKw := rfl
@[simp] theorem take_live (w : Wafer) (p : Msg → Bool) : (w.take p).live = w.live := rfl
@[simp] theorem take_vol (w : Wafer) (p : Msg → Bool) : (w.take p).vol = w.vol := rfl
@[simp] theorem take_prt (w : Wafer) (p : Msg → Bool) : (w.take p).prt = w.prt := rfl
@[simp] theorem take_eng (w : Wafer) (p : Msg → Bool) : (w.take p).eng = w.eng := rfl
@[simp] theorem take_asc (w : Wafer) (p : Msg → Bool) : (w.take p).asc = w.asc := rfl
@[simp] theorem take_lve (w : Wafer) (p : Msg → Bool) : (w.take p).lve = w.lve := rfl
@[simp] theorem take_gat (w : Wafer) (p : Msg → Bool) : (w.take p).gat = w.gat := rfl
@[simp] theorem take_rot (w : Wafer) (p : Msg → Bool) : (w.take p).rot = w.rot := rfl
@[simp] theorem take_core (w : Wafer) (p : Msg → Bool) : (w.take p).core = w.core := rfl
@[simp] theorem setRib32_now (w : Wafer) (k : Nat) (v : BitVec 32) : (w.setRib32 k v).now = w.now := rfl
@[simp] theorem setRib32_free (w : Wafer) (k : Nat) (v : BitVec 32) : (w.setRib32 k v).free = w.free := rfl
@[simp] theorem setRib32_regs (w : Wafer) (k : Nat) (v : BitVec 32) : (w.setRib32 k v).regs = w.regs := rfl
@[simp] theorem setRib32_mem (w : Wafer) (k : Nat) (v : BitVec 32) : (w.setRib32 k v).mem = w.mem := rfl
@[simp] theorem setRib32_poison (w : Wafer) (k : Nat) (v : BitVec 32) : (w.setRib32 k v).poison = w.poison := rfl
@[simp] theorem setRib32_col (w : Wafer) (k : Nat) (v : BitVec 32) : (w.setRib32 k v).col = w.col := rfl
@[simp] theorem setRib32_fol (w : Wafer) (k : Nat) (v : BitVec 32) : (w.setRib32 k v).fol = w.fol := rfl
@[simp] theorem setRib32_net (w : Wafer) (k : Nat) (v : BitVec 32) : (w.setRib32 k v).net = w.net := rfl
@[simp] theorem setRib32_out (w : Wafer) (k : Nat) (v : BitVec 32) : (w.setRib32 k v).out = w.out := rfl
@[simp] theorem setRib32_link (w : Wafer) (k : Nat) (v : BitVec 32) : (w.setRib32 k v).link = w.link := rfl
@[simp] theorem setRib32_coh (w : Wafer) (k : Nat) (v : BitVec 32) : (w.setRib32 k v).coh = w.coh := rfl
@[simp] theorem setRib32_que (w : Wafer) (k : Nat) (v : BitVec 32) : (w.setRib32 k v).que = w.que := rfl
@[simp] theorem setRib32_cmds (w : Wafer) (k : Nat) (v : BitVec 32) : (w.setRib32 k v).cmds = w.cmds := rfl
@[simp] theorem setRib32_order (w : Wafer) (k : Nat) (v : BitVec 32) : (w.setRib32 k v).order = w.order := rfl
@[simp] theorem setRib32_log (w : Wafer) (k : Nat) (v : BitVec 32) : (w.setRib32 k v).log = w.log := rfl
@[simp] theorem setRib32_capKw (w : Wafer) (k : Nat) (v : BitVec 32) : (w.setRib32 k v).capKw = w.capKw := rfl
@[simp] theorem setRib32_live (w : Wafer) (k : Nat) (v : BitVec 32) : (w.setRib32 k v).live = w.live := rfl
@[simp] theorem setRib32_vol (w : Wafer) (k : Nat) (v : BitVec 32) : (w.setRib32 k v).vol = w.vol := rfl
@[simp] theorem setRib32_prt (w : Wafer) (k : Nat) (v : BitVec 32) : (w.setRib32 k v).prt = w.prt := rfl
@[simp] theorem setRib32_eng (w : Wafer) (k : Nat) (v : BitVec 32) : (w.setRib32 k v).eng = w.eng := rfl
@[simp] theorem setRib32_asc (w : Wafer) (k : Nat) (v : BitVec 32) : (w.setRib32 k v).asc = w.asc := rfl
@[simp] theorem setRib32_lve (w : Wafer) (k : Nat) (v : BitVec 32) : (w.setRib32 k v).lve = w.lve := rfl
@[simp] theorem setRib32_gat (w : Wafer) (k : Nat) (v : BitVec 32) : (w.setRib32 k v).gat = w.gat := rfl
@[simp] theorem setRib32_rot (w : Wafer) (k : Nat) (v : BitVec 32) : (w.setRib32 k v).rot = w.rot := rfl
@[simp] theorem setRib32_core (w : Wafer) (k : Nat) (v : BitVec 32) : (w.setRib32 k v).core = w.core := rfl
@[simp] theorem alertOn_now (w : Wafer) (p : RibPort) (b : Nat) : (w.alertOn p b).now = w.now := rfl
@[simp] theorem alertOn_free (w : Wafer) (p : RibPort) (b : Nat) : (w.alertOn p b).free = w.free := rfl
@[simp] theorem alertOn_regs (w : Wafer) (p : RibPort) (b : Nat) : (w.alertOn p b).regs = w.regs := rfl
@[simp] theorem alertOn_mem (w : Wafer) (p : RibPort) (b : Nat) : (w.alertOn p b).mem = w.mem := rfl
@[simp] theorem alertOn_poison (w : Wafer) (p : RibPort) (b : Nat) : (w.alertOn p b).poison = w.poison := rfl
@[simp] theorem alertOn_col (w : Wafer) (p : RibPort) (b : Nat) : (w.alertOn p b).col = w.col := rfl
@[simp] theorem alertOn_fol (w : Wafer) (p : RibPort) (b : Nat) : (w.alertOn p b).fol = w.fol := rfl
@[simp] theorem alertOn_net (w : Wafer) (p : RibPort) (b : Nat) : (w.alertOn p b).net = w.net := rfl
@[simp] theorem alertOn_out (w : Wafer) (p : RibPort) (b : Nat) : (w.alertOn p b).out = w.out := rfl
@[simp] theorem alertOn_link (w : Wafer) (p : RibPort) (b : Nat) : (w.alertOn p b).link = w.link := rfl
@[simp] theorem alertOn_coh (w : Wafer) (p : RibPort) (b : Nat) : (w.alertOn p b).coh = w.coh := rfl
@[simp] theorem alertOn_que (w : Wafer) (p : RibPort) (b : Nat) : (w.alertOn p b).que = w.que := rfl
@[simp] theorem alertOn_cmds (w : Wafer) (p : RibPort) (b : Nat) : (w.alertOn p b).cmds = w.cmds := rfl
@[simp] theorem alertOn_order (w : Wafer) (p : RibPort) (b : Nat) : (w.alertOn p b).order = w.order := rfl
@[simp] theorem alertOn_log (w : Wafer) (p : RibPort) (b : Nat) : (w.alertOn p b).log = w.log := rfl
@[simp] theorem alertOn_capKw (w : Wafer) (p : RibPort) (b : Nat) : (w.alertOn p b).capKw = w.capKw := rfl
@[simp] theorem alertOn_live (w : Wafer) (p : RibPort) (b : Nat) : (w.alertOn p b).live = w.live := rfl
@[simp] theorem alertOn_vol (w : Wafer) (p : RibPort) (b : Nat) : (w.alertOn p b).vol = w.vol := rfl
@[simp] theorem alertOn_prt (w : Wafer) (p : RibPort) (b : Nat) : (w.alertOn p b).prt = w.prt := rfl
@[simp] theorem alertOn_eng (w : Wafer) (p : RibPort) (b : Nat) : (w.alertOn p b).eng = w.eng := rfl
@[simp] theorem alertOn_asc (w : Wafer) (p : RibPort) (b : Nat) : (w.alertOn p b).asc = w.asc := rfl
@[simp] theorem alertOn_lve (w : Wafer) (p : RibPort) (b : Nat) : (w.alertOn p b).lve = w.lve := rfl
@[simp] theorem alertOn_gat (w : Wafer) (p : RibPort) (b : Nat) : (w.alertOn p b).gat = w.gat := rfl
@[simp] theorem alertOn_rot (w : Wafer) (p : RibPort) (b : Nat) : (w.alertOn p b).rot = w.rot := rfl
@[simp] theorem alertOn_core (w : Wafer) (p : RibPort) (b : Nat) : (w.alertOn p b).core = w.core := rfl
@[simp] theorem alert_now (w : Wafer) (b : Nat) : (w.alert b).now = w.now := rfl
@[simp] theorem alert_free (w : Wafer) (b : Nat) : (w.alert b).free = w.free := rfl
@[simp] theorem alert_regs (w : Wafer) (b : Nat) : (w.alert b).regs = w.regs := rfl
@[simp] theorem alert_mem (w : Wafer) (b : Nat) : (w.alert b).mem = w.mem := rfl
@[simp] theorem alert_poison (w : Wafer) (b : Nat) : (w.alert b).poison = w.poison := rfl
@[simp] theorem alert_col (w : Wafer) (b : Nat) : (w.alert b).col = w.col := rfl
@[simp] theorem alert_fol (w : Wafer) (b : Nat) : (w.alert b).fol = w.fol := rfl
@[simp] theorem alert_net (w : Wafer) (b : Nat) : (w.alert b).net = w.net := rfl
@[simp] theorem alert_out (w : Wafer) (b : Nat) : (w.alert b).out = w.out := rfl
@[simp] theorem alert_link (w : Wafer) (b : Nat) : (w.alert b).link = w.link := rfl
@[simp] theorem alert_coh (w : Wafer) (b : Nat) : (w.alert b).coh = w.coh := rfl
@[simp] theorem alert_que (w : Wafer) (b : Nat) : (w.alert b).que = w.que := rfl
@[simp] theorem alert_cmds (w : Wafer) (b : Nat) : (w.alert b).cmds = w.cmds := rfl
@[simp] theorem alert_order (w : Wafer) (b : Nat) : (w.alert b).order = w.order := rfl
@[simp] theorem alert_log (w : Wafer) (b : Nat) : (w.alert b).log = w.log := rfl
@[simp] theorem alert_capKw (w : Wafer) (b : Nat) : (w.alert b).capKw = w.capKw := rfl
@[simp] theorem alert_live (w : Wafer) (b : Nat) : (w.alert b).live = w.live := rfl
@[simp] theorem alert_vol (w : Wafer) (b : Nat) : (w.alert b).vol = w.vol := rfl
@[simp] theorem alert_prt (w : Wafer) (b : Nat) : (w.alert b).prt = w.prt := rfl
@[simp] theorem alert_eng (w : Wafer) (b : Nat) : (w.alert b).eng = w.eng := rfl
@[simp] theorem alert_asc (w : Wafer) (b : Nat) : (w.alert b).asc = w.asc := rfl
@[simp] theorem alert_lve (w : Wafer) (b : Nat) : (w.alert b).lve = w.lve := rfl
@[simp] theorem alert_gat (w : Wafer) (b : Nat) : (w.alert b).gat = w.gat := rfl
@[simp] theorem alert_rot (w : Wafer) (b : Nat) : (w.alert b).rot = w.rot := rfl
@[simp] theorem alert_core (w : Wafer) (b : Nat) : (w.alert b).core = w.core := rfl
@[simp] theorem setDieInfo_now (w : Wafer) (n : Nat) (i : DieInfo) : (w.setDieInfo n i).now = w.now := rfl
@[simp] theorem setDieInfo_free (w : Wafer) (n : Nat) (i : DieInfo) : (w.setDieInfo n i).free = w.free := rfl
@[simp] theorem setDieInfo_regs (w : Wafer) (n : Nat) (i : DieInfo) : (w.setDieInfo n i).regs = w.regs := rfl
@[simp] theorem setDieInfo_mem (w : Wafer) (n : Nat) (i : DieInfo) : (w.setDieInfo n i).mem = w.mem := rfl
@[simp] theorem setDieInfo_poison (w : Wafer) (n : Nat) (i : DieInfo) : (w.setDieInfo n i).poison = w.poison := rfl
@[simp] theorem setDieInfo_rib (w : Wafer) (n : Nat) (i : DieInfo) : (w.setDieInfo n i).rib = w.rib := rfl
@[simp] theorem setDieInfo_fol (w : Wafer) (n : Nat) (i : DieInfo) : (w.setDieInfo n i).fol = w.fol := rfl
@[simp] theorem setDieInfo_net (w : Wafer) (n : Nat) (i : DieInfo) : (w.setDieInfo n i).net = w.net := rfl
@[simp] theorem setDieInfo_out (w : Wafer) (n : Nat) (i : DieInfo) : (w.setDieInfo n i).out = w.out := rfl
@[simp] theorem setDieInfo_link (w : Wafer) (n : Nat) (i : DieInfo) : (w.setDieInfo n i).link = w.link := rfl
@[simp] theorem setDieInfo_coh (w : Wafer) (n : Nat) (i : DieInfo) : (w.setDieInfo n i).coh = w.coh := rfl
@[simp] theorem setDieInfo_que (w : Wafer) (n : Nat) (i : DieInfo) : (w.setDieInfo n i).que = w.que := rfl
@[simp] theorem setDieInfo_cmds (w : Wafer) (n : Nat) (i : DieInfo) : (w.setDieInfo n i).cmds = w.cmds := rfl
@[simp] theorem setDieInfo_order (w : Wafer) (n : Nat) (i : DieInfo) : (w.setDieInfo n i).order = w.order := rfl
@[simp] theorem setDieInfo_log (w : Wafer) (n : Nat) (i : DieInfo) : (w.setDieInfo n i).log = w.log := rfl
@[simp] theorem setDieInfo_capKw (w : Wafer) (n : Nat) (i : DieInfo) : (w.setDieInfo n i).capKw = w.capKw := rfl
@[simp] theorem setDieInfo_live (w : Wafer) (n : Nat) (i : DieInfo) : (w.setDieInfo n i).live = w.live := rfl
@[simp] theorem setDieInfo_vol (w : Wafer) (n : Nat) (i : DieInfo) : (w.setDieInfo n i).vol = w.vol := rfl
@[simp] theorem setDieInfo_prt (w : Wafer) (n : Nat) (i : DieInfo) : (w.setDieInfo n i).prt = w.prt := rfl
@[simp] theorem setDieInfo_eng (w : Wafer) (n : Nat) (i : DieInfo) : (w.setDieInfo n i).eng = w.eng := rfl
@[simp] theorem setDieInfo_asc (w : Wafer) (n : Nat) (i : DieInfo) : (w.setDieInfo n i).asc = w.asc := rfl
@[simp] theorem setDieInfo_lve (w : Wafer) (n : Nat) (i : DieInfo) : (w.setDieInfo n i).lve = w.lve := rfl
@[simp] theorem setDieInfo_gat (w : Wafer) (n : Nat) (i : DieInfo) : (w.setDieInfo n i).gat = w.gat := rfl
@[simp] theorem setDieInfo_rot (w : Wafer) (n : Nat) (i : DieInfo) : (w.setDieInfo n i).rot = w.rot := rfl
@[simp] theorem setDieInfo_core (w : Wafer) (n : Nat) (i : DieInfo) : (w.setDieInfo n i).core = w.core := rfl
@[simp] theorem rewriteReport_now (w : Wafer) : (w.rewriteReport).now = w.now := rfl
@[simp] theorem rewriteReport_free (w : Wafer) : (w.rewriteReport).free = w.free := rfl
@[simp] theorem rewriteReport_regs (w : Wafer) : (w.rewriteReport).regs = w.regs := rfl
@[simp] theorem rewriteReport_mem (w : Wafer) : (w.rewriteReport).mem = w.mem := rfl
@[simp] theorem rewriteReport_poison (w : Wafer) : (w.rewriteReport).poison = w.poison := rfl
@[simp] theorem rewriteReport_rib (w : Wafer) : (w.rewriteReport).rib = w.rib := rfl
@[simp] theorem rewriteReport_fol (w : Wafer) : (w.rewriteReport).fol = w.fol := rfl
@[simp] theorem rewriteReport_net (w : Wafer) : (w.rewriteReport).net = w.net := rfl
@[simp] theorem rewriteReport_out (w : Wafer) : (w.rewriteReport).out = w.out := rfl
@[simp] theorem rewriteReport_link (w : Wafer) : (w.rewriteReport).link = w.link := rfl
@[simp] theorem rewriteReport_coh (w : Wafer) : (w.rewriteReport).coh = w.coh := rfl
@[simp] theorem rewriteReport_que (w : Wafer) : (w.rewriteReport).que = w.que := rfl
@[simp] theorem rewriteReport_cmds (w : Wafer) : (w.rewriteReport).cmds = w.cmds := rfl
@[simp] theorem rewriteReport_order (w : Wafer) : (w.rewriteReport).order = w.order := rfl
@[simp] theorem rewriteReport_log (w : Wafer) : (w.rewriteReport).log = w.log := rfl
@[simp] theorem rewriteReport_capKw (w : Wafer) : (w.rewriteReport).capKw = w.capKw := rfl
@[simp] theorem rewriteReport_live (w : Wafer) : (w.rewriteReport).live = w.live := rfl
@[simp] theorem rewriteReport_vol (w : Wafer) : (w.rewriteReport).vol = w.vol := rfl
@[simp] theorem rewriteReport_prt (w : Wafer) : (w.rewriteReport).prt = w.prt := rfl
@[simp] theorem rewriteReport_eng (w : Wafer) : (w.rewriteReport).eng = w.eng := rfl
@[simp] theorem rewriteReport_asc (w : Wafer) : (w.rewriteReport).asc = w.asc := rfl
@[simp] theorem rewriteReport_lve (w : Wafer) : (w.rewriteReport).lve = w.lve := rfl
@[simp] theorem rewriteReport_gat (w : Wafer) : (w.rewriteReport).gat = w.gat := rfl
@[simp] theorem rewriteReport_rot (w : Wafer) : (w.rewriteReport).rot = w.rot := rfl
@[simp] theorem rewriteReport_core (w : Wafer) : (w.rewriteReport).core = w.core := rfl

end Wafer
end Sys2Proof.Machine
end

