-- ==== Sys2Proof/Laws/Word.lean ====
section
/-! SUPPORT. Bit fields of a register, and the sparse table: what a write leaves to read. -/

namespace Sys2Proof

theorem getF_lt (v : Word) (lo n : Nat) : getF v lo n < 2 ^ n := Nat.mod_lt _ (Nat.two_pow_pos n)

/-- The three parts of `putF` as a number, none of which overlaps another. -/
theorem putF_toNat (v : Word) (lo n x : Nat) (h : lo + n ≤ 64) :
    (putF v lo n x).toNat =
      v.toNat / 2 ^ (lo + n) * 2 ^ (lo + n) + (x % 2 ^ n) * 2 ^ lo + v.toNat % 2 ^ lo := by
  have hx : x % 2 ^ n < 2 ^ n := Nat.mod_lt _ (Nat.two_pow_pos n)
  have hl : v.toNat % 2 ^ lo < 2 ^ lo := Nat.mod_lt _ (Nat.two_pow_pos lo)
  have e : 2 ^ (lo + n) = 2 ^ n * 2 ^ lo := by rw [Nat.pow_add, Nat.mul_comm]
  have low : (x % 2 ^ n) * 2 ^ lo + v.toNat % 2 ^ lo < 2 ^ (lo + n) := by
    have := Nat.mul_le_mul_right (2 ^ lo) (Nat.succ_le_of_lt hx)
    rw [e]; rw [Nat.succ_mul] at this; omega
  have top : (2 : Nat) ^ 64 = 2 ^ (64 - (lo + n)) * 2 ^ (lo + n) := by rw [← Nat.pow_add]; congr 1; omega
  have hv : v.toNat / 2 ^ (lo + n) < 2 ^ (64 - (lo + n)) :=
    Nat.div_lt_of_lt_mul (by rw [Nat.mul_comm, ← top]; exact v.isLt)
  simp only [putF, BitVec.toNat_ofNat]
  apply Nat.mod_eq_of_lt
  rw [top]
  have := Nat.two_pow_pos (lo + n)
  nlinarith

/-- A field reads back what was put into it, cut to its width. -/
theorem getF_putF (v : Word) (lo n x : Nat) (h : lo + n ≤ 64) : getF (putF v lo n x) lo n = x % 2 ^ n := by
  have hx : x % 2 ^ n < 2 ^ n := Nat.mod_lt _ (Nat.two_pow_pos n)
  have hl : v.toNat % 2 ^ lo < 2 ^ lo := Nat.mod_lt _ (Nat.two_pow_pos lo)
  have e : 2 ^ (lo + n) = 2 ^ lo * 2 ^ n := Nat.pow_add _ _ _
  rw [getF, putF_toNat v lo n x h]
  have : v.toNat / 2 ^ (lo + n) * 2 ^ (lo + n) + x % 2 ^ n * 2 ^ lo + v.toNat % 2 ^ lo =
      v.toNat % 2 ^ lo + 2 ^ lo * (x % 2 ^ n + 2 ^ n * (v.toNat / 2 ^ (lo + n))) := by rw [e]; ring
  rw [this, Nat.add_mul_div_left _ _ (Nat.two_pow_pos lo), Nat.div_eq_of_lt hl, Nat.zero_add,
    Nat.add_mul_mod_self_left, Nat.mod_eq_of_lt hx]

/-- A field below the one written reads as before. -/
theorem getF_putF_below (v : Word) (lo n x lo' n' : Nat) (h : lo + n ≤ 64) (d : lo' + n' ≤ lo) :
    getF (putF v lo n x) lo' n' = getF v lo' n' := by
  rw [getF, getF, putF_toNat v lo n x h]
  have e1 : 2 ^ lo = 2 ^ lo' * (2 ^ n' * 2 ^ (lo - lo' - n')) := by rw [← Nat.pow_add, ← Nat.pow_add]; congr 1; omega
  have e2 : 2 ^ (lo + n) = 2 ^ lo * 2 ^ n := Nat.pow_add _ _ _
  have hv : v.toNat = v.toNat % 2 ^ lo + 2 ^ lo * (v.toNat / 2 ^ lo) := (Nat.mod_add_div _ _).symm
  have l : v.toNat / 2 ^ (lo + n) * 2 ^ (lo + n) + x % 2 ^ n * 2 ^ lo + v.toNat % 2 ^ lo =
      v.toNat % 2 ^ lo + 2 ^ lo' * (2 ^ n' * (2 ^ (lo - lo' - n') * (x % 2 ^ n + 2 ^ n * (v.toNat / 2 ^ (lo + n))))) := by
    rw [e2]; nth_rewrite 2 [e1]; nth_rewrite 2 [e1]; ring
  have r : v.toNat = v.toNat % 2 ^ lo + 2 ^ lo' * (2 ^ n' * (2 ^ (lo - lo' - n') * (v.toNat / 2 ^ lo))) := by
    nth_rewrite 1 [hv]; nth_rewrite 2 [e1]; ring
  rw [l, Nat.add_mul_div_left _ _ (Nat.two_pow_pos lo'), Nat.add_mul_mod_self_left]
  conv_rhs => rw [r]
  rw [Nat.add_mul_div_left _ _ (Nat.two_pow_pos lo'), Nat.add_mul_mod_self_left]

/-- A field above the one written reads as before. -/
theorem getF_putF_above (v : Word) (lo n x lo' n' : Nat) (h : lo + n ≤ 64) (d : lo + n ≤ lo') :
    getF (putF v lo n x) lo' n' = getF v lo' n' := by
  rw [getF, getF, putF_toNat v lo n x h]
  congr 1
  have hx : x % 2 ^ n < 2 ^ n := Nat.mod_lt _ (Nat.two_pow_pos n)
  have hl : v.toNat % 2 ^ lo < 2 ^ lo := Nat.mod_lt _ (Nat.two_pow_pos lo)
  have e2 : 2 ^ (lo + n) = 2 ^ n * 2 ^ lo := by rw [Nat.pow_add, Nat.mul_comm]
  have low : x % 2 ^ n * 2 ^ lo + v.toNat % 2 ^ lo < 2 ^ (lo + n) := by
    have := Nat.mul_le_mul_right (2 ^ lo) (Nat.succ_le_of_lt hx)
    rw [e2]; rw [Nat.succ_mul] at this; omega
  have e1 : 2 ^ lo' = 2 ^ (lo + n) * 2 ^ (lo' - (lo + n)) := by rw [← Nat.pow_add]; congr 1; omega
  rw [e1, ← Nat.div_div_eq_div_mul, ← Nat.div_div_eq_div_mul]
  congr 1
  rw [Nat.add_assoc, Nat.mul_comm, Nat.mul_add_div (Nat.two_pow_pos _), Nat.div_eq_of_lt low, Nat.add_zero]

namespace Tab
variable {α : Type}

theorem look_drop_same (d : Nat → α) (t : Tab α) (k : Nat) : look d (drop t k) k = d k := by
  induction t with
  | nil => rfl
  | cons e r ih =>
    obtain ⟨j, v⟩ := e
    by_cases h : j = k
    · simpa [drop, h] using ih
    · simp [drop, look, h, ih]

theorem look_drop_other (d : Nat → α) (t : Tab α) (k i : Nat) (h : i ≠ k) : look d (drop t k) i = look d t i := by
  induction t with
  | nil => rfl
  | cons e r ih =>
    obtain ⟨j, v⟩ := e
    by_cases hj : j = k
    · subst hj; simp [drop, look, ih, Ne.symm h]
    · simp only [drop, hj, if_false, look]; split <;> simp_all

theorem look_ins_same (d : Nat → α) (t : Tab α) (k : Nat) (v : α) (h : above k t = true ∨ ∀ e ∈ t, e.1 ≠ k) :
    look d (ins t k v) k = v := by
  induction t with
  | nil => simp [ins, look]
  | cons e r ih =>
    obtain ⟨j, x⟩ := e
    have hj : j ≠ k := by
      rcases h with h | h
      · simp [above] at h; omega
      · exact h (j, x) (by simp)
    simp only [ins]
    split
    · simp [look]
    · simp only [look, hj, if_false]
      exact ih (by
        rcases h with h | h
        · left; simp [above] at h; exact h.2
        · right; intro e he; exact h e (by simp [he]))

theorem look_ins_other (d : Nat → α) (t : Tab α) (k i : Nat) (v : α) (h : i ≠ k) : look d (ins t k v) i = look d t i := by
  induction t with
  | nil => simp [ins, look, Ne.symm h]
  | cons e r ih =>
    obtain ⟨j, x⟩ := e
    simp only [ins]
    split
    · simp [look, Ne.symm h]
    · simp only [look]; split <;> simp_all

theorem mem_drop (t : Tab α) (k : Nat) : ∀ e ∈ drop t k, e.1 ≠ k := by
  induction t with
  | nil => simp [drop]
  | cons e r ih =>
    obtain ⟨j, v⟩ := e
    by_cases h : j = k
    · simpa [drop, h] using ih
    · intro e he
      simp [drop, h] at he
      rcases he with rfl | he
      · exact h
      · exact ih e he

theorem above_trans {j k : Nat} (h : j < k) (t : Tab α) (a : above k t = true) : above j t = true := by
  induction t with
  | nil => rfl
  | cons e r ih => obtain ⟨i, v⟩ := e; simp [above] at a ⊢; exact ⟨by omega, ih a.2⟩

theorem above_drop (t : Tab α) (j k : Nat) (a : above j t = true) : above j (drop t k) = true := by
  induction t with
  | nil => rfl
  | cons e r ih =>
    obtain ⟨i, v⟩ := e; simp [above] at a
    by_cases h : i = k
    · simpa [drop, h] using ih a.2
    · simp [drop, h, above, a.1, ih a.2]

theorem above_ins (t : Tab α) (j k : Nat) (v : α) (a : above j t = true) (h : j < k) : above j (ins t k v) = true := by
  induction t with
  | nil => simp [ins, above, h]
  | cons e r ih =>
    obtain ⟨i, x⟩ := e; simp [above] at a
    simp only [ins]; split
    · simp [above, h, a.1, a.2]
    · simp [above, a.1, ih a.2]

theorem above_filter (t : Tab α) (j : Nat) (p : Nat × α → Bool) (a : above j t = true) : above j (t.filter p) = true := by
  induction t with
  | nil => rfl
  | cons e r ih =>
    obtain ⟨i, v⟩ := e; simp [above] at a
    by_cases h : p (i, v) = true
    · simp [List.filter, h, above, a.1, ih a.2]
    · simp [List.filter, h, ih a.2]

theorem look_above (d : Nat → α) (t : Tab α) (k : Nat) (a : above k t = true) : look d t k = d k := by
  induction t with
  | nil => rfl
  | cons e r ih =>
    obtain ⟨i, v⟩ := e; simp [above] at a
    have : i ≠ k := by omega
    simp [look, this, ih a.2]

variable [DecidableEq α]

/-- A written key reads back the value written. -/
@[simp] theorem look_put (d : Nat → α) (t : Tab α) (k : Nat) (v : α) : look d (put d t k v) k = v := by
  unfold put
  split
  · rename_i h; rw [look_drop_same, h]
  · exact look_ins_same d _ k v (Or.inr (mem_drop t k))

/-- Every other key reads as before. -/
theorem look_put_other (d : Nat → α) (t : Tab α) (k i : Nat) (v : α) (h : i ≠ k) : look d (put d t k v) i = look d t i := by
  unfold put
  split
  · exact look_drop_other d t k i h
  · rw [look_ins_other _ _ _ _ _ h, look_drop_other _ _ _ _ h]

theorem wf_drop (d : Nat → α) (t : Tab α) (k : Nat) (h : wf d t = true) : wf d (drop t k) = true := by
  induction t with
  | nil => rfl
  | cons e r ih =>
    obtain ⟨i, v⟩ := e; simp [wf] at h
    by_cases hi : i = k
    · simpa [drop, hi] using ih h.2
    · simp [drop, hi, wf, h.1.2, ih h.2, above_drop r i k h.1.1]

theorem wf_ins (d : Nat → α) (t : Tab α) (k : Nat) (v : α) (h : wf d t = true) (hk : ∀ e ∈ t, e.1 ≠ k) (hv : v ≠ d k) :
    wf d (ins t k v) = true := by
  induction t with
  | nil => simp [ins, wf, above, hv]
  | cons e r ih =>
    obtain ⟨i, x⟩ := e; simp [wf] at h
    have hi : i ≠ k := hk (i, x) (by simp)
    simp only [ins]; split
    · rename_i hlt
      simp [wf, above, h.1.1, h.1.2, h.2, hv, hlt, above_trans hlt r h.1.1]
    · rename_i hge
      simp [wf, h.1.2, ih h.2 (fun e he => hk e (by simp [he])), above_ins r i k v h.1.1 (by omega)]

/-- A write keeps the canonical form. -/
theorem wf_put (d : Nat → α) (t : Tab α) (k : Nat) (v : α) (h : wf d t = true) : wf d (put d t k v) = true := by
  unfold put
  split
  · exact wf_drop d t k h
  · rename_i hv; exact wf_ins d _ k v (wf_drop d t k h) (mem_drop t k) hv

/-- Leaving entries out keeps the canonical form. -/
theorem wf_filter (d : Nat → α) (t : Tab α) (p : Nat × α → Bool) (h : wf d t = true) : wf d (t.filter p) = true := by
  induction t with
  | nil => rfl
  | cons e r ih =>
    obtain ⟨i, v⟩ := e; simp [wf] at h
    by_cases hp : p (i, v) = true
    · simp [List.filter, hp, wf, h.1.2, ih h.2, above_filter r i p h.1.1]
    · simp [List.filter, hp, ih h.2]

theorem look_filter (d : Nat → α) (t : Tab α) (p : Nat → Bool) (k : Nat) (h : wf d t = true) :
    look d (t.filter (fun e => p e.1)) k = if p k then look d t k else d k := by
  induction t with
  | nil => simp [look]
  | cons e r ih =>
    obtain ⟨i, v⟩ := e; simp [wf] at h
    by_cases hi : i = k
    · subst hi
      by_cases hp : p i = true
      · simp [List.filter, hp, look]
      · have := ih h.2
        rw [look_above d r i h.1.1] at this
        simp [List.filter, hp]; simpa [hp] using this
    · by_cases hp : p i = true
      · simp [List.filter, hp, look, hi, ih h.2]
      · simp [List.filter, hp, look, hi, ih h.2]

end Tab
end Sys2Proof
end

