-- ==== Sys2Proof/Laws/Ops.lean ====
section
/-! SUPPORT. What each shared operation leaves to read: registers and fields of the wafer and the supervisor, ribbon
registers, memory byte by byte, and the canonical form of memory. -/

namespace Sys2Proof.Machine

/-- Memory outside [a, a + n) reads as before a store of n bytes at a. -/
theorem Memory.read_writeN_outside (m : Memory) (a : Nat) (l : List Byte) (x : Nat) (h : x < a ∨ a + l.length ≤ x) :
    Memory.read (Memory.writeN m a l) x = Memory.read m x := by
  induction l generalizing m a with
  | nil => rfl
  | cons b r ih =>
    simp only [List.length_cons] at h
    rw [Memory.writeN, ih (m.write a b) (a + 1) (by omega), Memory.read, Memory.write]
    exact Tab.look_put_other _ _ _ _ _ (by omega)

/-- Byte i of a stored list is read back at a + i. -/
theorem Memory.read_writeN_inside (m : Memory) (a : Nat) (l : List Byte) (i : Nat) (h : i < l.length) :
    Memory.read (Memory.writeN m a l) (a + i) = l[i] := by
  induction l generalizing m a i with
  | nil => simp at h
  | cons b r ih =>
    rw [Memory.writeN]
    cases i with
    | zero =>
      rw [Memory.read_writeN_outside _ _ _ _ (by omega)]
      exact Tab.look_put _ _ _ _
    | succ j =>
      have := ih (m.write a b) (a + 1) j (by simpa using h)
      rw [show a + (j + 1) = a + 1 + j by omega, this]; rfl

theorem Memory.wf_write (m : Memory) (a : Nat) (v : Byte) (h : m.wf = true) : (m.write a v).wf = true :=
  Tab.wf_put memDefault m a v h

theorem Memory.wf_writeN (m : Memory) (a : Nat) (l : List Byte) (h : m.wf = true) : (m.writeN a l).wf = true := by
  induction l generalizing m a with
  | nil => exact h
  | cons b r ih => exact ih _ _ (Memory.wf_write m a b h)

theorem Memory.wf_zero (m : Memory) (a n : Nat) (h : m.wf = true) : (m.zero a n).wf = true :=
  Tab.wf_filter memDefault m _ h

theorem Memory.wf_place (m : Memory) (s d : Nat) (l : List Host.Cell) (h : m.wf = true) : (m.place s d l).wf = true := by
  induction l generalizing m with
  | nil => exact h
  | cons c r ih => exact ih _ (Memory.wf_write m _ _ h)

theorem Memory.wf_copy (m : Memory) (s d n : Nat) (h : m.wf = true) : (m.copy s d n).wf = true :=
  Memory.wf_place _ _ _ _ (Memory.wf_zero m d n h)

/-- Zeroed bytes read 0; every other byte reads as before. -/
theorem Memory.read_zero (m : Memory) (a n x : Nat) (h : m.wf = true) :
    (m.zero a n).read x = if x < a ∨ a + n ≤ x then m.read x else 0 := by
  have := Tab.look_filter memDefault m (fun k => decide (k < a) || decide (a + n ≤ k)) x h
  simp only [Memory.zero, Memory.read]
  rw [this]; simp [memDefault]

namespace Wafer

theorem wf_store (w : Wafer) (a : Nat) (l : List Byte) (h : Memory.wf w.mem = true) : Memory.wf (w.store a l).mem = true :=
  Memory.wf_writeN _ _ _ h

theorem wf_zero (w : Wafer) (a n : Nat) (h : Memory.wf w.mem = true) : Memory.wf (w.zero a n).mem = true :=
  Memory.wf_zero _ _ _ h

theorem wf_copy (w : Wafer) (s d n : Nat) (h : Memory.wf w.mem = true) : Memory.wf (w.copy s d n).mem = true :=
  Memory.wf_copy _ _ _ _ h

theorem byte_store_outside (w : Wafer) (a : Nat) (l : List Byte) (x : Nat) (h : x < a ∨ a + l.length ≤ x) :
    (w.store a l).byte x = w.byte x := Memory.read_writeN_outside _ _ _ _ h

theorem byte_store_inside (w : Wafer) (a : Nat) (l : List Byte) (i : Nat) (h : i < l.length) :
    (w.store a l).byte (a + i) = l[i] := Memory.read_writeN_inside _ _ _ _ h

/-! ### Registers -/

@[simp] theorem reg_setReg (w : Wafer) (k : Nat) (v : Word) : (w.setReg k v).reg k = v := Tab.look_put _ _ _ _

theorem reg_setReg_other (w : Wafer) (k i : Nat) (v : Word) (h : i ≠ k) : (w.setReg k v).reg i = w.reg i :=
  Tab.look_put_other _ _ _ _ _ h

theorem reg_set_other (w : Wafer) (b : Nat) (f : Fld) (x i : Nat) (h : i ≠ b + f.off) : (w.set b f x).reg i = w.reg i :=
  reg_setReg_other _ _ _ _ h

/-- A field set reads back its value, cut to its width. -/
theorem get_set (w : Wafer) (b : Nat) (f : Fld) (x : Nat) (h : f.lo + f.w ≤ 64) : (w.set b f x).get b f = x % 2 ^ f.w := by
  simp [set, get, getF_putF _ _ _ _ h]

/-- A field of another register reads as before. -/
theorem get_set_reg (w : Wafer) (b c : Nat) (f g : Fld) (x : Nat) (h : c + g.off ≠ b + f.off) :
    (w.set b f x).get c g = w.get c g := by
  simp [get, reg_set_other _ _ _ _ _ h]

/-- A field beside the one set, in the same register, reads as before. -/
theorem get_set_field (w : Wafer) (b : Nat) (f g : Fld) (x : Nat) (h : f.lo + f.w ≤ 64) (e : g.off = f.off)
    (d : g.lo + g.w ≤ f.lo ∨ f.lo + f.w ≤ g.lo) : (w.set b f x).get b g = w.get b g := by
  simp only [get, set, e, reg_setReg]
  rcases d with d | d
  · exact getF_putF_below _ _ _ _ _ _ h d
  · exact getF_putF_above _ _ _ _ _ _ h d

theorem get_latch (w : Wafer) (b : Nat) (f : Fld) (h : f.lo + f.w ≤ 64) (h1 : 0 < f.w) : (w.latch b f).get b f = 1 := by
  rw [latch, get_set _ _ _ _ h, Nat.mod_eq_of_lt (Nat.one_lt_two_pow (by omega))]

theorem get_bump (w : Wafer) (b : Nat) (f : Fld) (h : f.lo + f.w ≤ 64) : (w.bump b f).get b f = satInc f.w (w.get b f) := by
  rw [bump, get_set _ _ _ _ h, Nat.mod_eq_of_lt]
  have := Nat.two_pow_pos f.w
  unfold satInc; split <;> omega

/-! ### Reads that an update of something else leaves alone -/

theorem reg_congr {w v : Wafer} (h : w.regs = v.regs) (k : Nat) : w.reg k = v.reg k := by simp [reg, h]

theorem get_congr {w v : Wafer} (h : w.regs = v.regs) (b : Nat) (f : Fld) : w.get b f = v.get b f := by simp [get, reg, h]

theorem byte_congr {w v : Wafer} (h : w.mem = v.mem) (a : Nat) : w.byte a = v.byte a := by simp [byte, h]

theorem active_congr {w v : Wafer} (h : w.col = v.col) (d : Nat) : w.active d = v.active d := by
  simp [active, nodeOf, dieInfo, h]

/-! ### Ribbon registers -/

@[simp] theorem rib32_setRib32 (w : Wafer) (k : Nat) (v : BitVec 32) : (w.setRib32 k v).rib32 k = v := Tab.look_put _ _ _ _

theorem rib32_setRib32_other (w : Wafer) (k i : Nat) (v : BitVec 32) (h : i ≠ k) : (w.setRib32 k v).rib32 i = w.rib32 i :=
  Tab.look_put_other _ _ _ _ _ h

/-- A status-log entry changes the log, and the alert registers when it is an error. -/
theorem logEntry_frame (w : Wafer) (sev what arg : Nat) :
    (w.logEntry sev what arg).regs = w.regs ∧ (w.logEntry sev what arg).mem = w.mem ∧
    (w.logEntry sev what arg).log = w.log ++ [{ sev := sev, what := what, arg := arg }] := by
  unfold logEntry; split <;> simp

end Wafer

namespace Sup

@[simp] theorem reg_setReg (p : Sup) (o : Nat) (v : Word) : (p.setReg o v).reg o = v := Tab.look_put _ _ _ _

theorem reg_setReg_other (p : Sup) (o i : Nat) (v : Word) (h : i ≠ o) : (p.setReg o v).reg i = p.reg i :=
  Tab.look_put_other _ _ _ _ _ h

theorem get_set (p : Sup) (f : Fld) (x : Nat) (h : f.lo + f.w ≤ 64) : (p.set f x).get f = x % 2 ^ f.w := by
  simp [set, get, getF_putF _ _ _ _ h]

theorem get_set_reg (p : Sup) (f g : Fld) (x : Nat) (h : g.off ≠ f.off) : (p.set f x).get g = p.get g := by
  simp [get, set, reg_setReg_other _ _ _ _ h]

theorem get_set_field (p : Sup) (f g : Fld) (x : Nat) (h : f.lo + f.w ≤ 64) (e : g.off = f.off)
    (d : g.lo + g.w ≤ f.lo ∨ f.lo + f.w ≤ g.lo) : (p.set f x).get g = p.get g := by
  simp only [get, set, e, reg_setReg]
  rcases d with d | d
  · exact getF_putF_below _ _ _ _ _ _ h d
  · exact getF_putF_above _ _ _ _ _ _ h d

end Sup

namespace State

/-- Latching a supervisor event changes that bit of MOD_EVENT and, at most, the ribbon's alert registers. -/
theorem modEvent_frame (s : State) (f : Fld) :
    (s.modEvent f).pending = s.pending ∧ (s.modEvent f).sup = s.sup.set f 1 ∧
    (s.modEvent f).waf.regs = s.waf.regs ∧ (s.modEvent f).waf.mem = s.waf.mem := by
  unfold modEvent; simp only; split <;> simp

end State
end Sys2Proof.Machine
end

