-- ==== Sys2Proof/Tests/Slice0.lean ====
section
/-! SUPPORT. Tests. A theorem wit_<Statement>_<n> gives a state and operands that meet the hypotheses of clause n of the
statement, at boundary values where there are any; a theorem test_<what> checks one effect, its expected value worked out
by hand from the rule it names, or a check of well-formedness. -/

namespace Sys2Proof.Tests
open Sys2Proof Sys2Proof.Machine Sys2Proof.Machine.Wafer
set_option maxRecDepth 20000
set_option Elab.async false

/-- A die in service. -/
def dieUp : DieInfo := { state := 1, reason := 0, code := 0, hbmBad := false }

/-- A small wafer in service: logical sites 0–2, every edge die, PHASE 3, Unhal running. -/
def w0 : Wafer :=
  { Wafer.init [] with
    now := 1000000
    col := { Col.init with
      phase := 3, served := true, reached := true, sites := [2, 3, 14]
      dies := [(2, dieUp), (3, dieUp), (14, dieUp), (144, dieUp), (145, dieUp), (146, dieUp), (152, dieUp)]
      boot := { Boot.init with running := true, ready := true } } }

/-- The module with power on and internal reset released. -/
def p0 : Sup :=
  { Sup.init with running := true, power := .on, planes := 15, inReset := false, clock := 100000000, regs := [(0x10, 1)] }

def s0 : State := { pending := [], sup := p0, waf := w0 }

/-- s0 with a change of the wafer. -/
def on (f : Wafer → Wafer) : State := s0.onWafer f

/-- s0 with a change of the supervisor. -/
def press (f : Sup → Sup) : State := s0.onSup f

/-- The supervisor with planes off. -/
def off (p : Power) (s : Sup) : Sup := { s with power := p, planes := 0, inReset := true, regs := [] }

namespace A

/-- A stamp of counter 16: type 0xF5, 0x11, counter 0x10, sequence 0, position 0x123456789ABC, with its CRC. -/
def stamp0 : List Byte := [0xF5, 0x11, 0x10, 0, 0x12, 0x34, 0x56, 0x78, 0x9A, 0xBC, 0, 0, 0, 0]
def stamp : List Byte := stamp0 ++ toBE 2 (stampCrc stamp0)

/-- A beacon of edge die 1 on its way to site 0. -/
def beacon : Beacon :=
  { edge := 1, sample := 999950, words := List.replicate 16 0x0001000000000005, heldIdx := 0, held := 7, sites := [0] }

theorem wit_IdleTickCountsClocks_1 : ∃ (s : State),
    s.pending = [] :=
  ⟨s0, by decide +kernel⟩

theorem wit_FolioSourcesSetPosition_1 : ∃ (s : State) (e : Fin 16) (j : Fin 16) (held0 : Nat) (_held1 : Nat) (_lv1 : Bool),
    s.waf.active (128 + e.val) = true ∧
    s.waf.cntSource (e.val * 16 + j.val) = 1 ∧
    s.waf.get (cntBlk (e.val * 16 + j.val)) F.FOL_CNT_CFG.TICK_INPUT = 0 ∧
    (s.waf.cnt (e.val * 16 + j.val)).q0 = false ∧
    s.waf.get (cntBlk (e.val * 16 + j.val)) F.FOL_CNT_CFG.GLITCH ≤ held0 :=
  ⟨on fun w => w.set (cntBlk 16) F.FOL_CNT_CFG.SOURCE 1, 1, 0, 2000, 0, false, by decide +kernel⟩

theorem wit_FolioSourcesSetPosition_2 : ∃ (s : State) (e : Fin 16) (_path : StampPath) (l : List Byte),
    s.waf.active (128 + e.val) = true ∧
    l.length = 16 ∧
    stampCrc l = fromBE ((l.drop 14).take 2) ∧
    leAt l 0 1 = 0xF5 ∧
    leAt l 1 1 = 0x11 ∧
    leAt l 2 1 / 16 = e.val ∧
    s.waf.cntSource (leAt l 2 1) = 4 :=
  ⟨on fun w => w.set (cntBlk 16) F.FOL_CNT_CFG.SOURCE 4, 1, .eth 0, stamp, by decide +kernel⟩

theorem wit_FolioSourcesSetPosition_3 : ∃ (s : State) (e : Fin 16) (j : Fin 16),
    s.waf.active (128 + e.val) = true ∧
    s.waf.refcount (128 + e.val) % 100 = 0 ∧
    s.waf.cntSource (e.val * 16 + j.val) = 5 ∧
    s.waf.get (cntBlk (e.val * 16 + j.val)) F.FOL_CNT_CFG.DERIVED_RUN = 1 :=
  ⟨on fun w => ((w.set (cntBlk 31) F.FOL_CNT_CFG.SOURCE 5).set (cntBlk 31) F.FOL_CNT_CFG.DERIVED_RUN 1).setReg (cntBlk 31 + 0x30) 0x180000000, 1, 15, by decide +kernel⟩

theorem wit_FolioSourcesSetPosition_4 : ∃ (_s : State) (src : Src) (_c : Fin 256) (_v : BitVec 64),
    configSrc src = true :=
  ⟨s0, .unhal, 255, 0xFFFF123456789ABC, by decide +kernel⟩

theorem wit_FolioSourcesSetPosition_5 : ∃ (_s : State) (src : Src) (_c : Fin 256) (_v : BitVec 64),
    configSrc src = true :=
  ⟨s0, .ribbon, 255, 0x0000100000100105, by decide +kernel⟩

theorem wit_FolioSourcesSetPosition_6 : ∃ (_s : State) (src : Src) (_c : Fin 256) (_v : BitVec 64),
    configSrc src = true :=
  ⟨s0, .unhal, 17, 0x123456789, by decide +kernel⟩

theorem wit_FolioSourcesSetPosition_7 : ∃ (_s : State) (src : Src) (_c : Fin 256),
    configSrc src = true :=
  ⟨on fun w => w.setReg (cntBlk 3 + 0x48) 0xFFFFFFFFFFFFFFFF, .unhal, 3, by decide +kernel⟩

theorem wit_BeaconsAndStaleness_1 : ∃ (s : State) (e : Fin 16),
    s.waf.active (128 + e.val) = true ∧
    s.waf.col.reached = true ∧
    s.waf.refcount (128 + e.val) % 100 = 0 :=
  ⟨s0, 2, by decide +kernel⟩

theorem wit_BeaconsAndStaleness_2 : ∃ (s : State) (i : Fin 128) (e : Fin 16) (n : BitVec 64) (x : Beacon),
    s.waf.fol.beacons = [x] ∧
    x.edge = e.val ∧
    x.sample = n.toNat ∧
    x.sites.contains i.val = true ∧
    x.words.length = 16 ∧
    x.heldIdx < 16 ∧
    s.waf.active i.val = true ∧
    s.waf.lastSeen i.val e.val < x.sample ∧
    s.waf.refcount i.val ≤ x.sample + 200 ∧
    s.waf.cmds = [] ∧
    ((∀ a, a < 256 → s.waf.get (almBlk i.val a) F.FOL_ALM_CFG.ENABLE = 0)) :=
  ⟨on fun w => { w with fol := { w.fol with beacons := [beacon] } }, 0, 1, 999950, beacon, by decide +kernel⟩

theorem wit_BeaconsAndStaleness_3 : ∃ (s : State) (i : Fin 128) (e : Fin 16),
    s.waf.lastSeen i.val e.val + 200 < s.waf.refcount i.val :=
  ⟨on fun w => { w with now := 201 }, 2, 1, by decide +kernel⟩

theorem wit_BeaconsAndStaleness_4 : ∃ (s : State) (i : Fin 128) (e : Fin 16),
    s.waf.get (imgKey i.val (e.val * 16)) F.FOL_IMG.STALE = 1 ∧
    Tab.look (fun _ => 1) s.waf.fol.staleSince (i.val * 16 + e.val) ≠ 0 ∧
    Tab.look (fun _ => 1) s.waf.fol.staleSince (i.val * 16 + e.val) - 1 + ms 10 ≤ s.waf.refcount i.val :=
  ⟨on fun w => { w.set (imgKey 2 16) F.FOL_IMG.STALE 1 with fol := { w.fol with staleSince := [(33, 1)] } }, 2, 1, by decide +kernel⟩

theorem wit_BeaconsAndStaleness_5 : ∃ (s : State) (c : Fin 256),
    s.waf.stallDue c.val = true :=
  ⟨on fun w => w.setReg (cntBlk 5) 0x100100101, 5, by decide +kernel⟩

theorem wit_AlarmWriteOnlyByOwner_1 : ∃ (s : State) (src : Src) (i : Fin 128) (a : Fin 256) (_v : BitVec 64),
    s.waf.active i.val = true ∧
    s.waf.almAllowed src i.val a.val = true :=
  ⟨on fun w => w.set (almBlk 2 255) F.FOL_ALM_CFG.VOLUME 3, .volume 3, 2, 255, 0xFFFFFFFFFFFFFFFF, by decide +kernel⟩

theorem wit_AlarmWriteOnlyByOwner_2 : ∃ (s : State) (vol : Fin 64) (i : Fin 128) (a : Fin 256) (_r : Fin 5) (_v : BitVec 64),
    vol.val ≠ s.waf.get (almBlk i.val a.val) F.FOL_ALM_CFG.VOLUME :=
  ⟨on fun w => w.set (almBlk 2 0) F.FOL_ALM_CFG.VOLUME 3, 4, 2, 0, 1, 5, by decide +kernel⟩

theorem wit_PowerSequence_1 : ∃ (s : State) (v : Inputs4),
    s.sup.running = false ∧
    entriesAny v (fun x => 2000 < x) = true :=
  ⟨State.reset, ⟨2001, 0, 0, 0⟩, by decide +kernel⟩

theorem wit_PowerSequence_2 : ∃ (s : State) (v : Inputs4),
    s.sup.running = true ∧
    s.sup.power = .off ∧
    entriesAll v (fun x => 4300 ≤ x) = true :=
  ⟨press (off .off), ⟨4300, 4300, 5400, 4300⟩, by decide +kernel⟩

theorem wit_PowerSequence_3 : ∃ (s : State),
    s.sup.power = .on ∧
    s.sup.inReset = true ∧
    ((s.sup.refValidFor false 1000 = true ∨ s.sup.refValidFor true 1000 = true)) :=
  ⟨press fun p => { p with inReset := true, regs := Tab.put Sup.regReset p.regs F.MOD_PWR_STAT.REFA_OK.off (p.set F.MOD_PWR_STAT.REFA_OK 1 |>.reg F.MOD_PWR_STAT.REFA_OK.off) }, by decide +kernel⟩

theorem wit_PowerSequence_4 : ∃ (s : State) (_g : Fin 4),
    s.sup.running = true ∧
    s.sup.power = .off :=
  ⟨press (off .off), 3, by decide +kernel⟩

theorem wit_PowerSequence_5 : ∃ (s : State) (t0 : Nat),
    s.sup.power = .railWait t0 ∧
    t0 + ms 1000 ≤ s.sup.clock :=
  ⟨press (off (.railWait 0)), 0, by decide +kernel⟩

theorem wit_PowerSequence_6 : ∃ (s : State) (v : Inputs4),
    s.sup.running = true ∧
    entriesAll v (fun x => x < 2000) = true :=
  ⟨s0, ⟨1999, 1999, 0, 1999⟩, by decide +kernel⟩

theorem wit_PowerLossAndReturn_1 : ∃ (s : State) (b : BitVec 16) (n : Fin 5),
    s.sup.power = .on ∧
    ((b.toNat < 4200 ∨ 2 ≤ n.val)) :=
  ⟨s0, 4199, 0, by decide +kernel⟩

theorem wit_PowerLossAndReturn_1b : ∃ (s : State) (b : BitVec 16) (n : Fin 5),
    s.sup.power = .on ∧
    ((b.toNat < 4200 ∨ 2 ≤ n.val)) :=
  ⟨s0, 5400, 2, by decide +kernel⟩

theorem wit_PowerLossAndReturn_2 : ∃ (s : State) (v : Inputs4) (us : Nat),
    s.sup.power = .failed ∧
    entriesAll v (fun x => 4300 ≤ x) = true ∧
    100000 ≤ us :=
  ⟨press (off .failed), ⟨4300, 4300, 4300, 4300⟩, 100000, by decide +kernel⟩

theorem wit_PowerLossAndReturn_3 : ∃ (s : State) (_e : Fin 4) (v : BitVec 16) (us : Nat),
    s.sup.running = true ∧
    5900 < v.toNat ∧
    10 ≤ us :=
  ⟨s0, 3, 5901, 10, by decide +kernel⟩

theorem wit_PowerLossAndReturn_4 : ∃ (s : State) (e : Fin 4) (v : BitVec 16) (rev : Bool),
    s.sup.power = .on ∧
    Nat.testBit s.sup.entriesOk e.val = true ∧
    ((v.toNat < 4000 ∨ rev = true)) :=
  ⟨press fun p => p.set F.MOD_PWR_STAT.ENTRY_OK 15, 2, 3999, false, by decide +kernel⟩

theorem wit_PowerLossAndReturn_5 : ∃ (s : State) (e : Fin 4) (v : BitVec 16) (us : Nat),
    s.sup.power = .on ∧
    Nat.testBit s.sup.entriesOk e.val = false ∧
    4400 ≤ v.toNat ∧
    v.toNat ≤ 5800 ∧
    1000000 ≤ us :=
  ⟨press fun p => p.set F.MOD_PWR_STAT.ENTRY_OK 11, 2, 4400, 1000000, by decide +kernel⟩

theorem wit_PowerLossAndReturn_6 : ∃ (s : State) (_e : Fin 4) (v : BitVec 16) (us : Nat),
    s.sup.running = true ∧
    v.toNat < 4400 ∧
    100 ≤ us :=
  ⟨s0, 1, 4399, 100, by decide +kernel⟩

theorem wit_References_1 : ∃ (s : State) (b : Bool) (ppm : Nat) (us : Nat),
    s.sup.running = true ∧
    ppm ≤ 100 ∧
    1000 ≤ us ∧
    s.sup.refOk b = false :=
  ⟨s0, true, 100, 1000, by decide +kernel⟩

theorem wit_References_2 : ∃ (s : State) (b : Bool) (n : Nat),
    s.sup.running = true ∧
    4 ≤ n ∧
    s.sup.refOk b = true :=
  ⟨press fun p => p.set F.MOD_PWR_STAT.REFB_OK 1, true, 4, by decide +kernel⟩

theorem wit_References_3 : ∃ (s : State),
    s.sup.running = true ∧
    s.sup.refOk (s.sup.flag F.MOD_PWR_STAT.REF_SEL) = false ∧
    s.sup.refOk (!s.sup.flag F.MOD_PWR_STAT.REF_SEL) = true :=
  ⟨press fun p => p.set F.MOD_PWR_STAT.REFB_OK 1, by decide +kernel⟩

theorem wit_References_4 : ∃ (s : State) (b : Bool),
    s.sup.running = true ∧
    s.namedRef = some b ∧
    s.sup.refValidFor b 1000000 = true ∧
    s.sup.flag F.MOD_PWR_STAT.REF_SEL ≠ b :=
  ⟨press fun p => p.set F.MOD_PWR_STAT.REFB_OK 1 |>.set F.MOD_CLK_CFG.REF_MODE 1, true, by decide +kernel⟩

theorem wit_References_5 : ∃ (s : State) (us : Nat),
    s.sup.power = .on ∧
    s.sup.refOk false = false ∧
    s.sup.refOk true = false ∧
    10 ≤ us :=
  ⟨s0, 10, by decide +kernel⟩

theorem wit_References_6 : ∃ (s : State) (src : Src) (_via8 : Bool) (v : BitVec 64),
    s.sup.running = true ∧
    configSrc src = true ∧
    getF v 0 2 ≠ 3 :=
  ⟨s0, .unhal, true, 2, by decide +kernel⟩

theorem wit_CoolantTripsAndResets_1 : ∃ (s : State) (i : BitVec 16) (_o : BitVec 16) (f : BitVec 16) (_leak : Bool),
    s.sup.running = true ∧
    s.sup.power = .on ∧
    s.sup.entryCap = false ∧
    Sup.capFor i.toInt f.toNat < s.sup.coolCap :=
  ⟨s0, 600, 700, 1999, false, by decide +kernel⟩

theorem wit_CoolantTripsAndResets_2 : ∃ (s : State) (t0 : Nat) (m : Nat),
    s.sup.running = true ∧
    s.sup.capClear = some (t0, m) ∧
    t0 + ms 10000 ≤ s.sup.clock :=
  ⟨press fun p => { p with clock := 1000000000, capClear := some (0, 17) }, 0, 17, by decide +kernel⟩

theorem wit_CoolantTripsAndResets_3 : ∃ (s : State) (c : BitVec 7) (_die : BitVec 8),
    s.sup.running = true ∧
    s.sup.power ≠ .tripped ∧
    c.toNat % 8 ≠ 0 :=
  ⟨s0, 1, 7, by decide +kernel⟩

theorem wit_CoolantTripsAndResets_4 : ∃ (s : State) (a : Nat) (b : Nat),
    s.sup.power = .tripped ∧
    10000 ≤ a ∧
    10000000 ≤ b ∧
    s.sup.coolantClear = true ∧
    s.sup.flag F.MOD_PWR_STAT.OV_LATCH = false :=
  ⟨press (off .tripped), 10000, 10000000, by decide +kernel⟩

theorem wit_CoolantTripsAndResets_5 : ∃ (s : State) (ns : Nat),
    s.sup.power = .on ∧
    1000 ≤ ns :=
  ⟨s0, 1000, by decide +kernel⟩

theorem wit_CoolantTripsAndResets_6 : ∃ (s : State) (t0 : Nat),
    s.sup.resetDue = some t0 ∧
    t0 ≤ s.sup.clock :=
  ⟨press fun p => { p with resetDue := some 100000000 }, 100000000, by decide +kernel⟩

end A

namespace B

/-- Port B holds the lease. -/
def held (f : Wafer → Wafer) : State :=
  on fun w => f { w with rib := { w.rib with holder := some .b, key := 0x1234, expiry := 2000000 } }

/-- A window access in flight on window 1. -/
def win1 (a : WinAcc) (w : Wafer) : Wafer := { w with rib := { w.rib with win1 := { Win.init with acc := some a } } }

/-- A wafer in collation. -/
def early (ph : Nat) (f : Wafer → Wafer) : State :=
  on fun w => f { w with now := 100, col := { Col.init with phase := ph, dies := allDies.map fun n => (n, dieUp) } }

/-- All is well as the dies see it. -/
def inp0 : CollIn :=
  { root0 := true, root8 := true, crosslink := true, fusesEqual := true, selftest := [], stages := [], straps := [],
    wires := [], latency := [], silent := [], hbmFail := [] }

def whole : State := early 2 fun w => { w with col := { w.col with sites := allDies.filter (· < 144) } }

/-- The dies that root 144 reaches there. -/
def found : List Nat := whole.waf.reachable

theorem wit_RibbonReadsAndFrames_1 : ∃ (s : State) (p : RibPort) (_tag : BitVec 4),
    portOpen s p :=
  ⟨s0, .a, 15, by decide +kernel⟩

theorem wit_RibbonReadsAndFrames_2 : ∃ (s : State) (p : RibPort) (_tag : BitVec 4) (_a : BitVec 8) (_d : BitVec 32),
    portOpen s p :=
  ⟨s0, .b, 3, 0xFF, 0xDEADBEEF, by decide +kernel⟩

theorem wit_RibbonReadsAndFrames_3 : ∃ (s : State) (p : RibPort) (_tag : BitVec 4),
    portOpen s p :=
  ⟨s0, .a, 0, by decide +kernel⟩

theorem wit_RibbonReadsAndFrames_4 : ∃ (s : State) (p : RibPort) (n : Nat),
    n < 56 ∧
    s.sup.inReset = false ∧
    s.portServed p = true :=
  ⟨s0, .a, 55, by decide +kernel⟩

theorem wit_RibbonReadsAndFrames_5 : ∃ (s : State) (p : RibPort) (us : Nat),
    10000 < us ∧
    s.sup.inReset = false ∧
    s.portServed p = true :=
  ⟨s0, .b, 10001, by decide +kernel⟩

theorem wit_RibbonReadsAndFrames_6 : ∃ (s : State) (p : RibPort) (f : BitVec 56),
    portOpen s p ∧
    ribbonCrc f.toNat 55 ≠ f.toNat % 256 :=
  ⟨s0, .a, 0x2010, by decide +kernel⟩

theorem wit_RibbonReadsAndFrames_7 : ∃ (s : State) (p : RibPort) (_tag : BitVec 4) (_i : Fin 4),
    portOpen s p :=
  ⟨s0, .a, 1, 3, by decide +kernel⟩

theorem wit_RibbonReadsAndFrames_8 : ∃ (s : State) (p : RibPort) (n : Nat),
    s.sup.inReset = false ∧
    (match p with | .a => s.waf.rib.frameB | .b => s.waf.rib.frameA) = some n ∧
    n ≤ s.waf.now ∧
    s.waf.now ≤ n + ms 1000 ∧
    (s.waf.rib32 (Wafer.ribKey p 0x0E)).getLsbD 0 = false :=
  ⟨on fun w => { w with now := 100000000, rib := { w.rib with frameB := some 0 } }, .a, 0, by decide +kernel⟩

theorem wit_RibbonWrites_1 : ∃ (s : State) (p : RibPort) (_tag : BitVec 4) (_d : BitVec 32),
    portOpen s p :=
  ⟨s0, .b, 1, 0xFFFFFFFF, by decide +kernel⟩

theorem wit_RibbonWrites_2 : ∃ (s : State) (p : RibPort) (_tag : BitVec 4) (_d : BitVec 32),
    portOpen s p ∧
    s.waf.rib.holder ≠ some p ∧
    s.waf.col.reached = true :=
  ⟨s0, .b, 1, 100, by decide +kernel⟩

theorem wit_RibbonWrites_3 : ∃ (s : State) (p : RibPort) (_tag : BitVec 4) (d : BitVec 32),
    portHolds s p ∧
    Wafer.lveOk 0x48 d = true :=
  ⟨held id, .b, 1, 2000, by decide +kernel⟩

theorem wit_RibbonWrites_4 : ∃ (s : State) (p : RibPort) (_tag : BitVec 4),
    portOpen s p :=
  ⟨s0, .a, 9, by decide +kernel⟩

theorem wit_LeaseRules_1 : ∃ (s : State) (p : RibPort) (_tag : BitVec 4) (_key : BitVec 16),
    portOpen s p ∧
    s.waf.rib.holder = none :=
  ⟨s0, .a, 2, 0xFFFF, by decide +kernel⟩

theorem wit_LeaseRules_2 : ∃ (s : State) (p : RibPort) (_tag : BitVec 4) (_key : BitVec 16) (q : PeerWrite),
    portOpen s p ∧
    s.waf.rib.holder = none ∧
    get32 q.data 0 2 = 1 :=
  ⟨s0, .a, 2, 0xFFFF, ⟨3, 0x50001⟩, by decide +kernel⟩

theorem wit_LeaseRules_3 : ∃ (s : State) (p : RibPort) (_tag : BitVec 4),
    portOpen s p ∧
    s.waf.rib.holder = some p :=
  ⟨held id, .b, 4, by decide +kernel⟩

theorem wit_LeaseRules_4 : ∃ (s : State) (p : RibPort) (_tag : BitVec 4) (key : BitVec 16),
    portOpen s p ∧
    ((s.waf.rib.holder ≠ some p ∨ s.waf.rib.key ≠ key)) :=
  ⟨held id, .b, 4, 0x1235, by decide +kernel⟩

theorem wit_LeaseRules_4b : ∃ (s : State) (p : RibPort) (_tag : BitVec 4) (key : BitVec 16),
    portOpen s p ∧
    ((s.waf.rib.holder ≠ some p ∨ s.waf.rib.key ≠ key)) :=
  ⟨held id, .a, 4, 0x1234, by decide +kernel⟩

theorem wit_LeaseRules_5 : ∃ (s : State) (p : RibPort) (_tag : BitVec 4),
    portOpen s p ∧
    s.waf.rib.holder = some p :=
  ⟨held id, .b, 4, by decide +kernel⟩

theorem wit_LeaseRules_6 : ∃ (s : State) (p : RibPort),
    s.sup.inReset = false ∧
    s.waf.rib.holder = some p ∧
    s.waf.rib.expiry ≤ s.waf.now :=
  ⟨held fun w => { w with now := 2000000 }, .b, by decide +kernel⟩

theorem wit_WindowAccess_1 : ∃ (s : State) (p : RibPort) (_tag : BitVec 4) (n : Fin 2) (_hi : BitVec 32),
    portOpen s p ∧
    s.waf.winPending n.val = false :=
  ⟨s0, .a, 1, 1, 0x00010000, by decide +kernel⟩

theorem wit_WindowAccess_2 : ∃ (s : State) (p : RibPort) (_tag : BitVec 4) (n : Fin 2) (_hi : BitVec 32),
    portHolds s p ∧
    s.waf.winPending n.val = false :=
  ⟨held id, .b, 1, 0, 7, by decide +kernel⟩

theorem wit_WindowAccess_3 : ∃ (s : State) (p : RibPort) (_tag : BitVec 4) (n : Fin 2) (_hi : BitVec 32),
    portHolds s p ∧
    s.waf.winPending n.val = true :=
  ⟨held (win1 { addr := 0, data := none, since := 999000 }), .b, 1, 1, 7, by decide +kernel⟩

theorem wit_WindowAccess_4 : ∃ (s : State) (p : RibPort) (_tag : BitVec 4) (n : Fin 2) (_i : Bool) (_f : Bool),
    portOpen s p ∧
    s.waf.winPending n.val = false :=
  ⟨s0, .a, 1, 1, true, true, by decide +kernel⟩

theorem wit_WindowAccess_5 : ∃ (s : State) (p : RibPort) (_tag : BitVec 4) (n : Fin 2),
    portOpen s p ∧
    s.waf.winPending n.val = false ∧
    (s.waf.win n.val).faulted = false :=
  ⟨s0, .a, 1, 0, by decide +kernel⟩

theorem wit_WindowAccess_6 : ∃ (s : State) (p : RibPort) (_tag : BitVec 4) (_n : Fin 2) (_i : Bool) (_f : Bool),
    portOpen s p :=
  ⟨held (win1 { addr := 0, data := none, since := 999000 }), .a, 1, 1, false, true, by decide +kernel⟩

theorem wit_WindowAccess_7 : ∃ (s : State) (n : Fin 2) (x : WinAcc) (v : Word),
    s.sup.inReset = false ∧
    (s.waf.win n.val).acc = some x ∧
    x.data = some v ∧
    s.waf.now ≤ x.since + us 50 ∧
    (s.busWrite .ribbon x.addr.toNat (toLE 8 v.toNat)).1 = stOk :=
  ⟨on (win1 { addr := 0x0001000000000100, data := some 5, since := 995000 }), 1, { addr := 0x0001000000000100, data := some 5, since := 995000 }, 5, by decide +kernel⟩

theorem wit_WindowAccess_8 : ∃ (s : State) (n : Fin 2) (x : WinAcc),
    s.sup.inReset = false ∧
    (s.waf.win n.val).acc = some x ∧
    x.since + us 50 ≤ s.waf.now :=
  ⟨on (win1 { addr := 0x0001000000000100, data := some 5, since := 995000 }), 1, { addr := 0x0001000000000100, data := some 5, since := 995000 }, by decide +kernel⟩

theorem wit_RibbonFolioCommands_1 : ∃ (s : State) (p : RibPort) (_tag : BitVec 4),
    portHolds s p ∧
    s.waf.active (128 + (s.waf.rib32 0x50).toNat % 256 / 16) = true :=
  ⟨held fun w => w.setRib32 0x50 31, .b, 1, by decide +kernel⟩

theorem wit_RibbonFolioCommands_2 : ∃ (s : State) (p : RibPort) (_tag : BitVec 4),
    portHolds s p ∧
    s.waf.active (128 + (s.waf.rib32 0x50).toNat % 256 / 16) = true ∧
    Wafer.cfgOk (BitVec.ofNat 64 ((s.waf.rib32 0x51).toNat % 2 ^ 21 + (s.waf.rib32 0x52).toNat * 2 ^ 32)) = true :=
  ⟨held fun w => (w.setRib32 0x50 31).setRib32 0x53 77, .b, 1, by decide +kernel⟩

theorem wit_RibbonFolioCommands_3 : ∃ (s : State) (p : RibPort) (_tag : BitVec 4),
    portHolds s p ∧
    s.waf.active (128 + (s.waf.rib32 0x50).toNat % 256 / 16) = true ∧
    Wafer.cfgOk (BitVec.ofNat 64 ((s.waf.rib32 0x51).toNat % 2 ^ 21 + (s.waf.rib32 0x52).toNat * 2 ^ 32)) = true :=
  ⟨held fun w => (w.setRib32 0x50 31).setRib32 0x51 0x1A0101, .b, 1, by decide +kernel⟩

theorem wit_RibbonResetsAndFences_1 : ∃ (s : State) (p : RibPort) (_tag : BitVec 4),
    portHolds s p :=
  ⟨held id, .b, 1, by decide +kernel⟩

theorem wit_RibbonResetsAndFences_2 : ∃ (s : State) (p : RibPort) (_tag : BitVec 4) (c : BitVec 16),
    portHolds s p ∧
    c ≠ 0xA5C3 :=
  ⟨held id, .b, 1, 0xA5C2, by decide +kernel⟩

theorem wit_RibbonResetsAndFences_3 : ∃ (s : State) (p : RibPort) (_tag : BitVec 4),
    portHolds s p ∧
    (s.waf.rib32 0x31).getLsbD 0 = false ∧
    ((s.waf.col.phase = 3 ∨ s.waf.col.phase = 4)) :=
  ⟨held id, .b, 1, by decide +kernel⟩

theorem wit_RibbonResetsAndFences_4 : ∃ (s : State) (p : RibPort) (_tag : BitVec 4) (i : Fin 128),
    portHolds s p ∧
    (s.waf.rib32 0x31).getLsbD 0 = false ∧
    ((s.waf.col.phase = 3 ∨ s.waf.col.phase = 4)) ∧
    s.waf.active i.val = true ∧
    s.noMirror i.val = false :=
  ⟨held id, .b, 1, 2, by decide +kernel⟩

theorem wit_RibbonResetsAndFences_5 : ∃ (s : State) (p : RibPort) (_tag : BitVec 4) (row : BitVec 4) (col : BitVec 4) (f : Fence),
    portHolds s p ∧
    s.waf.col.phase = 2 ∧
    State.fenceNamed 1 row.toNat col.toNat 0 = some f ∧
    s.sup.fences.any (State.sameFence f) = false ∧
    s.sup.fences.length < 64 :=
  ⟨held fun w => { w with col := { w.col with phase := 2 } }, .b, 1, 3, 4, { kind := 1, rowEdge := 3, col := 4, dir := 0, byRibbon := true, reason := 10 }, by decide +kernel⟩

theorem wit_RibbonResetsAndFences_6 : ∃ (s : State) (p : RibPort) (_tag : BitVec 4) (row : BitVec 4) (col : BitVec 4) (f : Fence),
    portHolds s p ∧
    State.fenceNamed 1 row.toNat col.toNat 0 = some f ∧
    s.sup.fences = [f] :=
  ⟨(held id).onSup fun p => { p with fences := [{ kind := 1, rowEdge := 3, col := 4, dir := 0, byRibbon := true, reason := 10 }] }, .b, 1, 3, 4, { kind := 1, rowEdge := 3, col := 4, dir := 0, byRibbon := true, reason := 10 }, by decide +kernel⟩

theorem wit_CollationAndBoot_1 : ∃ (s : State) (inp : CollIn),
    s.sup.inReset = false ∧
    s.waf.col.phase = 0 ∧
    inp.root0 = true ∧
    inp.root8 = true ∧
    inp.crosslink = true ∧
    inp.fusesEqual = true ∧
    s.waf.col.claims = [] ∧
    s.waf.col.crossDown = false :=
  ⟨early 0 id, inp0, by decide +kernel⟩

theorem wit_CollationAndBoot_2 : ∃ (s : State) (_a : Bool) (_b : Bool) (_c : Bool),
    s.sup.inReset = false ∧
    s.waf.col.phase = 0 ∧
    s.waf.now ≤ ms 1 :=
  ⟨early 0 fun w => { w with now := 100000 }, true, false, true, by decide +kernel⟩

theorem wit_CollationAndBoot_3 : ∃ (s : State) (_a : Bool),
    s.sup.inReset = false ∧
    s.waf.col.phase = 0 ∧
    s.waf.now ≤ us 1010 :=
  ⟨early 0 fun w => { w with now := 101000 }, false, by decide +kernel⟩

theorem wit_CollationAndBoot_4 : ∃ (s : State) (n : Fin 160) (_d : Fin 5) (_x : Nat),
    s.sup.inReset = false ∧
    s.waf.col.phase = 1 ∧
    allDies.contains n.val = true ∧
    tabGet s.waf.col.parents n.val = none ∧
    s.waf.logicalOf n.val = none :=
  ⟨early 1 id, 159, 4, 100000, by decide +kernel⟩

theorem wit_CollationAndBoot_5 : ∃ (s : State) (n : Fin 160) (_r : DieReport) (d : Nat),
    s.sup.inReset = false ∧
    s.waf.col.phase = 1 ∧
    s.waf.now ≤ ms 8 ∧
    tabGet s.waf.col.parents n.val = some d :=
  ⟨early 1 fun w => { w with now := 800000, col := { w.col with parents := [(30, 2)] } }, 30, ⟨false, 30, 0, 1, [(1, 1, 1)]⟩, 2, by decide +kernel⟩

theorem wit_CollationAndBoot_6 : ∃ (s : State) (t0 : Nat),
    s.waf.col.switchAt = some t0 ∧
    t0 ≤ s.waf.now ∧
    s.waf.col.again = false :=
  ⟨on fun w => { w with col := { w.col with switchAt := some 1000000 } }, 1000000, by decide +kernel⟩

theorem wit_CollationAndBoot_7 : ∃ (s : State),
    s.sup.inReset = false ∧
    s.waf.col.phase = 2 ∧
    s.waf.col.boot.running = false ∧
    s.waf.now ≤ s.waf.col.boot.started + ms 500 ∧
    s.waf.sitesActive < 64 :=
  ⟨early 2 fun w => { w with now := 50000000, col := { w.col with dies := [] } }, by decide +kernel⟩

theorem wit_CollationAndBoot_8 : ∃ (s : State) (r : List Nat),
    s.sup.inReset = false ∧
    s.waf.col.phase = 2 ∧
    s.waf.col.boot.running = false ∧
    s.waf.now ≤ s.waf.col.boot.started + ms 500 ∧
    64 ≤ s.waf.sitesActive ∧
    s.sup.fences = [] ∧
    s.waf.reachable = r ∧
    ((∀ n ∈ s.waf.col.sites ++ (List.range 16).map (· + 144), (s.waf.dieInfo n).state = 1 → n ∈ r)) :=
  ⟨whole, found, by decide +kernel⟩

theorem wit_CollationAndBoot_9 : ∃ (s : State),
    s.sup.inReset = false ∧
    s.waf.col.phase = 2 ∧
    s.waf.col.boot.running = false ∧
    s.waf.col.boot.started + ms 500 ≤ s.waf.now ∧
    s.waf.col.boot.triedBoth = true :=
  ⟨early 2 fun w => { w with now := 50000000, col := { w.col with boot := { w.col.boot with triedBoth := true } } }, by decide +kernel⟩

theorem wit_CollationAndBoot_10 : ∃ (s : State) (_d : BitVec 384),
    s.waf.col.boot.running = true ∧
    s.waf.col.measLog.length < 64 :=
  ⟨s0, 77, by decide +kernel⟩

end B

namespace C

/-- A one-flit MEM message to die d of the own wafer. -/
def flitTo (d : Nat) (esc : Bool) : BitVec 544 := mkFlit 4 esc 0 ((d * 2 ^ 52 + 2 ^ 36) * 2 ^ 448)

/-- A LINK flit that acknowledges 4,095, with all credits 0. -/
def linkAck : BitVec 544 := mkFlit 1 false 0 (4095 * 2 ^ 500)

/-- s0 with port k set. -/
def withPort (k : Nat) (p : Port) : State := on fun w => w.setPort k p

/-- A port in service. -/
def up : Port := { Port.init with state := 1 }

/-- The east port of site 0 (node 2), whose far end is node 3. -/
def east : LinkEnd := ⟨0, 1⟩

/-- Spine link 1 with a state, and 16 lanes. -/
def spineAt (st : Nat) (p : Spine) : State :=
  on fun w => ((w.setReg (spineBlk 1) (BitVec.ofNat 64 (st + 65535 * 8))).setSpine 1 p)

/-- A DATA packet of one MEM block. -/
def packet : List Byte :=
  let h := [1, 0, 1, 0] ++ List.replicate 28 0 ++ List.replicate 64 7
  h ++ toLE 8 (spineCrc h) ++ List.replicate 8 0

theorem wit_FlitTransfer_1 : ∃ (s : State) (e : LinkEnd) (k : Nat) (f : BitVec 544),
    s.waf.endKey e = some k ∧
    Wafer.carries (s.waf.port k) = true ∧
    flitGood f = true ∧
    4 ≤ flitKind f ∧
    flitF f 528 12 = (s.waf.port k).expect % 4096 :=
  ⟨withPort 9 up, east, 9, flitTo 1 false, by decide +kernel⟩

theorem wit_FlitTransfer_2 : ∃ (s : State) (e : LinkEnd) (k : Nat) (b : Nat) (f : BitVec 544),
    s.waf.endKey e = some k ∧
    Wafer.carries (s.waf.port k) = true ∧
    s.waf.portRegs k = some b ∧
    flitGood f = false :=
  ⟨withPort 9 up, east, 9, portBlk 0 1, flitTo 1 false + 1, by decide +kernel⟩

theorem wit_FlitTransfer_3 : ∃ (s : State) (e : LinkEnd) (k : Nat) (f : BitVec 544),
    s.waf.endKey e = some k ∧
    Wafer.carries (s.waf.port k) = true ∧
    flitGood f = true ∧
    flitKind f = 1 ∧
    flitF f 515 1 = 0 ∧
    flitF f 514 1 = 0 :=
  ⟨withPort 9 { up with held := [(4095, 5), (4096, 6)] }, east, 9, linkAck, by decide +kernel⟩

theorem wit_FlitTransfer_4 : ∃ (s : State) (e : LinkEnd) (k : Nat),
    s.waf.endKey e = some k ∧
    Wafer.carries (s.waf.port k) = true ∧
    (((s.waf.port k).owed = true ∨ (s.waf.port k).nak = true)) :=
  ⟨withPort 9 { up with owed := true }, east, 9, by decide +kernel⟩

theorem wit_FlitTransfer_5 : ∃ (s : State) (e : LinkEnd) (k : Nat) (cls : TClass) (esc : Bool) (f : BitVec 544) (r : List (BitVec 544)),
    s.waf.endKey e = some k ∧
    Wafer.headMsg (s.waf.port k).inbuf (classIdx cls + if esc then 4 else 0) = some (f :: r) ∧
    flitF f 500 3 ≠ 0 ∧
    flitF f 500 3 ≤ 5 ∧
    flitF f 516 8 < 0x90 ∧
    s.waf.hopFor (k / 4) (flitF f 464 64) esc = .here :=
  ⟨withPort 9 { up with inbuf := [flitTo 0 false] }, east, 9, .mem, false, flitTo 0 false, [], by decide +kernel⟩

theorem wit_FlitTransfer_6 : ∃ (s : State) (e : LinkEnd) (k : Nat) (d : Nat) (cls : TClass) (esc : Bool) (f : BitVec 544) (r : List (BitVec 544)),
    s.waf.endKey e = some k ∧
    Wafer.headMsg (s.waf.port k).inbuf (classIdx cls + if esc then 4 else 0) = some (f :: r) ∧
    flitF f 500 3 ≠ 0 ∧
    flitF f 500 3 ≤ 5 ∧
    flitF f 516 8 < 0x90 ∧
    s.waf.hopFor (k / 4) (flitF f 464 64) esc = .port d ∧
    s.waf.mayGo (k / 4) d (classIdx cls + if esc then 4 else 0) = true ∧
    Wafer.roomFor (s.waf.port (Wafer.portKey (k / 4) d)) (classIdx cls + if esc then 4 else 0) (flitF f 500 3) = true :=
  ⟨on fun w => (w.setPort 10 { up with inbuf := [flitTo 1 false] }).setPort 9 up, ⟨0, 2⟩, 10, 1, .mem, false, flitTo 1 false, [], by decide +kernel⟩

theorem wit_FlitTransfer_7 : ∃ (s : State) (e : LinkEnd) (k : Nat) (d : Nat) (x : Nat) (cls : TClass) (waited : Nat) (f : BitVec 544) (r : List (BitVec 544)),
    s.waf.endKey e = some k ∧
    Wafer.headMsg (s.waf.port k).inbuf (classIdx cls) = some (f :: r) ∧
    256 ≤ waited ∧
    flitF f 500 3 ≠ 0 ∧
    flitF f 500 3 ≤ 5 ∧
    flitF f 516 8 < 0x90 ∧
    s.waf.hopFor (k / 4) (flitF f 464 64) false = .port d ∧
    (s.waf.port (Wafer.portKey (k / 4) d)).credits.getD (classIdx cls) 0 < r.length + 1 ∧
    s.waf.hopFor (k / 4) (flitF f 464 64) true = .port x ∧
    Wafer.roomFor (s.waf.port (Wafer.portKey (k / 4) x)) (classIdx cls + 4) (flitF f 500 3) = true :=
  ⟨on fun w => (w.setPort 10 { up with inbuf := [flitTo 1 false] }).setPort 9 { up with credits := [0, 0, 0, 0, 1, 0, 0, 0] }, ⟨0, 2⟩, 10, 1, 1, .mem, 256, flitTo 1 false, [], by decide +kernel⟩

theorem wit_LinkRecovery_1 : ∃ (s : State) (e : LinkEnd) (k : Nat) (b : Nat) (h : Nat × BitVec 544) (r : List (Nat × BitVec 544)),
    s.waf.endKey e = some k ∧
    Wafer.carries (s.waf.port k) = true ∧
    s.waf.portRegs k = some b ∧
    (s.waf.port k).held = h :: r ∧
    (s.waf.port k).sentAt + 10 * s.waf.get b F.LNK_CFG.ACK_TIMEOUT ≤ s.waf.now ∧
    (s.waf.port k).tries < s.waf.get b F.LNK_CFG.MAX_RETRY :=
  ⟨withPort 9 { up with held := [(0, flitTo 1 false)], sentAt := 999800 }, east, 9, portBlk 0 1, (0, flitTo 1 false), [], by decide +kernel⟩

theorem wit_LinkRecovery_2 : ∃ (s : State) (e : LinkEnd) (k : Nat) (b : Nat),
    s.waf.endKey e = some k ∧
    Wafer.carries (s.waf.port k) = true ∧
    s.waf.portRegs k = some b ∧
    (s.waf.port k).held ≠ [] ∧
    (s.waf.port k).ackAt + 10 * s.waf.get b F.LNK_CFG.NOPROGRESS ≤ s.waf.now :=
  ⟨withPort 9 { up with held := [(0, flitTo 1 false)], ackAt := 999600 }, east, 9, portBlk 0 1, by decide +kernel⟩

theorem wit_LinkRecovery_3 : ∃ (s : State) (e : LinkEnd) (k : Nat) (n : Nat),
    s.waf.endKey e = some k ∧
    Wafer.carries (s.waf.port k) = true ∧
    ((n < 2 ∨ 6 < n)) :=
  ⟨withPort 9 up, east, 9, 1, by decide +kernel⟩

theorem wit_LinkRecovery_3b : ∃ (s : State) (e : LinkEnd) (k : Nat) (n : Nat),
    s.waf.endKey e = some k ∧
    Wafer.carries (s.waf.port k) = true ∧
    ((n < 2 ∨ 6 < n)) :=
  ⟨withPort 9 up, east, 9, 7, by decide +kernel⟩

theorem wit_LinkRecovery_4 : ∃ (s : State) (e : LinkEnd) (k : Nat) (n : Nat),
    s.waf.endKey e = some k ∧
    2 ≤ n ∧
    n ≤ 6 :=
  ⟨withPort 9 up, east, 9, 2, by decide +kernel⟩

theorem wit_LinkRecovery_4b : ∃ (s : State) (e : LinkEnd) (k : Nat) (n : Nat),
    s.waf.endKey e = some k ∧
    2 ≤ n ∧
    n ≤ 6 :=
  ⟨withPort 9 up, east, 9, 6, by decide +kernel⟩

theorem wit_LinkRecovery_5 : ∃ (s : State) (src : Src) (e : LinkEnd) (k : Nat),
    s.waf.endKey e = some k ∧
    Wafer.carries (s.waf.port k) = true ∧
    configSrc src = true :=
  ⟨withPort 9 up, .ribbon, east, 9, by decide +kernel⟩

theorem wit_LinkRecovery_6 : ∃ (s : State) (e : LinkEnd) (k : Nat) (_lanes : BitVec 16),
    s.waf.endKey e = some k ∧
    (s.waf.port k).state = 4 ∧
    (s.waf.port k).since + 40 ≤ s.waf.now :=
  ⟨withPort 9 { up with state := 4, since := 999960 }, east, 9, 0xFFFF, by decide +kernel⟩

theorem wit_LinkRecovery_7 : ∃ (s : State) (e : LinkEnd) (k : Nat),
    s.waf.endKey e = some k ∧
    (s.waf.port k).state = 4 ∧
    (s.waf.port k).since + us (s.waf.portCfg k F.LNK_CFG.RETRAIN_LIMIT) ≤ s.waf.now :=
  ⟨withPort 9 { up with state := 4, since := 980000 }, east, 9, by decide +kernel⟩

theorem wit_LinkRecovery_8 : ∃ (s : State) (e : LinkEnd) (k : Nat),
    s.waf.endKey e = some k ∧
    s.waf.now % 100000 = 0 ∧
    (s.waf.port k).state = 1 :=
  ⟨withPort 9 { up with winFlits := 5, winReplays := 101 }, east, 9, by decide +kernel⟩

theorem wit_LinkRecovery_9 : ∃ (s : State) (e : LinkEnd) (k : Nat) (t0 : Nat),
    s.waf.endKey e = some k ∧
    (s.waf.port k).state = 5 ∧
    (s.waf.port k).reason ≠ 0 ∧
    (s.waf.port k).switchAt = some t0 ∧
    t0 + us 200 ≤ s.waf.now ∧
    s.waf.col.boot.running = true ∧
    s.sup.fences.length < 64 ∧
    (s.waf.dieInfo (k / 4)).state = 1 ∧
    (s.waf.dieInfo (Wafer.farKey k / 4)).state = 1 :=
  ⟨withPort 9 { up with state := 5, reason := 7, switchAt := some 980000 }, east, 9, 980000, by decide +kernel⟩

theorem wit_LinkRecovery_10 : ∃ (s : State) (src : Src) (e : LinkEnd) (k : Nat) (b : Nat),
    s.waf.endKey e = some k ∧
    s.waf.portRegs k = some b ∧
    configSrc src = true :=
  ⟨on fun w => w.setReg (portBlk 0 1 + 0x18) 7, .unhal, east, 9, portBlk 0 1, by decide +kernel⟩

theorem wit_SpineLinks_2 : ∃ (s : State) (l : Fin 32) (_lanes : BitVec 16) (_p : SpinePeer),
    s.waf.edgeUp (Fin.ofNat 16 (l.val / 2)) = true ∧
    s.waf.get (spineBlk l.val) F.LNK_SP_STAT.STATE = 0 ∧
    2 ≤ s.waf.col.phase :=
  ⟨s0, 1, 0, ⟨0, 0, 0⟩, by decide +kernel⟩

theorem wit_SpineLinks_3 : ∃ (s : State) (l : Fin 32),
    s.waf.col.boot.running = true ∧
    s.waf.get (spineBlk l.val) F.LNK_SP_STAT.STATE = 0 ∧
    (s.waf.spine l.val).since + ms 1000 ≤ s.waf.now :=
  ⟨on fun w => { w with now := 100000000 }, 1, by decide +kernel⟩

theorem wit_SpineLinks_4 : ∃ (s : State) (l : Fin 32) (_p : List Byte) (_n : Nat),
    s.waf.spineUp l.val = true :=
  ⟨spineAt 1 Spine.init, 1, [], 3, by decide +kernel⟩

theorem wit_SpineLinks_5 : ∃ (s : State) (l : Fin 32) (p : List Byte),
    s.waf.spineUp l.val = true ∧
    Wafer.packetGood p = true ∧
    leAt p 0 1 = 1 ∧
    leAt p 3 1 = 0 ∧
    (s.waf.spine l.val).held = [] ∧
    leAt p 4 2 = (s.waf.spine l.val).expect % 65536 :=
  ⟨spineAt 2 Spine.init, 1, packet, by decide +kernel⟩

theorem wit_SpineLinks_6 : ∃ (s : State) (l : Fin 32) (m : List Byte) (w : Nat),
    s.waf.spineUp l.val = true ∧
    (s.waf.spine l.val).outq = [(0, m)] ∧
    m.length = 64 ∧
    50 ≤ w ∧
    1 ≤ (s.waf.spine l.val).credits.getD (Wafer.spineCr 0) 0 ∧
    (s.waf.spine l.val).held = [] :=
  ⟨spineAt 1 { Spine.init with outq := [(0, List.replicate 64 9)], credits := [1, 0, 0] }, 1, List.replicate 64 9, 50, by decide +kernel⟩

theorem wit_SpineLinks_7 : ∃ (s : State) (l : Fin 32) (i : Fin 16),
    s.waf.spineUp l.val = true ∧
    Nat.testBit (s.waf.get (spineBlk l.val) F.LNK_SP_STAT.LANES) i.val = true :=
  ⟨spineAt 1 Spine.init, 1, 15, by decide +kernel⟩

theorem wit_SpineLinks_8 : ∃ (s : State) (l : Fin 32),
    s.waf.spineUp l.val = true ∧
    (s.waf.spine l.val).held ≠ [] ∧
    (s.waf.spine l.val).ackAt + us (s.waf.get (spineBlk l.val) F.LNK_SP_CFG.NOPROGRESS) ≤ s.waf.now :=
  ⟨spineAt 1 { Spine.init with held := [(0, packet)] }, 1, by decide +kernel⟩

theorem wit_SpineLinks_9 : ∃ (s : State) (l : Fin 32),
    s.waf.spineUp l.val = true ∧
    (s.waf.spine l.val).held ≠ [] ∧
    (s.waf.spine l.val).tries < s.waf.get (spineBlk l.val) F.LNK_SP_CFG.MAX_RETRY ∧
    (s.waf.spine l.val).sentAt + us (s.waf.get (spineBlk l.val) F.LNK_SP_CFG.ACK_TIMEOUT) ≤ s.waf.now :=
  ⟨spineAt 1 { Spine.init with held := [(0, packet)] }, 1, by decide +kernel⟩

theorem wit_SpineLinks_10 : ∃ (s : State) (src : Src) (l : Fin 32),
    s.waf.spineUp l.val = true ∧
    configSrc src = true :=
  ⟨spineAt 1 Spine.init, .unhal, 1, by decide +kernel⟩

theorem wit_SpineLinks_11 : ∃ (s : State) (l : Fin 32) (_lanes : BitVec 16),
    s.waf.get (spineBlk l.val) F.LNK_SP_STAT.STATE = 4 :=
  ⟨spineAt 4 Spine.init, 1, 0x00FF, by decide +kernel⟩

theorem wit_SpineLinks_12 : ∃ (s : State) (l : Fin 32),
    s.waf.get (spineBlk l.val) F.LNK_SP_STAT.STATE = 4 ∧
    (s.waf.spine l.val).since + us (s.waf.get (spineBlk l.val) F.LNK_SP_CFG.RETRAIN_LIMIT) ≤ s.waf.now :=
  ⟨on fun w => { (spineAt 4 Spine.init).waf with now := 100000000, free := w.free }, 1, by decide +kernel⟩

theorem wit_SpineLinks_13 : ∃ (s : State) (l : Fin 32),
    s.waf.spineUp l.val = true ∧
    s.waf.now % 100000 = 0 ∧
    (s.waf.spine l.val).frayedAt = none :=
  ⟨spineAt 1 { Spine.init with winReplays := 101 }, 1, by decide +kernel⟩

theorem wit_SpineLinks_14 : ∃ (_s : State) (src : Src) (_l : Fin 32),
    configSrc src = true :=
  ⟨on fun w => w.setReg (spineBlk 1 + 0x20) 9, .ribbon, 1, by decide +kernel⟩

/-- The serial number is open: a peer's differs where it is one more. -/
theorem wit_SpineLinks_1 : ∃ (s : State) (l : Fin 32) (p : SpinePeer), s.waf.edgeUp (Fin.ofNat 16 (l.val / 2)) = true ∧
    s.waf.get (spineBlk l.val) F.LNK_SP_STAT.STATE = 0 ∧ 2 ≤ s.waf.col.phase ∧ p.serial ≠ Config.serial ∧
    p.wafer.toNat ≠ s.waf.col.wafer :=
  ⟨s0, 1, ⟨3, 2, Config.serial + 1⟩, by decide +kernel, by decide +kernel, by decide +kernel, by bv_omega, by decide +kernel⟩

end C

namespace D

/-- An own record of site 0. -/
def cmd0 : Cmd :=
  { site := 0, idx := 0, st := .running, replays := 0, vol := 0, cls := 1, defWritten := false, buddyRun := false, ring := 0,
    home := 0, descIndex := 0, complIndex := 0, acceptRef := 0, firstStart := 0, claim := none, atomics := 0, lastFault := 0,
    lastDetail := 0, desc := List.replicate 64 0, header := [], stages := [], final := [], order := 0, mirrored := false, mir := [],
    listRead := true, seen := true, epoch := 0, jumped := false, srcLost := none, aborting := none, noReplay := false,
    rebuild := false, handed := none, run := none }

/-- Volume 1 is live. -/
def vol1 (w : Wafer) : Wafer := { w with live := 2, vol := [(1, { Vol.init with progress := 1 })] }

/-- Port B holds the lease. -/
def held (f : Wafer → Wafer) : State :=
  on fun w => f { w with rib := { w.rib with holder := some .b, key := 0x1234, expiry := 2000000 } }

/-- A request of fetch engine 96 of site 0 without its response. -/
def out0 : Out :=
  { who := ⟨0, 96⟩, tag := 5, vol := 0, kind := some .read, die := 1, addr := 0x0001000000000000, since := 0, acquire := false,
    isReg := false, isWait := false, cmd := none, need := none }

theorem wit_VolumeOperations_1 : ∃ (s : State) (p : RibPort) (_tag : BitVec 4) (v : BitVec 6) (pr : BitVec 8) (_vf : BitVec 6) (_ok : Bool),
    portHolds s p ∧
    v ≠ 0 ∧
    s.waf.live.getLsbD v.toNat = false ∧
    s.waf.liveVols = [] ∧
    pr.toNat < 32 ∧
    s.waf.profField pr.toNat F.VOL_PROF_SPAN.FIRST_SITE + s.waf.profField pr.toNat F.VOL_PROF_SPAN.SITE_COUNT ≤ s.waf.col.sites.length ∧
    s.waf.profField pr.toNat F.VOL_PROF_SITE.SRAM_MIB ≤ 240 ∧
    s.waf.profField pr.toNat F.VOL_PROF_SITE.BANKS ≤ 64 ∧
    s.waf.profField pr.toNat F.VOL_PROF_MEM.HBM_GIB ≤ 544 ∧
    s.waf.profField pr.toNat F.VOL_PROF_SITE.RINGS ≤ 1984 ∧
    s.waf.profField pr.toNat F.VOL_PROF_SITE.SYNCS ≤ 1792 ∧
    s.waf.profField pr.toNat F.VOL_PROF_SITE.ALARMS ≤ 240 ∧
    ((∀ e, e < 16 → s.waf.profField pr.toNat F.VOL_PROF_MEM.CHANNELS ≤ (s.waf.freeChans e).length)) :=
  ⟨held fun w => ((w.setReg (profBlk 31) 33114469959616).setReg (profBlk 31 + 8) 0x201).setReg (profBlk 31 + 16) 0x30220, .b, 1, 63, 31, 0, true, by decide +kernel⟩

theorem wit_VolumeOperations_2 : ∃ (s : State) (p : RibPort) (_tag : BitVec 4) (v : BitVec 6),
    portHolds s p ∧
    v ≠ 0 ∧
    s.waf.live.getLsbD v.toNat = true :=
  ⟨held vol1, .b, 1, 1, by decide +kernel⟩

theorem wit_VolumeOperations_3 : ∃ (s : State) (p : RibPort) (_tag : BitVec 4) (v : BitVec 6),
    portHolds s p ∧
    v ≠ 0 ∧
    s.waf.live.getLsbD v.toNat = false :=
  ⟨held vol1, .b, 1, 2, by decide +kernel⟩

theorem wit_VolumeOperations_4 : ∃ (s : State) (p : RibPort) (_tag : BitVec 4) (v : BitVec 6),
    portHolds s p ∧
    v ≠ 0 ∧
    s.waf.live.getLsbD v.toNat = true :=
  ⟨held vol1, .b, 1, 1, by decide +kernel⟩

theorem wit_VolumeOperations_5 : ∃ (s : State) (p : RibPort) (_tag : BitVec 4),
    portHolds s p :=
  ⟨held vol1, .b, 1, by decide +kernel⟩

theorem wit_VolumeOperations_6 : ∃ (s : State) (v : Fin 64),
    v.val ≠ 0 ∧
    s.waf.live.getLsbD v.val = true ∧
    s.waf.col.boot.running = true ∧
    s.waf.volPending v.val = true ∧
    s.waf.get fltWBlk F.FLT_W_CFG.VOL_HB_MS ≠ 0 ∧
    (s.waf.volInfo v.val).progress + ms (s.waf.get fltWBlk F.FLT_W_CFG.VOL_HB_MS) ≤ s.waf.now :=
  ⟨on fun w => { vol1 w with now := 100000000000, cmds := [{ cmd0 with vol := 1 }] }, 1, by decide +kernel⟩

theorem wit_SitesLeaveService_1 : ∃ (s : State) (i : Fin 128) (j : Nat) (n : Nat),
    s.waf.active i.val = true ∧
    s.waf.nodeOf i.val = some n ∧
    j < 8 ∧
    1680 ≤ signed 16 (getF (s.waf.reg (lveBlk i.val + 0x20 + 8 * j)) 0 16) ∧
    s.noMirror i.val = false ∧
    s.sup.fences.length < 64 :=
  ⟨on fun w => w.setReg (lveBlk 1 + 0x20 + 56) 1680, 1, 7, 3, by decide +kernel⟩

theorem wit_SitesLeaveService_2 : ∃ (s : State) (i : Fin 128),
    ((∀ j, j < 8 → signed 16 (getF (s.waf.reg (lveBlk i.val + 0x20 + 8 * j)) 0 16) < 1680)) :=
  ⟨s0, 1, by decide +kernel⟩

theorem wit_SitesLeaveService_3 : ∃ (s : State) (i : Fin 128) (n : Nat),
    s.waf.nodeOf i.val = some n ∧
    Tab.look (fun _ => 0) s.waf.col.rejoin i.val ≠ 0 ∧
    Tab.look (fun _ => 0) s.waf.col.rejoin i.val - 1 + ms 8 ≤ s.waf.now ∧
    s.sup.fences.length < 64 :=
  ⟨on fun w => { w with col := { w.col with rejoin := [(1, 200001)] } }, 1, 3, by decide +kernel⟩

theorem wit_SitesLeaveService_4 : ∃ (s : State) (i : Fin 128) (r : Fin 1024) (c : Cmd) (t0 : Nat),
    s.waf.cmd? i.val r.val = some c ∧
    c.aborting = some t0 ∧
    s.waf.active i.val = true ∧
    t0 + us (s.waf.get (fltBlk i.val) F.FLT_CFG.ABORT_US) ≤ s.waf.now ∧
    s.noMirror i.val = false :=
  ⟨on fun w => { w with cmds := [{ cmd0 with aborting := some 0 }] }, 0, 0, { cmd0 with aborting := some 0 }, 0, by decide +kernel⟩

theorem wit_SitesLeaveService_5 : ∃ (s : State) (beats : List (Fin 128)),
    s.waf.now % 10000 = 0 ∧
    ((s.waf.col.phase = 3 ∨ s.waf.col.phase = 4)) ∧
    s.waf.col.boot.running = true ∧
    0 < s.waf.get fltWBlk F.FLT_W_CFG.SITE_MS ∧
    ((∀ x : Fin 128, s.waf.active x.val = true → x ∈ beats)) :=
  ⟨s0, [0, 1, 2], by decide +kernel⟩

theorem wit_SitesLeaveService_6 : ∃ (s : State) (i : Fin 128) (beats : List (Fin 128)),
    s.waf.now % 10000 = 0 ∧
    ((s.waf.col.phase = 3 ∨ s.waf.col.phase = 4)) ∧
    s.waf.col.boot.running = true ∧
    0 < s.waf.get fltWBlk F.FLT_W_CFG.SITE_MS ∧
    s.waf.active i.val = true ∧
    i ∉ beats ∧
    ((∀ x : Fin 128, s.waf.active x.val = true → x ≠ i → x ∈ beats)) ∧
    Tab.look (fun _ => 0) s.waf.col.heard i.val + ms (s.waf.get fltWBlk F.FLT_W_CFG.SITE_MS) ≤ s.waf.now ∧
    s.noMirror i.val = false :=
  ⟨on fun w => { w with now := 100000000 }, 1, [0, 2], by decide +kernel⟩

theorem wit_RecoveryUnits_1 : ∃ (s : State) (i : Fin 128),
    s.waf.net = [.siteLost i.val] ∧
    s.waf.out = [] :=
  ⟨on fun w => { w with net := [.siteLost 2] }, 2, by decide +kernel⟩

theorem wit_RecoveryUnits_2 : ∃ (s : State) (q : Requester) (tag : BitVec 12) (o : Out),
    s.waf.out.find? (fun o => o.who == q && o.tag == tag.toNat) = some o ∧
    o.isWait = false ∧
    o.cmd = none ∧
    q.die.val < 128 ∧
    96 ≤ q.unit.toNat ∧
    o.since + us (s.waf.get (fltBlk q.die.val) F.FLT_CFG.TRANSFER_US) ≤ s.waf.now :=
  ⟨on fun w => { w with out := [out0] }, ⟨0, 96⟩, 5, out0, by decide +kernel⟩

theorem wit_RecoveryUnits_5 : ∃ (s : State) (_ok : Bool),
    ((s.waf.col.phase = 3 ∨ s.waf.col.phase = 4)) ∧
    s.waf.col.boot.running = true ∧
    s.waf.col.boot.svcTries < 2 ∧
    s.waf.col.kick + ms (s.waf.get fltWBlk F.FLT_W_CFG.SVC_MS) ≤ s.waf.now :=
  ⟨on fun w => { w with now := 1000000000 }, true, by decide +kernel⟩

theorem wit_RecoveryUnits_5b : ∃ (s : State) (_ok : Bool),
    ((s.waf.col.phase = 3 ∨ s.waf.col.phase = 4)) ∧
    s.waf.col.boot.running = true ∧
    s.waf.col.boot.svcTries < 2 ∧
    s.waf.col.kick + ms (s.waf.get fltWBlk F.FLT_W_CFG.SVC_MS) ≤ s.waf.now :=
  ⟨on fun w => { w with now := 1000000000 }, false, by decide +kernel⟩

theorem wit_RecoveryUnits_6 : ∃ (s : State) (_ok : Bool),
    ((s.waf.col.phase = 3 ∨ s.waf.col.phase = 4)) ∧
    2 ≤ s.waf.col.boot.svcTries ∧
    s.waf.col.kick + ms (s.waf.get fltWBlk F.FLT_W_CFG.SVC_MS) ≤ s.waf.now :=
  ⟨on fun w => { w with now := 1000000000, col := { w.col with boot := { w.col.boot with svcTries := 2 } } }, true, by decide +kernel⟩

theorem wit_RecoveryUnits_7 : ∃ (s : State) (src : Src) (i : Fin 128) (_n : Fin 64) (v : BitVec 64),
    configSrc src = true ∧
    s.waf.active i.val = true ∧
    v.getLsbD 63 = false :=
  ⟨s0, .unhal, 1, 63, 0x7FFFFFFFFFFFFFFF, by decide +kernel⟩

theorem wit_RecoveryUnits_8 : ∃ (s : State) (i : Fin 128) (r : Fin 1024) (c : Cmd),
    s.waf.cmd? i.val r.val = some c ∧
    s.waf.active i.val = true ∧
    c.mirrored = false :=
  ⟨on fun w => { w with cmds := [cmd0] }, 0, 0, cmd0, by decide +kernel⟩

theorem wit_RecoveryUnits_9 : ∃ (s : State) (i : Fin 128),
    s.waf.que.copying.contains i.val = true :=
  ⟨on fun w => { w with cmds := [cmd0], que := { w.que with copying := [0], bare := [0] } }, 0, by decide +kernel⟩

end D

namespace E

/-- A request of core 3 of site 1 to site 0. -/
def rq (addr : BitVec 64) (n : Nat) : MemReq := { who := ⟨1, 3⟩, tag := 0xFFF, src := .unhal, size := n, addr := addr, acquire := false, release := false }

/-- Its entry among the requests outstanding. -/
def out1 : Out :=
  { who := ⟨1, 3⟩, tag := 0xFFF, vol := 0, kind := some .read, die := 0, addr := 0x100, since := 0, acquire := false, isReg := false,
    isWait := false, cmd := none, need := none }

/-- Line 5 of site 0, as cache 1 holds it. -/
def line1 (d : Bool) : Line := { excl := true, dirty := d, data := List.replicate 128 9 }

/-- One coherence message about line 5 of site 0 and cache 1. -/
def coh1 (op : CohOp) (d : Option (List Byte)) (f : Wafer → Wafer) : State := on fun w => f { w with net := [.coh op 1 0 5 d] }

theorem wit_MemoryRequests_1 : ∃ (s : State) (rq : MemReq) (h : Nat) (l : Nat),
    servedNow s rq h l false ∧
    s.waf.poisoned (homeKey h l rq) rq.size = false :=
  ⟨on fun w => w.store 0x178 [1, 2, 3, 4, 5, 6, 7, 8], rq 0x178 8, 0, 2, by decide +kernel⟩

theorem wit_MemoryRequests_2 : ∃ (s : State) (rq : MemReq) (h : Nat) (l : Nat) (d : List Byte),
    servedNow s rq h l true ∧
    d.length = rq.size :=
  ⟨on fun w => w.store 0x178 [1, 2, 3, 4, 5, 6, 7, 8, 9], rq 0x178 8, 0, 2, [8, 7, 6, 5, 4, 3, 2, 1], by decide +kernel⟩

theorem wit_MemoryRequests_3 : ∃ (s : State) (rq : MemReq) (h : Nat) (l : Nat) (_op : Fin 10) (_x : BitVec 64) (_y : BitVec 64),
    servedNow s rq h l true ∧
    ((rq.size = 4 ∨ rq.size = 8)) ∧
    s.waf.poisoned (homeKey h l rq) rq.size = false :=
  ⟨on fun w => w.store 0x178 [1, 2, 3, 4, 5, 6, 7, 8], rq 0x17C 4, 0, 2, 0, 0xFFFFFFFF, 0, by decide +kernel⟩

theorem wit_MemoryRequests_4 : ∃ (s : State) (rq : MemReq) (hl : Nat × Nat) (_d : List Byte),
    s.waf.out = [] ∧
    s.waf.homeLine rq.addr.toNat = some hl ∧
    s.waf.homeStatus rq true ≠ 0 :=
  ⟨s0, rq 0x17A 8, (0, 2), [8, 7, 6, 5, 4, 3, 2, 1], by decide +kernel⟩

theorem wit_MemoryResponses_1 : ∃ (s : State) (k : Acc) (q : Requester) (tag : BitVec 12) (d : List Byte) (o : Out),
    s.waf.net = [.rsp k q tag.toNat 0 d] ∧
    s.waf.out = [o] ∧
    o.who = q ∧
    o.tag = tag.toNat :=
  ⟨on fun w => { w with net := [.rsp .read ⟨1, 3⟩ 0xFFF 0 [1]], out := [out1] }, .read, ⟨1, 3⟩, 0xFFF, [1], out1, by decide +kernel⟩

theorem wit_MemoryResponses_2 : ∃ (s : State) (k : Acc) (q : Requester) (tag : BitVec 12) (st : Nat) (o : Out),
    s.waf.net = [.rsp k q tag.toNat st []] ∧
    s.waf.out = [o] ∧
    o.who = q ∧
    o.tag = tag.toNat ∧
    o.cmd = none ∧
    0 < st ∧
    st < 16 ∧
    q.die.val < 128 ∧
    s.waf.get (memBlk q.die.val) F.MEM_FAULT.VALID = 0 :=
  ⟨on fun w => { w with net := [.rsp .write ⟨1, 3⟩ 0xFFF 4 []], out := [out1] }, .write, ⟨1, 3⟩, 0xFFF, 4, out1, by decide +kernel⟩

theorem wit_MemoryResponses_3 : ∃ (s : State) (k : Acc) (q : Requester) (tag : BitVec 12) (st : Nat) (d : List Byte),
    s.waf.net = [.rsp k q tag.toNat st d] ∧
    s.waf.out = [] :=
  ⟨on fun w => { w with net := [.rsp .atomic ⟨1, 3⟩ 0xFFF 4 []] }, .atomic, ⟨1, 3⟩, 0xFFF, 4, [], by decide +kernel⟩

theorem wit_CoherenceMessages_1 : ∃ (s : State) (c : Fin 128) (h : Fin 128) (l : BitVec 21),
    s.waf.net = [.coh .getS c.val h.val l.toNat none] ∧
    s.waf.dirAt h.val l.toNat = none ∧
    s.waf.txAt h.val l.toNat = none ∧
    s.waf.dirVictim h.val l.toNat = none :=
  ⟨coh1 .getS none id, 1, 0, 5, by decide +kernel⟩

theorem wit_CoherenceMessages_2 : ∃ (s : State) (c : Fin 128) (h : Fin 128) (l : BitVec 21),
    s.waf.net = [.coh .getE c.val h.val l.toNat none] ∧
    s.waf.dirAt h.val l.toNat = none ∧
    s.waf.txAt h.val l.toNat = none ∧
    s.waf.dirVictim h.val l.toNat = none :=
  ⟨coh1 .getE none id, 1, 0, 5, by decide +kernel⟩

theorem wit_CoherenceMessages_3 : ∃ (s : State) (c : Fin 128) (h : Fin 128) (l : BitVec 21) (n : Nat),
    s.waf.net = [.coh .putS c.val h.val l.toNat none] ∧
    s.waf.dirAt h.val l.toNat = some (.shared [c.val] n) :=
  ⟨coh1 .putS none fun w => w.setDir 0 5 (some (.shared [1] 3)), 1, 0, 5, 3, by decide +kernel⟩

theorem wit_CoherenceMessages_4 : ∃ (s : State) (c : Fin 128) (h : Fin 128) (l : BitVec 21) (n : Nat) (d : List Byte),
    s.waf.net = [.coh .putE c.val h.val l.toNat (some d)] ∧
    d.length = 128 ∧
    s.waf.dirAt h.val l.toNat = some (.excl c.val n) ∧
    s.waf.txAt h.val l.toNat = none ∧
    s.waf.twins h.val = [] :=
  ⟨coh1 .putE (some (List.replicate 128 7)) fun w => w.setDir 0 5 (some (.excl 1 3)), 1, 0, 5, 3, List.replicate 128 7, by decide +kernel⟩

theorem wit_CoherenceMessages_5 : ∃ (s : State) (c : Fin 128) (h : Fin 128) (x : Fin 128) (l : BitVec 21),
    s.waf.net = [.coh .fwdAck c.val h.val l.toNat none] ∧
    s.waf.txAt h.val l.toNat = some { req := .getS x.val, acks := [c.val], granted := false, queue := [] } :=
  ⟨coh1 .fwdAck none fun w => (w.setDir 0 5 (some (.shared [1] 3))).setTx 0 5 (some { req := .getS 2, acks := [1], granted := false, queue := [] }), 1, 0, 2, 5, by decide +kernel⟩

theorem wit_CoherenceMessages_6 : ∃ (s : State) (c : Fin 128) (h : Fin 128) (l : BitVec 21) (r : HomeReq),
    s.waf.net = [.coh .complete c.val h.val l.toNat none] ∧
    s.waf.txAt h.val l.toNat = some { req := r, acks := [], granted := true, queue := [] } :=
  ⟨coh1 .complete none fun w => w.setTx 0 5 (some { req := .getS 1, acks := [], granted := true, queue := [] }), 1, 0, 5, .getS 1, by decide +kernel⟩

theorem wit_CoherenceMessages_7 : ∃ (s : State) (c : Fin 128) (h : Fin 128) (l : BitVec 21) (d : List Byte),
    s.waf.net = [.coh .dataS c.val h.val l.toNat (some d)] ∧
    s.waf.coh.lines.length < 16 :=
  ⟨coh1 .dataS (some [1]) id, 1, 0, 5, [1], by decide +kernel⟩

theorem wit_CoherenceMessages_8 : ∃ (s : State) (c : Fin 128) (h : Fin 128) (l : BitVec 21) (d : List Byte),
    s.waf.net = [.coh .dataE c.val h.val l.toNat (some d)] ∧
    s.waf.coh.lines.length < 16 :=
  ⟨coh1 .dataE (some [1]) id, 1, 0, 5, [1], by decide +kernel⟩

theorem wit_CoherenceMessages_9 : ∃ (s : State) (c : Fin 128) (h : Fin 128) (l : BitVec 21) (x : Line),
    s.waf.net = [.coh .inv c.val h.val l.toNat none] ∧
    s.waf.lineAt c.val h.val l.toNat = some x :=
  ⟨coh1 .inv none fun w => w.setLine 1 0 5 (line1 true), 1, 0, 5, line1 true, by decide +kernel⟩

theorem wit_CoherenceMessages_10 : ∃ (s : State) (c : Fin 128) (h : Fin 128) (l : BitVec 21) (x : Line),
    s.waf.net = [.coh .recall c.val h.val l.toNat none] ∧
    s.waf.lineAt c.val h.val l.toNat = some x :=
  ⟨coh1 .recall none fun w => w.setLine 1 0 5 (line1 true), 1, 0, 5, line1 true, by decide +kernel⟩

theorem wit_CoherenceMessages_11 : ∃ (s : State) (c : Fin 128) (h : Fin 128) (l : BitVec 21) (x : Line),
    s.waf.net = [.coh .downgrade c.val h.val l.toNat none] ∧
    s.waf.lineAt c.val h.val l.toNat = some x :=
  ⟨coh1 .downgrade none fun w => w.setLine 1 0 5 (line1 false), 1, 0, 5, line1 false, by decide +kernel⟩

theorem wit_CoherenceMessages_12 : ∃ (s : State) (c : Fin 128) (h : Fin 128) (l : BitVec 21),
    s.waf.net = [.coh .putAck c.val h.val l.toNat none] :=
  ⟨coh1 .putAck none fun w => w.setWback 1 0 5 (some (line1 true)), 1, 0, 5, by decide +kernel⟩

theorem wit_CacheControl_1 : ∃ (s : State) (src : Src) (i : Fin 128),
    configSrc src = true ∧
    s.waf.active i.val = true :=
  ⟨s0, .unhal, 2, by decide +kernel⟩

theorem wit_CacheControl_2 : ∃ (s : State) (src : Src) (i : Fin 128),
    configSrc src = true ∧
    s.waf.active i.val = true :=
  ⟨s0, .ribbon, 2, by decide +kernel⟩

theorem wit_CacheControl_3 : ∃ (s : State) (src : Src) (i : Fin 128),
    configSrc src = true ∧
    s.waf.active i.val = true :=
  ⟨on fun w => (w.setReg (memBlk 2 + 0x30) 7).setReg (memBlk 2 + 0x18) 7, .unhal, 2, by decide +kernel⟩

theorem wit_CacheControl_4 : ∃ (s : State) (i : Fin 128),
    s.waf.active i.val = true ∧
    s.waf.get (memBlk i.val) F.MEM_STAT.FLUSH_BUSY = 1 ∧
    s.waf.coh.wback = [] ∧
    s.waf.que.flushes = [] :=
  ⟨on fun w => w.set (memBlk 2) F.MEM_STAT.FLUSH_BUSY 1, 2, by decide +kernel⟩

end E

namespace F

/-- Ring 7 of site 1, enabled, with 16 entries of 2^e bytes at `base`: kind, further CTRL bits, PI, CI. -/
def ring (kind e base bits pi ci : Nat) (w : Wafer) : Wafer :=
  let b := ringBlk 1 7
  ((w.setReg b (BitVec.ofNat 64 base)).setReg (b + 8) (BitVec.ofNat 64 (kind + 16 + e * 2 ^ 7 + 2 ^ 18 + bits))).setReg (b + 16)
    (BitVec.ofNat 64 (pi + ci * 2 ^ 32))

/-- Sync object 9 of site 1 allocated, with a value. -/
def sync (v : Word) (w : Wafer) : Wafer := (w.setReg (syncKey 1 9) v).setReg (syncCtlBlk 1 9) 0x40

def who0 : Requester := ⟨1, 96⟩

def wait0 (thr : Word) (u : Nat) : Wait := { who := who0, tag := 5, site := 1, obj := 9, thr := thr, since := 999900, waitUs := u }

def out0 (c : Option (Nat × Nat)) : Out :=
  { who := who0, tag := 5, vol := 0, kind := none, die := 1, addr := 0, since := 0, acquire := false, isReg := false,
    isWait := false, cmd := c, need := none }

/-- A SYNC command that runs. -/
def cmd0 : Cmd :=
  { site := 1, idx := 0, st := .running, replays := 0, vol := 0, cls := 1, defWritten := false, buddyRun := false, ring := 0,
    home := 1, descIndex := 0, complIndex := 0, acceptRef := 0, firstStart := 1, claim := none, atomics := 0, lastFault := 0,
    lastDetail := 0, desc := 3 :: List.replicate 63 0, header := [], stages := [], final := [], order := 0, mirrored := true,
    mir := [], listRead := true, seen := true, epoch := 0, jumped := false, srcLost := none, aborting := none, noReplay := false,
    rebuild := false, handed := none,
    run := some { start := 1, eng := 0, space := 0, clusters := [], areas := [], units := [], next := [], ended := [], slots := [],
                  entries := 0, flags := 0, passes := 0, inPass := false, half := false, page := 0, operand := [],
                  delivered := none, asked := false, reloc := 0, ready := [], gathered := none } }

/-- Channel 16 of edge die 1 bound to volume 2, with CFG bits and STATEs. -/
def chan (bits req rep : Nat) (w : Wafer) : Wafer :=
  ((w.setReg (chanBlk 1 16) (BitVec.ofNat 64 (1 + 2 * 8 + bits))).set (dirBlk 1 16 false) F.QUE_MBX_STAT.STATE req).set
    (dirBlk 1 16 true) F.QUE_MBX_STAT.STATE rep

def hbm0 : Nat := 0x2010000000000000
def sram0 : Nat := 0x0001000000010000

theorem wit_DoorbellsAndRings_1 : ∃ (s : State) (path : DbPath) (i : Fin 128) (r : Fin 2048) (x : BitVec 32),
    dbReaches s path i.val r.val ∧
    s.waf.ringOn (ringBlk i.val r.val) = true ∧
    s.waf.rKind (ringBlk i.val r.val) = 0 ∧
    (x.toNat + 2 ^ 32 - s.waf.rPI (ringBlk i.val r.val)) % 2 ^ 32 ≠ 0 ∧
    (x.toNat + 2 ^ 32 - s.waf.rPI (ringBlk i.val r.val)) % 2 ^ 32 ≤ s.waf.rSize (ringBlk i.val r.val) - s.waf.rHeld (ringBlk i.val r.val) :=
  ⟨on (ring 0 6 hbm0 0 0 0), .ring .unhal, 1, 7, 16, by decide +kernel⟩

theorem wit_DoorbellsAndRings_1b : ∃ (s : State) (path : DbPath) (i : Fin 128) (r : Fin 2048) (x : BitVec 32),
    dbReaches s path i.val r.val ∧
    s.waf.ringOn (ringBlk i.val r.val) = true ∧
    s.waf.rKind (ringBlk i.val r.val) = 0 ∧
    (x.toNat + 2 ^ 32 - s.waf.rPI (ringBlk i.val r.val)) % 2 ^ 32 ≠ 0 ∧
    (x.toNat + 2 ^ 32 - s.waf.rPI (ringBlk i.val r.val)) % 2 ^ 32 ≤ s.waf.rSize (ringBlk i.val r.val) - s.waf.rHeld (ringBlk i.val r.val) :=
  ⟨on (ring 0 6 hbm0 (3 * 2 ^ 12) 0xFFFFFFFF 0xFFFFFFF0), .vf 3, 1, 7, 0, by decide +kernel⟩

theorem wit_DoorbellsAndRings_2 : ∃ (s : State) (path : DbPath) (i : Fin 128) (r : Fin 2048) (x : BitVec 32),
    dbReaches s path i.val r.val ∧
    s.waf.ringOn (ringBlk i.val r.val) = true ∧
    s.waf.rKind (ringBlk i.val r.val) = 0 ∧
    2 ^ 31 ≤ (x.toNat + 2 ^ 32 - s.waf.rPI (ringBlk i.val r.val)) % 2 ^ 32 :=
  ⟨on (ring 0 6 hbm0 0 0 0), .site .ribbon, 1, 7, 0x80000000, by decide +kernel⟩

theorem wit_DoorbellsAndRings_3 : ∃ (s : State) (path : DbPath) (i : Fin 128) (r : Fin 2048) (x : BitVec 32),
    dbReaches s path i.val r.val ∧
    s.waf.ringOn (ringBlk i.val r.val) = true ∧
    s.waf.flag (ringBlk i.val r.val) F.QUE_RING_CTRL.CONS_DOORBELL = true ∧
    ((s.waf.rKind (ringBlk i.val r.val) = 1 ∨ s.waf.rKind (ringBlk i.val r.val) = 2)) ∧
    (x.toNat + 2 ^ 32 - s.waf.rCI (ringBlk i.val r.val)) % 2 ^ 32 ≠ 0 ∧
    (x.toNat + 2 ^ 32 - s.waf.rCI (ringBlk i.val r.val)) % 2 ^ 32 ≤ s.waf.rHeld (ringBlk i.val r.val) :=
  ⟨on (ring 1 5 hbm0 (2 ^ 21) 16 0), .ring (.volume 0), 1, 7, 16, by decide +kernel⟩

theorem wit_DoorbellsAndRings_4 : ∃ (s : State) (path : DbPath) (i : Fin 128) (r : Fin 2048) (x : BitVec 32),
    dbReaches s path i.val r.val ∧
    s.waf.ringOn (ringBlk i.val r.val) = true ∧
    s.waf.flag (ringBlk i.val r.val) F.QUE_RING_CTRL.CONS_DOORBELL = true ∧
    ((s.waf.rKind (ringBlk i.val r.val) = 1 ∨ s.waf.rKind (ringBlk i.val r.val) = 2)) ∧
    s.waf.flag (ringBlk i.val r.val) F.QUE_RING_CTRL.MSIX_EN = false ∧
    x.toNat = s.waf.rCI (ringBlk i.val r.val) :=
  ⟨on (ring 2 6 sram0 (2 ^ 21) 16 0), .ring (.volume 0), 1, 7, 0, by decide +kernel⟩

theorem wit_DoorbellsAndRings_5 : ∃ (s : State) (src : Src) (i : Fin 128) (r : Fin 2048) (v : BitVec 64),
    configSrc src = true ∧
    s.waf.active i.val = true ∧
    s.waf.get (ringBlk i.val r.val) F.QUE_RING_CTRL.ENABLE = 0 ∧
    getF v F.QUE_RING_CTRL.ENABLE.lo 1 = 1 :=
  ⟨s0, .unhal, 1, 7, 0x47FFF, by decide +kernel⟩

theorem wit_DoorbellsAndRings_6 : ∃ (s : State) (i : Fin 128) (r : Fin 2048),
    s.waf.active i.val = true ∧
    s.waf.ringOn (ringBlk i.val r.val) = true ∧
    s.waf.ringStuck i.val r.val = true ∧
    Tab.look (fun _ => 0) s.waf.que.stuck (i.val * 2048 + r.val) = 0 :=
  ⟨on fun w => { ring 1 5 hbm0 (2 ^ 21) 16 0 w with que := { w.que with fullWait := [2055] } }, 1, 7, by decide +kernel⟩

theorem wit_DoorbellsAndRings_7 : ∃ (s : State) (i : Fin 128) (r : Fin 2048),
    s.waf.active i.val = true ∧
    s.waf.ringOn (ringBlk i.val r.val) = true ∧
    s.waf.ringStuck i.val r.val = true ∧
    Tab.look (fun _ => 0) s.waf.que.stuck (i.val * 2048 + r.val) ≠ 0 ∧
    s.waf.get (ringBlk i.val r.val) F.QUE_RING_CTRL.STALLED = 0 ∧
    Tab.look (fun _ => 0) s.waf.que.stuck (i.val * 2048 + r.val) - 1 + ms (s.waf.get (queBlk i.val) F.QUE_CFG.STALL_MS) ≤ s.waf.refcount i.val :=
  ⟨on fun w => { ring 1 5 hbm0 (2 ^ 21) 16 0 w with now := 1000000000, que := { w.que with stuck := [(2055, 1)], fullWait := [2055] } }, 1, 7, by decide +kernel⟩

theorem wit_SyncObjects_1 : ∃ (s : State) (_q : Requester) (_tag : BitVec 12) (src : Src) (i : Fin 128) (j : Fin 2048) (x : BitVec 64),
    syncOpen s src i.val j.val ∧
    s.waf.que.waits = [] ∧
    s.waf.syncVal i.val j.val ≠ poisonVal ∧
    (s.waf.syncVal i.val j.val).toNat + x.toNat < 2 ^ 64 - 1 :=
  ⟨on (sync 5), who0, 3, .unhal, 1, 9, 0xFFFFFFFFFFFFFFF9, by decide +kernel⟩

theorem wit_SyncObjects_2 : ∃ (s : State) (_q : Requester) (_tag : BitVec 12) (src : Src) (i : Fin 128) (j : Fin 2048) (x : BitVec 64),
    syncOpen s src i.val j.val ∧
    s.waf.syncVal i.val j.val ≠ poisonVal ∧
    2 ^ 64 - 1 ≤ (s.waf.syncVal i.val j.val).toNat + x.toNat :=
  ⟨on (sync 5), who0, 3, .unhal, 1, 9, 0xFFFFFFFFFFFFFFFA, by decide +kernel⟩

theorem wit_SyncObjects_3 : ∃ (s : State) (_q : Requester) (_tag : BitVec 12) (src : Src) (i : Fin 128) (j : Fin 2048) (_x : BitVec 64),
    syncOpen s src i.val j.val ∧
    s.waf.syncVal i.val j.val = poisonVal :=
  ⟨on (sync 0xFFFFFFFFFFFFFFFF), who0, 3, .volume 0, 1, 9, 1, by decide +kernel⟩

theorem wit_SyncObjects_4 : ∃ (s : State) (_q : Requester) (_tag : BitVec 12) (src : Src) (i : Fin 128) (j : Fin 2048) (x : BitVec 64) (_u : BitVec 32),
    syncOpen s src i.val j.val ∧
    s.waf.que.waits = [] ∧
    s.waf.syncVal i.val j.val ≠ poisonVal ∧
    x ≤ s.waf.syncVal i.val j.val :=
  ⟨on (sync 5), who0, 3, .unhal, 1, 9, 5, 0, by decide +kernel⟩

theorem wit_SyncObjects_5 : ∃ (s : State) (_q : Requester) (_tag : BitVec 12) (src : Src) (i : Fin 128) (j : Fin 2048) (x : BitVec 64) (_u : BitVec 32),
    syncOpen s src i.val j.val ∧
    s.waf.que.waits = [] ∧
    s.waf.syncVal i.val j.val ≠ poisonVal ∧
    s.waf.syncVal i.val j.val < x :=
  ⟨on (sync 5), who0, 3, .unhal, 1, 9, 6, 7, by decide +kernel⟩

theorem wit_SyncObjects_6 : ∃ (s : State) (q : Requester) (tag : BitVec 12) (y : Wait),
    s.waf.que.waits = [y] ∧
    y.who = q ∧
    y.tag = tag.toNat ∧
    y.waitUs ≠ 0 ∧
    y.since + us y.waitUs ≤ s.waf.now :=
  ⟨on fun w => { sync 5 w with que := { w.que with waits := [wait0 9 1] } }, who0, 5, wait0 9 1, by decide +kernel⟩

theorem wit_SyncObjects_7 : ∃ (s : State) (src : Src) (i : Fin 128) (j : Fin 2048) (v : BitVec 64),
    s.waf.active i.val = true ∧
    s.waf.syncLive i.val j.val = true ∧
    Wafer.queAllowed src (s.waf.syncVol i.val j.val) = true ∧
    v ≠ poisonVal ∧
    s.waf.syncVal i.val j.val ≠ poisonVal :=
  ⟨on (sync 5), .ribbon, 1, 9, 0xFFFFFFFFFFFFFFFE, by decide +kernel⟩

theorem wit_QueueOperations_1 : ∃ (s : State) (_q : Requester) (_tag : BitVec 12) (src : Src) (i : Fin 128) (r : Fin 2048) (e : List Byte),
    s.waf.out = [] ∧
    s.waf.dieStatus i.val = 0 ∧
    Wafer.queAllowed src (s.waf.rVol (ringBlk i.val r.val)) = true ∧
    s.waf.ringOn (ringBlk i.val r.val) = true ∧
    s.waf.rKind (ringBlk i.val r.val) = 3 ∧
    e.length = s.waf.rEsize (ringBlk i.val r.val) ∧
    s.waf.rHeld (ringBlk i.val r.val) < s.waf.rSize (ringBlk i.val r.val) :=
  ⟨on (ring 3 3 sram0 0 15 0), who0, 3, .unhal, 1, 7, [1, 2, 3, 4, 5, 6, 7, 8], by decide +kernel⟩

theorem wit_QueueOperations_2 : ∃ (s : State) (_q : Requester) (_tag : BitVec 12) (src : Src) (i : Fin 128) (r : Fin 2048) (e : List Byte),
    s.waf.out = [] ∧
    s.waf.dieStatus i.val = 0 ∧
    Wafer.queAllowed src (s.waf.rVol (ringBlk i.val r.val)) = true ∧
    s.waf.ringOn (ringBlk i.val r.val) = true ∧
    s.waf.rKind (ringBlk i.val r.val) = 3 ∧
    e.length = s.waf.rEsize (ringBlk i.val r.val) ∧
    s.waf.rSize (ringBlk i.val r.val) ≤ s.waf.rHeld (ringBlk i.val r.val) :=
  ⟨on (ring 3 3 sram0 0 16 0), who0, 3, .unhal, 1, 7, [1, 2, 3, 4, 5, 6, 7, 8], by decide +kernel⟩

theorem wit_QueueOperations_3 : ∃ (s : State) (_q : Requester) (_tag : BitVec 12) (src : Src) (i : Fin 128) (r : Fin 2048) (n : Nat),
    s.waf.out = [] ∧
    s.waf.dieStatus i.val = 0 ∧
    Wafer.queAllowed src (s.waf.rVol (ringBlk i.val r.val)) = true ∧
    s.waf.ringOn (ringBlk i.val r.val) = true ∧
    s.waf.rKind (ringBlk i.val r.val) = 3 ∧
    n = s.waf.get (ringBlk i.val r.val) F.QUE_RING_CTRL.ESIZE_LOG2 ∧
    s.waf.rHeld (ringBlk i.val r.val) ≠ 0 ∧
    s.waf.poison = [] :=
  ⟨on (ring 3 3 sram0 0 0 0xFFFFFFFF), who0, 3, .unhal, 1, 7, 3, by decide +kernel⟩

theorem wit_QueueOperations_4 : ∃ (s : State) (_q : Requester) (_tag : BitVec 12) (src : Src) (i : Fin 128) (r : Fin 2048) (n : Nat),
    s.waf.out = [] ∧
    s.waf.dieStatus i.val = 0 ∧
    Wafer.queAllowed src (s.waf.rVol (ringBlk i.val r.val)) = true ∧
    s.waf.ringOn (ringBlk i.val r.val) = true ∧
    s.waf.rKind (ringBlk i.val r.val) = 3 ∧
    n = s.waf.get (ringBlk i.val r.val) F.QUE_RING_CTRL.ESIZE_LOG2 ∧
    s.waf.rHeld (ringBlk i.val r.val) = 0 :=
  ⟨on (ring 3 3 sram0 0 16 16), who0, 3, .unhal, 1, 7, 3, by decide +kernel⟩

theorem wit_QueueOperations_5 : ∃ (s : State) (q : Requester) (tag : BitVec 12) (st : Nat) (res : Nat) (v : Word) (d : List Byte) (o : Out),
    s.waf.net = [.queueRsp q tag.toNat st res v d] ∧
    s.waf.out = [o] ∧
    o.who = q ∧
    o.tag = tag.toNat ∧
    o.cmd = none ∧
    96 ≤ q.unit.toNat :=
  ⟨on fun w => { w with net := [.queueRsp who0 5 0 1 2 []], out := [out0 none] }, who0, 5, 0, 1, 2, [], out0 none, by decide +kernel⟩

theorem wit_QueueOperations_6 : ∃ (s : State) (q : Requester) (tag : BitVec 12) (res : Nat) (v : Word) (o : Out),
    s.waf.net = [.wake q tag.toNat res v] ∧
    s.waf.out = [o] ∧
    o.who = q ∧
    o.tag = tag.toNat ∧
    o.cmd = none ∧
    96 ≤ q.unit.toNat :=
  ⟨on fun w => { w with net := [.wake who0 5 0 2], out := [out0 none] }, who0, 5, 0, 2, out0 none, by decide +kernel⟩

theorem wit_QueueOperations_7 : ∃ (s : State) (q : Requester) (tag : BitVec 12) (v : Word) (o : Out) (c : Cmd) (k : Nat × Nat),
    s.waf.net = [.wake q tag.toNat qDone v] ∧
    s.waf.out = [o] ∧
    o.who = q ∧
    o.tag = tag.toNat ∧
    o.cmd = some k ∧
    s.waf.cmd? k.1 k.2 = some c ∧
    c.run.isSome = true :=
  ⟨on fun w => { w with net := [.wake who0 5 0 2], out := [out0 (some (1, 0))], cmds := [cmd0] }, who0, 5, 2, out0 (some (1, 0)), cmd0, (1, 0), by decide +kernel⟩

theorem wit_Mailboxes_1 : ∃ (s : State) (a : MbxActor) (e : Fin 16) (c : Fin 64) (_x : BitVec 32),
    s.waf.active (128 + e.val) = true ∧
    s.waf.ribbonPostStops a e.val c.val = false ∧
    s.waf.mbxClient a e.val c.val = true ∧
    s.waf.mbxState e.val c.val false = 0 ∧
    s.waf.mbxForm e.val c.val false = true :=
  ⟨on (chan 0 0 0), .volume 2, 1, 16, 0x12345678, by decide +kernel⟩

theorem wit_Mailboxes_2 : ∃ (s : State) (a : MbxActor) (e : Fin 16) (c : Fin 64) (n : BitVec 5) (_x : BitVec 16),
    s.waf.active (128 + e.val) = true ∧
    s.waf.ribbonPostStops a e.val c.val = false ∧
    s.waf.mbxClient a e.val c.val = true ∧
    s.waf.mbxState e.val c.val false = 0 ∧
    s.waf.mbxForm e.val c.val true = true ∧
    0 < n.toNat ∧
    n.toNat ≤ 16 :=
  ⟨on (chan 2 0 0), .volume 2, 1, 16, 16, 7, by decide +kernel⟩

theorem wit_Mailboxes_3 : ∃ (s : State) (e : Fin 16) (c : Fin 64),
    s.waf.active (128 + e.val) = true ∧
    s.waf.mbxState e.val c.val false = 1 ∧
    Wafer.mbxRibbon e.val c.val = false ∧
    s.waf.flag (dirBlk e.val c.val false) F.QUE_MBX_STAT.NOTIFY_EMPTY = false :=
  ⟨on (chan 6 1 0), 1, 16, by decide +kernel⟩

theorem wit_Mailboxes_3b : ∃ (s : State) (e : Fin 16) (c : Fin 64),
    s.waf.active (128 + e.val) = true ∧
    s.waf.mbxState e.val c.val false = 1 ∧
    Wafer.mbxRibbon e.val c.val = false ∧
    s.waf.flag (dirBlk e.val c.val false) F.QUE_MBX_STAT.NOTIFY_EMPTY = false :=
  ⟨on (chan 2 1 0), 1, 16, by decide +kernel⟩

theorem wit_Mailboxes_4 : ∃ (s : State) (a : MbxActor) (e : Fin 16) (c : Fin 64),
    s.waf.active (128 + e.val) = true ∧
    s.waf.mbxState e.val c.val true = 1 ∧
    s.waf.mbxClient a e.val c.val = true ∧
    s.waf.que.replies = [] :=
  ⟨on (chan 0 0 1), .volume 2, 1, 16, by decide +kernel⟩

theorem wit_Mailboxes_5 : ∃ (s : State) (e : Fin 16) (c : Fin 64) (_x : BitVec 16),
    s.waf.active (128 + e.val) = true ∧
    s.waf.mbxState e.val c.val false = 2 ∧
    Wafer.mbxRibbon e.val c.val = false ∧
    s.waf.flag (dirBlk e.val c.val false) F.QUE_MBX_STAT.NOTIFY_EMPTY = false :=
  ⟨on (chan 6 2 0), 1, 16, 0xFFFF, by decide +kernel⟩

theorem wit_Mailboxes_6 : ∃ (s : State) (a : MbxActor) (e : Fin 16) (c : Fin 64),
    s.waf.active (128 + e.val) = true ∧
    s.waf.mbxState e.val c.val false = 1 ∧
    s.waf.mbxClient a e.val c.val = true ∧
    Wafer.mbxRibbon e.val c.val = false ∧
    s.waf.flag (dirBlk e.val c.val false) F.QUE_MBX_STAT.NOTIFY_EMPTY = false :=
  ⟨on (chan 0 1 0), .volume 2, 1, 16, by decide +kernel⟩

theorem wit_Mailboxes_7 : ∃ (s : State) (a : MbxActor) (e : Fin 16) (c : Fin 64),
    s.waf.active (128 + e.val) = true ∧
    s.waf.mbxClient a e.val c.val = true ∧
    a ≠ .unhal :=
  ⟨on (chan 0 1 0), .volume 2, 1, 16, by decide +kernel⟩

theorem wit_Mailboxes_8 : ∃ (s : State) (v : Fin 64) (e : Fin 16) (c : Fin 64),
    s.waf.mbxClient (.volume v) e.val c.val = false :=
  ⟨on (chan 0 1 0), 3, 1, 16, by decide +kernel⟩

end F

namespace G


/-- Ring r of site 1, enabled, with 16 entries of 2^e bytes at `base`: kind, further CTRL bits, PI, CI. -/
def ringAt (r kind e base bits pi ci : Nat) (w : Wafer) : Wafer :=
  let b := ringBlk 1 r
  ((w.setReg b (BitVec.ofNat 64 base)).setReg (b + 8) (BitVec.ofNat 64 (kind + 16 + e * 2 ^ 7 + 2 ^ 18 + bits))).setReg (b + 16)
    (BitVec.ofNat 64 (pi + ci * 2 ^ 32))

/-- A run just begun on engine 0. -/
def run0 : Run :=
  { start := 1, eng := 0, space := 0, clusters := [], areas := [], units := [], next := [], ended := [], slots := [],
    entries := 0, flags := 0, passes := 0, inPass := false, half := false, page := 0, operand := [],
    delivered := none, asked := false, reloc := 0, ready := [], gathered := none }

/-- A SYNC command that runs. -/
def cmd0 : Cmd :=
  { site := 1, idx := 0, st := .running, replays := 0, vol := 0, cls := 1, defWritten := false, buddyRun := false, ring := 0,
    home := 1, descIndex := 0, complIndex := 0, acceptRef := 0, firstStart := 1, claim := none, atomics := 0, lastFault := 0,
    lastDetail := 0, desc := 3 :: List.replicate 63 0, header := [], stages := [], final := [], order := 0, mirrored := true,
    mir := [], listRead := true, seen := true, epoch := 0, jumped := false, srcLost := none, aborting := none, noReplay := false,
    rebuild := false, handed := none,
    run := some run0 }

def hbm0 : Nat := 0x2010000000000000
def sram0 : Nat := 0x0001000000010000

/-- A work ring 7 with n descriptors from index i, its completion ring 8. -/
def work (n i : Nat) (w : Wafer) : Wafer :=
  ringAt 8 1 5 (hbm0 + 0x10000) 0 0 0 (ringAt 7 0 6 hbm0 (8 * 2 ^ 48) (i + n) i w)

/-- A FUSED descriptor: two stages at `body`, one record at `input`. -/
def descF (body : Nat) : List Byte :=
  toLE 1 1 ++ toLE 1 1 ++ toLE 1 0 ++ toLE 1 2 ++ toLE 4 0 ++ toLE 8 0 ++ toLE 8 77 ++ toLE 8 body ++ toLE 8 (sram0 + 0x1000) ++ toLE 4 1 ++
  toLE 4 1 ++ toLE 8 (sram0 + 0x2000) ++ toLE 8 0

def head0 : List Byte := toLE 2 8 ++ toLE 2 1 ++ toLE 4 0 ++ toLE 8 (sram0 + 0x3000) ++ toLE 4 256 ++ List.replicate 44 0
def fetchS : List Byte := [0x00, 0xFF, 2, 0, 8, 0, 0, 0] ++ List.replicate 56 0
def emitS : List Byte := [0x05, 0xFF, 0, 0, 0, 0, 0, 0] ++ List.replicate 16 0 ++ toLE 8 8 ++ List.replicate 32 0


/-- A FUSED command, accepted, its list not read. -/
def fus (body : Nat) : Cmd := { cmd0 with st := .accepted, firstStart := 0, desc := descF body, listRead := false, seen := false, run := none }
/-- With its list. -/
def fusL : Cmd := { fus sram0 with header := head0, stages := [fetchS, emitS], listRead := true }
/-- Running. -/
def fusR (r : Run) : Cmd := { fusL with st := .running, firstStart := 1, run := some r }

def has (c : Cmd) (w : Wafer) : Wafer := { w with cmds := [c], order := 1 }

def pend0 : Pend := { home := 1, ring := 8, bytes := List.replicate 32 0, vol := 0, cmd := none, final := true, slots := 2,
                       writer := 1, retryAt := none, once := false }

/-- Bytes at an address of memory. -/
def put (a : Nat) (l : List Byte) (w : Wafer) : Wafer := w.save a l

/-- A FOLIO command past its deadline, running. -/
def folio : Cmd := { fusR run0 with cls := 0, desc := patch (descF sram0) 1 (toLE 1 4) }

def aborted (n : Bool) (k : Nat) : Cmd := { fusR run0 with run := none, aborting := some 5, lastFault := 0x5162, noReplay := n, replays := k }

/-- A MATRIX unit on engine 2. -/
def unit2 : Unit_ := { stage := 0, mb := 0, res := 2, start := 1 }
def on2 : OnEng := { idx := 0, stage := 0, mb := 0, pass := 0, done := 0, start := 1 }
def eng2 (x : Eng) (w : Wafer) : Wafer := has { fusR { run0 with eng := 2, units := [unit2] } with stages := [emitS, emitS] } (w.setEng 1 2 x)

/-- A rotation group of sites 1 and 2 in slot 3, SRAM_BYTES 256. -/
def group (st called : Nat) (w : Wafer) : Wafer :=
  let one (s p : Nat) (w : Wafer) : Wafer :=
    (((w.setReg (rotBlk s 3) (BitVec.ofNat 64 (1 + 1 * 128 + 2 * 2 ^ 14 + p * 2 ^ 22 + st * 2 ^ 32))).setReg (rotBlk s 3 + 0x30)
      (BitVec.ofNat 64 (called * 2 ^ 32))).setReg (rotBlk s 3 + 0x10) (BitVec.ofNat 64 (s * 2 ^ 48 + 0x20000))).setReg (rotBlk s 3 + 0x18)
        (BitVec.ofNat 64 (s * 2 ^ 48 + 0x30000)) |>.setReg (rotBlk s 3 + 0x20) 256
  one 2 1 (one 1 0 w)

/-- A command bound to slot 3. -/
def rotC (r : Run) : Cmd := { fusR r with desc := patch (descF sram0) 56 (toLE 2 0x8003) }

/-- A group of one in slot 3. -/
def alone (w : Wafer) : Wafer := w.setReg (rotBlk 1 3) (BitVec.ofNat 64 (1 + 1 * 128 + 1 * 2 ^ 14 + 1 * 2 ^ 32))

/-- A command with a PRE, a PAGE and a POST stage. -/
def rotD : Cmd :=
  let mat : List Byte := [0x22, 0xFF, 2, 0, 8, 0, 0, 0] ++ List.replicate 10 0 ++ [0, 0] ++ List.replicate 44 0
  { rotC { run0 with passes := 1 } with header := patch head0 24 (toLE 8 (sram0 + 0x4000) ++ toLE 4 0x1000), stages := [patch fetchS 0 [0x10], mat, patch emitS 0 [0x35]] }

def sess0 : Sess := { vol := 2, gid := 9, shelf := false, parts := [], vals := [], gave := [], broken := false }

theorem wit_CommandIntake_1 : ∃ (s : State) (i : Fin 128) (r : Nat),
    s.waf.active i.val = true ∧
    (s.waf.que.bursts.filter (fun x => x.site == i.val)).length < 4 ∧
    s.waf.nextRing i.val = some r :=
  ⟨on (work 3 0xFFFFFFF8), 1, 7, by decide +kernel⟩

theorem wit_CommandIntake_2 : ∃ (s : State) (i : Fin 128) (r : Fin 2048) (x : Burst),
    s.waf.active i.val = true ∧
    s.waf.que.bursts = [x] ∧
    x.site = i.val ∧
    x.ring = r.val ∧
    x.count = 1 ∧
    s.waf.cmds = [] ∧
    s.waf.reg (ringBlk i.val r.val + 0x18) = 0 ∧
    s.waf.readStatus (volSrc (s.waf.rVol (ringBlk i.val r.val))) (s.waf.rSlot (ringBlk i.val r.val) (x.first % 2 ^ 32)) 64 = stOk ∧
    leAt (s.waf.load (s.waf.rSlot (ringBlk i.val r.val) (x.first % 2 ^ 32)) 64) 0 1 = 1 ∧
    descCode (s.waf.load (s.waf.rSlot (ringBlk i.val r.val) (x.first % 2 ^ 32)) 64) = 0 :=
  ⟨on fun w => { put hbm0 (descF sram0) (work 1 0xFFFFFFF0 w) with que := { w.que with bursts := [⟨1, 7, 0xFFFFFFF0, 1⟩] } }, 1, 7, ⟨1, 7, 0xFFFFFFF0, 1⟩, by decide +kernel⟩

theorem wit_CommandIntake_3 : ∃ (s : State) (i : Fin 128) (r : Fin 1024) (c : Cmd) (d : Cmd) (h : List Byte) (l : List (List Byte)),
    s.waf.cmd? i.val r.val = some c ∧
    s.waf.active i.val = true ∧
    c.st = .accepted ∧
    c.fused = true ∧
    c.listRead = false ∧
    l.length = c.stageCount ∧
    ((∀ j, j < c.stageCount + 1 → (adRegion (c.body + 64 * j) = 2 ∨ s.waf.ownSram c.vol c.home (c.body + 64 * j) 64 = true) ∧ s.waf.fetch (s.waf.ctxOf c 0) (c.body + 64 * j) 64 = .ok ((h :: l).getD j []))) ∧
    d = { c with header := h, stages := l, listRead := true } ∧
    s.waf.listCode d = none ∧
    s.waf.sourceGone d = none :=
  ⟨on fun w => put sram0 (head0 ++ fetchS ++ emitS) (has (fus sram0) (work 0 0 w)), 1, 0, fus sram0, { fus sram0 with header := head0, stages := [fetchS, emitS], listRead := true }, head0, [fetchS, emitS], by decide +kernel⟩

theorem wit_CommandIntake_4 : ∃ (s : State) (i : Fin 128) (r : Fin 1024) (c : Cmd),
    s.waf.cmd? i.val r.val = some c ∧
    s.waf.active i.val = true ∧
    c.st = .accepted ∧
    c.fused = true ∧
    c.listRead = false ∧
    adRegion c.body ≠ 2 ∧
    s.waf.ownSram c.vol c.home c.body 64 = false :=
  ⟨on fun w => has (fus 0x0002000000010000) (work 0 0 w), 1, 0, fus 0x0002000000010000, by decide +kernel⟩

theorem wit_CommandIntake_5 : ∃ (s : State) (i : Fin 128) (r : Fin 1024) (c : Cmd),
    s.waf.cmd? i.val r.val = some c ∧
    s.waf.active i.val = true ∧
    s.waf.canStart c = true ∧
    s.waf.rotRuns c = true ∧
    c.fused = true :=
  ⟨on fun w => has fusL (work 0 0 w), 1, 0, fusL, by decide +kernel⟩

theorem wit_CommandIntake_6 : ∃ (s : State) (i : Fin 128) (r : Fin 1024) (c : Cmd),
    s.waf.cmd? i.val r.val = some c ∧
    s.waf.active i.val = true ∧
    s.waf.canStart c = true ∧
    c.opcode = 0 :=
  ⟨on fun w => has { fusL with desc := List.replicate 64 0, stages := [], ring := 7 } (work 0 0 w), 1, 0, { fusL with desc := List.replicate 64 0, stages := [], ring := 7 }, by decide +kernel⟩

theorem wit_CommandEnds_1 : ∃ (s : State) (i : Fin 128) (r : Fin 2048) (p : Pend),
    s.waf.que.pend = [p] ∧
    p.home = i.val ∧
    p.ring = r.val ∧
    p.retryAt = none ∧
    p.cmd = none ∧
    s.waf.active p.writer = true ∧
    s.waf.writeStatus (volSrc p.vol) (s.waf.rSlot (ringBlk i.val r.val) (s.waf.rPI (ringBlk i.val r.val))) 32 = stOk :=
  ⟨on fun w => { work 0 0 w with que := { w.que with pend := [pend0] } }, 1, 8, pend0, by decide +kernel⟩

theorem wit_CommandEnds_2 : ∃ (s : State) (i : Fin 128) (r : Fin 2048) (p : Pend),
    s.waf.que.pend = [p] ∧
    p.home = i.val ∧
    p.ring = r.val ∧
    p.retryAt = none ∧
    p.cmd = none ∧
    s.waf.active p.writer = true ∧
    s.waf.writeStatus (volSrc p.vol) (s.waf.rSlot (ringBlk i.val r.val) (s.waf.rPI (ringBlk i.val r.val))) 32 ≠ stOk ∧
    p.once = false :=
  ⟨on fun w => { ringAt 8 1 5 0x2FFF000000000000 0 0 0 w with que := { w.que with pend := [pend0] } }, 1, 8, pend0, by decide +kernel⟩

theorem wit_CommandEnds_3 : ∃ (s : State) (i : Fin 128) (r : Fin 2048) (p : Pend) (t0 : Nat),
    s.waf.que.pend = [p] ∧
    p.home = i.val ∧
    p.ring = r.val ∧
    p.retryAt = some t0 ∧
    t0 ≤ s.waf.now ∧
    p.cmd = none ∧
    s.waf.active p.writer = true ∧
    s.waf.writeStatus (volSrc p.vol) (s.waf.rSlot (ringBlk i.val r.val) (s.waf.rPI (ringBlk i.val r.val))) 32 = stOk :=
  ⟨on fun w => { work 0 0 w with que := { w.que with pend := [{ pend0 with retryAt := some 1000000 }] } }, 1, 8, { pend0 with retryAt := some 1000000 }, 1000000, by decide +kernel⟩

theorem wit_CommandEnds_4 : ∃ (s : State) (i : Fin 128) (r : Fin 1024) (c : Cmd),
    s.waf.cmd? i.val r.val = some c ∧
    s.waf.active i.val = true ∧
    s.waf.deadlineHit c = true :=
  ⟨on fun w => has folio (w.set (imgKey 1 0) F.FOL_IMG.SOURCE_OFF 0), 1, 0, folio, by decide +kernel⟩

theorem wit_CommandEnds_5 : ∃ (s : State) (i : Fin 128) (r : Fin 1024) (c : Cmd),
    s.waf.cmd? i.val r.val = some c ∧
    s.waf.active i.val = true ∧
    c.isOpen = true ∧
    c.firstStart ≠ 0 ∧
    c.run.isSome = true ∧
    s.waf.deadlineHit c = false ∧
    ms (s.waf.get (cmdBlk i.val) F.CMD_CFG.CMD_TIMEOUT_MS) ≤ since c.firstStart (s.waf.refcount i.val) :=
  ⟨on fun w => { has (fusR run0) w with now := 10 ^ 12 }, 1, 0, fusR run0, by decide +kernel⟩

theorem wit_CommandEnds_6 : ∃ (s : State) (i : Fin 128) (r : Fin 1024) (g : Fin 8) (c : Cmd) (y : Run) (u : Unit_),
    s.waf.cmd? i.val r.val = some c ∧
    s.waf.active i.val = true ∧
    c.run = some y ∧
    y.units = [u] ∧
    u.stage = g.val ∧
    8 ≤ u.res ∧
    c.kindOf g.val ≠ kGather ∧
    us (s.waf.get (cmdBlk i.val) F.CMD_CFG.STAGE_WD_US) ≤ since u.start s.waf.now :=
  ⟨on fun w => { has (fusR { run0 with units := [{ stage := 0, mb := 0, res := 96, start := 1 }] }) w with now := 10 ^ 12 }, 1, 0, 0, fusR { run0 with units := [{ stage := 0, mb := 0, res := 96, start := 1 }] }, { run0 with units := [{ stage := 0, mb := 0, res := 96, start := 1 }] }, { stage := 0, mb := 0, res := 96, start := 1 }, by decide +kernel⟩

theorem wit_CommandEnds_7 : ∃ (s : State) (i : Fin 128) (r : Fin 1024) (c : Cmd),
    s.waf.cmd? i.val r.val = some c ∧
    s.waf.active i.val = true ∧
    c.aborting.isSome = true ∧
    c.run = none ∧
    c.rebuild = false ∧
    c.noReplay = true :=
  ⟨on fun w => has (aborted true 0) w, 1, 0, aborted true 0, by decide +kernel⟩

theorem wit_CommandEnds_8 : ∃ (s : State) (i : Fin 128) (r : Fin 1024) (c : Cmd),
    s.waf.cmd? i.val r.val = some c ∧
    s.waf.active i.val = true ∧
    c.aborting.isSome = true ∧
    c.run = none ∧
    c.rebuild = false ∧
    c.noReplay = false ∧
    c.replays < s.waf.get (fltBlk i.val) F.FLT_CFG.MAX_REPLAYS :=
  ⟨on fun w => has (aborted false 1) w, 1, 0, aborted false 1, by decide +kernel⟩

theorem wit_CommandEnds_9 : ∃ (s : State) (i : Fin 128) (r : Fin 1024) (c : Cmd),
    s.waf.cmd? i.val r.val = some c ∧
    s.waf.active i.val = true ∧
    c.aborting.isSome = true ∧
    c.run = none ∧
    c.rebuild = false ∧
    c.noReplay = false ∧
    s.waf.get (fltBlk i.val) F.FLT_CFG.MAX_REPLAYS ≤ c.replays :=
  ⟨on fun w => has (aborted false 7) w, 1, 0, aborted false 7, by decide +kernel⟩

theorem wit_UnitsOfWork_1 : ∃ (s : State) (i : Fin 128) (r : Fin 1024) (g : Fin 8) (c : Cmd) (y : Run) (k : Nat),
    s.waf.cmd? i.val r.val = some c ∧
    s.waf.active i.val = true ∧
    c.run = some y ∧
    c.readyUnit y g.val = some k ∧
    ((c.kindOf g.val = 0 ∨ c.kindOf g.val = 5)) ∧
    s.waf.unitTurn c y g.val = true ∧
    s.waf.engineBusy i.val (s.waf.stageEngine c y g.val) = false :=
  ⟨on fun w => has (fusR run0) w, 1, 0, 0, fusR run0, run0, 0, by decide +kernel⟩

theorem wit_UnitsOfWork_2 : ∃ (s : State) (i : Fin 128) (r : Fin 1024) (c : Cmd) (y : Run) (u : Unit_) (l : List Byte),
    s.waf.cmds = [c] ∧
    c.site = i.val ∧
    c.idx = r.val ∧
    s.waf.active i.val = true ∧
    c.st = .running ∧
    c.fused = true ∧
    c.rotSlot = none ∧
    c.run = some y ∧
    y.units = [u] ∧
    u.stage = 0 ∧
    8 ≤ u.res ∧
    c.kindOf 0 = kFetch ∧
    c.kindOf 1 ≠ kGather ∧
    s.waf.lve.grants = [] ∧
    s.waf.fetchInput c u.mb = .ok l :=
  ⟨on fun w => put (sram0 + 0x1000) [1, 2, 3] (has (fusR { run0 with units := [{ stage := 0, mb := 0, res := 96, start := 1 }] }) w), 1, 0, fusR { run0 with units := [{ stage := 0, mb := 0, res := 96, start := 1 }] }, { run0 with units := [{ stage := 0, mb := 0, res := 96, start := 1 }] }, { stage := 0, mb := 0, res := 96, start := 1 }, [1, 2, 3, 0, 0, 0, 0, 0], by decide +kernel⟩

theorem wit_UnitsOfWork_3 : ∃ (s : State) (i : Fin 128) (e : Fin 8) (x : Saved) (v : Cmd),
    s.waf.active i.val = true ∧
    (s.waf.engAt i.val e.val).saved = [x] ∧
    (s.waf.engAt i.val e.val).on = none ∧
    (s.waf.engAt i.val e.val).halted = none ∧
    s.waf.cmd? i.val x.unit.idx = some v ∧
    v.run.isSome = true ∧
    s.waf.letGo i.val e.val x.by_ = true ∧
    s.waf.heavies v e.val = [] ∧
    s.waf.readStatus .unhal (s.waf.ownAddr (saveSlot i.val e.val x.cls)) 0x4900 = stOk :=
  ⟨on (eng2 { Eng.init with saved := [{ cls := 1, unit := on2, by_ := 5 }] }), 1, 2, { cls := 1, unit := on2, by_ := 5 }, { fusR { run0 with eng := 2, units := [unit2] } with stages := [emitS, emitS] }, by decide +kernel⟩

theorem wit_UnitsOfWork_4 : ∃ (s : State) (i : Fin 128) (e : Fin 8) (o : OnEng) (c : Cmd),
    s.waf.active i.val = true ∧
    (s.waf.engAt i.val e.val).on = some o ∧
    s.waf.cmd? i.val o.idx = some c :=
  ⟨on (eng2 { Eng.init with on := some on2 }), 1, 2, on2, { fusR { run0 with eng := 2, units := [unit2] } with stages := [emitS, emitS] }, by decide +kernel⟩

theorem wit_UnitsOfWork_5 : ∃ (s : State) (src : Src) (i : Fin 128) (e : Fin 8),
    configSrc src = true ∧
    s.waf.active i.val = true ∧
    (s.waf.engAt i.val e.val).halted = none :=
  ⟨on (eng2 { Eng.init with on := some on2 }), .unhal, 1, 2, by decide +kernel⟩

theorem wit_UnitsOfWork_6 : ∃ (s : State) (src : Src) (i : Fin 128) (e : Fin 8) (n : Nat),
    configSrc src = true ∧
    s.waf.active i.val = true ∧
    (s.waf.engAt i.val e.val).halted = some n :=
  ⟨on (eng2 { Eng.init with on := some on2, halted := some 4 }), .ribbon, 1, 2, 4, by decide +kernel⟩

theorem wit_GatherAndRotation_1 : ∃ (s : State) (v : Fin 64) (gid : BitVec 16) (sh : Bool) (n : Nat) (k : Nat) (d : List Byte) (x : Sess),
    s.waf.net = [.gather v.val gid.toNat sh n k d] ∧
    s.waf.gat = [x] ∧
    x.vol = v.val ∧
    x.gid = gid.toNat ∧
    x.shelf = sh ∧
    x.broken = false ∧
    x.vals = [] :=
  ⟨on fun w => { w with net := [.gather 2 9 false 1 0 [7]], gat := [sess0] }, 2, 9, false, 1, 0, [7], sess0, by decide +kernel⟩

theorem wit_GatherAndRotation_2 : ∃ (s : State) (i : Fin 128) (g : Fin 16) (c : Cmd) (y : Run) (m : Nat) (ms : List Nat),
    s.waf.active i.val = true ∧
    s.waf.bound i.val g.val = [c] ∧
    c.run = some y ∧
    c.st = .running ∧
    y.inPass = false ∧
    y.asked = false ∧
    0 < y.passes ∧
    y.passes < s.waf.rotG c ∧
    s.waf.rotMembers g.val (s.waf.get (rotBlk i.val g.val) F.CMD_ROT_CFG.FIRST) = m :: ms ∧
    s.waf.get (rotBlk i.val g.val) F.CMD_ROT_TURNS.CALLED = 0 :=
  ⟨on fun w => has (rotC { run0 with passes := 1 }) (group 1 0 w), 1, 3, rotC { run0 with passes := 1 }, { run0 with passes := 1 }, 1, [2], by decide +kernel⟩

theorem wit_GatherAndRotation_3 : ∃ (s : State) (i : Fin 128) (g : Fin 16) (ms : List Nat),
    s.waf.active i.val = true ∧
    s.waf.net = [.turnReq i.val g.val] ∧
    s.waf.rotMembers g.val (s.waf.get (rotBlk i.val g.val) F.CMD_ROT_CFG.FIRST) = ms ∧
    (∀ m ∈ ms, s.waf.get (rotBlk m g.val) F.CMD_ROT_CFG.STATE = 1 ∧ s.waf.get (rotBlk m g.val) F.CMD_ROT_TURNS.CALLED = 0) :=
  ⟨on fun w => { group 1 0 w with net := [.turnReq 1 3] }, 1, 3, [1, 2], by decide +kernel⟩

theorem wit_GatherAndRotation_4 : ∃ (s : State) (i : Fin 128) (g : Fin 16) (d : Nat),
    s.waf.active i.val = true ∧
    s.waf.active d = true ∧
    i.val ≠ d ∧
    s.waf.rotMembers g.val (s.waf.get (rotBlk i.val g.val) F.CMD_ROT_CFG.FIRST) = [i.val, d] ∧
    s.waf.get (rotBlk i.val g.val) F.CMD_ROT_CFG.VALID = 1 ∧
    s.waf.get (rotBlk i.val g.val) F.CMD_ROT_TURNS.CALLED = 1 ∧
    (s.waf.turnAt i.val g.val).sent = false ∧
    (s.waf.turnAt d g.val).arrived = false ∧
    s.waf.bound i.val g.val = [] ∧
    s.waf.asc.bad = [] ∧
    s.waf.get (rotBlk i.val g.val) F.CMD_ROT_BANKS.BANKS * 0x20000 + s.waf.get (rotBlk i.val g.val) F.CMD_ROT_SIZE.SRAM_BYTES ≤ 2 ^ 20 ∧
    s.waf.readStatus .unhal (s.waf.halfSram i.val g.val (s.waf.flag (rotBlk i.val g.val) F.CMD_ROT_CFG.HALF)) (s.waf.get (rotBlk i.val g.val) F.CMD_ROT_SIZE.SRAM_BYTES) = stOk :=
  ⟨on (group 2 1), 1, 3, 2, by decide +kernel⟩

theorem wit_GatherAndRotation_5 : ∃ (s : State) (i : Fin 128) (g : Fin 16),
    s.waf.active i.val = true ∧
    (s.waf.turnAt i.val g.val).sent = true ∧
    (s.waf.turnAt i.val g.val).arrived = true ∧
    s.waf.get (rotBlk i.val g.val) F.CMD_ROT_CFG.VALID = 1 ∧
    s.waf.bound i.val g.val = [] ∧
    0 < s.waf.get (rotBlk i.val g.val) F.CMD_ROT_CFG.MEMBERS :=
  ⟨on fun w => (group 2 1 w).setTurn 1 3 ⟨true, true⟩, 1, 3, by decide +kernel⟩

theorem wit_GatherAndRotation_6 : ∃ (s : State) (i : Fin 128) (r : Fin 1024) (c : Cmd) (y : Run),
    s.waf.cmd? i.val r.val = some c ∧
    s.waf.active i.val = true ∧
    c.run = some y ∧
    c.rot = true ∧
    c.st = .running ∧
    y.inPass = false ∧
    y.delivered = none ∧
    s.waf.rotG c = 1 ∧
    1 ≤ y.passes ∧
    s.waf.readStatus (Wafer.areaSrc c) (s.waf.scratchAt c + c.partialOff 0) (c.records * sgOut (c.stage c.lastPage)) = stOk :=
  ⟨on fun w => put (sram0 + 0x4100) [9, 8] (has rotD (alone w)), 1, 0, rotD, { run0 with passes := 1 }, by decide +kernel⟩

end G

namespace H

/-- A grant of 57 LU on engine 2 of site 1, for own record 0. -/
def grant0 : Grant := { site := 1, res := 2, handle := 9, cls := 2, vol := 3, lu := 57, decided := 5, expiry := 1000100, dur := 1000,
                        tail := false, arrived := true, asked := false, owner := some 0, forReq := none }

/-- The wafer with a pool of 200 W × 32 / 10 per site and some grants. -/
def leave (l : List Grant) (w : Wafer) : Wafer := { w with lve := { w.lve with env := 20000, grants := l } }

def ask0 : LeaveReq := { site := 1, res := 2, cls := 1, vol := 0, lu := 57, durationUs := 500 }

def wait0 : LWait := { id := 7, site := 1, res := 2, cls := 1, vol := 0, lu := 57, dur := 500, owner := none, denied := true, held := false, hold := 0 }

/-- A command that runs. -/
def cmd0 : Cmd :=
  { site := 1, idx := 0, st := .running, replays := 0, vol := 3, cls := 2, defWritten := false, buddyRun := false, ring := 0,
    home := 1, descIndex := 0, complIndex := 0, acceptRef := 0, firstStart := 1, claim := none, atomics := 0, lastFault := 0,
    lastDetail := 0, desc := 2 :: List.replicate 63 0, header := [], stages := [], final := [], order := 0, mirrored := true,
    mir := [], listRead := true, seen := true, epoch := 0, jumped := false, srcLost := none, aborting := none, noReplay := false,
    rebuild := false, handed := none,
    run := some { start := 1, eng := 2, space := 0, clusters := [], areas := [], units := [], next := [], ended := [], slots := [],
                  entries := 0, flags := 0, passes := 0, inPass := false, half := false, page := 0, operand := [],
                  delivered := none, asked := false, reloc := 0, ready := [], gathered := none } }

def hot (m : Nat) (w : Wafer) : Wafer := { w with lve := { w.lve with meas := [(1, m)] } }

theorem wit_LeaveDecisions_1 : ∃ (s : State) (rq : LeaveReq) (r : LWait),
    s.waf.active rq.site = true ∧
    s.waf.lve.waits = [] ∧
    r = { id := s.waf.lve.next, site := rq.site, res := rq.res, cls := rq.cls, vol := rq.vol, lu := rq.lu, dur := rq.durationUs, owner := s.waf.leaveClient rq, denied := false, held := false, hold := 0 } ∧
    (s.waf.leaveFails r (fun _ => false)).1 = 0 ∧
    (if s.waf.lve.win = s.waf.now / 1000 then s.waf.lve.spent else 0) + r.lu ≤ s.waf.rampLu :=
  ⟨on (leave []), ask0, { wait0 with id := 0, denied := false }, by decide +kernel⟩

theorem wit_LeaveDecisions_2 : ∃ (s : State) (rq : LeaveReq),
    s.waf.active rq.site = true ∧
    s.waf.lve.waits = [] ∧
    (rq.lu = 0 ∨ 600 < rq.lu ∨ rq.durationUs = 0 ∨ 2000 < rq.durationUs) :=
  ⟨on (leave []), { ask0 with lu := 601 }, by decide +kernel⟩

theorem wit_LeaveDecisions_3 : ∃ (s : State) (i : Fin 128) (h : BitVec 16) (g : Grant),
    s.waf.net = [.leaveRecall i h.toNat] ∧
    s.waf.grantOf i.val h.toNat = some g ∧
    g.tail = true ∧
    s.waf.grantBusy g = false :=
  ⟨on fun w => { leave [{ grant0 with tail := true }] w with net := [.leaveRecall 1 9] }, 1, 9, { grant0 with tail := true }, by decide +kernel⟩

theorem wit_LeaveDecisions_4 : ∃ (s : State) (r : LWait),
    s.waf.lve.waits = [r] ∧
    (s.waf.leaveFails r (fun _ => false)).1 = 0 ∧
    (if s.waf.lve.win = s.waf.now / 1000 then s.waf.lve.spent else 0) + r.lu ≤ s.waf.rampLu :=
  ⟨on fun w => { w with lve := { w.lve with env := 20000, waits := [wait0] } }, wait0, by decide +kernel⟩

theorem wit_LeaveDecisions_5 : ∃ (s : State) (i : Fin 128) (h : BitVec 16) (d : Nat) (g : Grant),
    s.waf.active i.val = true ∧
    s.waf.lve.grants = [g] ∧
    g.site = i.val ∧
    g.handle = h.toNat ∧
    g.tail = false ∧
    s.waf.now < g.expiry ∧
    (s.waf.leaveFails { id := s.waf.lve.next, site := g.site, res := g.res, cls := g.cls, vol := g.vol, lu := g.lu, dur := d, owner := g.owner, denied := false, held := false, hold := 0 } (fun x => x == g)).1 = 0 :=
  ⟨on (leave [{ grant0 with vol := 0 }]), 1, 9, 3, { grant0 with vol := 0 }, by decide +kernel⟩

theorem wit_LeaveDecisions_6 : ∃ (s : State) (i : Fin 128) (h : BitVec 16) (g : Grant) (k : Nat) (c : Cmd),
    s.waf.lve.grants = [g] ∧
    g.site = i.val ∧
    g.handle = h.toNat ∧
    g.arrived = true ∧
    g.tail = false ∧
    g.owner = some k ∧
    s.waf.cmd? i.val k = some c ∧
    c.run.isSome = true ∧
    4 * (g.expiry - s.waf.now) ≤ g.dur :=
  ⟨on fun w => { leave [grant0] w with cmds := [cmd0] }, 1, 9, grant0, 0, cmd0, by decide +kernel⟩

theorem wit_LeaveDecisions_7 : ∃ (s : State) (i : Fin 128) (h : BitVec 16) (g : Grant),
    s.waf.active i.val = true ∧
    s.waf.grantOf i.val h.toNat = some g :=
  ⟨on (leave [grant0]), 1, 9, grant0, by decide +kernel⟩

theorem wit_LeaveDecisions_8 : ∃ (s : State) (i : Fin 128) (h : BitVec 16),
    s.waf.active i.val = true ∧
    s.waf.grantOf i.val h.toNat = none :=
  ⟨on (leave [grant0]), 1, 8, by decide +kernel⟩

theorem wit_LeaveDecisions_9 : ∃ (s : State) (i : Fin 128) (h : BitVec 16) (g : Grant),
    s.waf.lve.grants = [g] ∧
    g.site = i.val ∧
    g.handle = h.toNat ∧
    g.tail = false ∧
    g.expiry ≤ s.waf.now :=
  ⟨on (leave [{ grant0 with expiry := 1000000 }]), 1, 9, { grant0 with expiry := 1000000 }, by decide +kernel⟩

theorem wit_LeaveDecisions_10 : ∃ (s : State) (i : Fin 128) (res : Nat) (e : Nat) (lu : Nat) (g : Grant),
    s.waf.net = [.leaveGrant i.val res g.handle e lu] ∧
    s.waf.lve.grants = [g] ∧
    g.site = i.val ∧
    s.waf.cmds = [] :=
  ⟨on fun w => { leave [{ grant0 with arrived := false }] w with net := [.leaveGrant 1 2 9 1000100 57] }, 1, 2, 1000100, 57, { grant0 with arrived := false }, by decide +kernel⟩

theorem wit_LeaveDecisions_11 : ∃ (s : State) (i : Fin 128) (res : Nat) (reason : Nat) (avail : Nat) (t0 : Nat),
    s.waf.net = [.leaveDenial i.val res reason avail t0] ∧
    res ≠ 1023 ∧
    s.waf.cmds = [] :=
  ⟨on fun w => { w with net := [.leaveDenial 1 2 1 30 999990] }, 1, 2, 1, 30, 999990, by decide +kernel⟩

theorem wit_HeatAndEnvelope_1 : ∃ (s : State),
    s.waf.lve.grants = [] ∧
    s.waf.envelope ≠ s.waf.lve.env :=
  ⟨on (leave []), by decide +kernel⟩

theorem wit_HeatAndEnvelope_2 : ∃ (s : State) (g : Grant),
    s.waf.lve.grants = [g] ∧
    s.waf.envelope = s.waf.lve.env ∧
    s.waf.pool < g.lu ∧
    g.cls ≠ 0 ∧
    g.tail = false ∧
    s.waf.lve.excess = none :=
  ⟨on fun w => { leave [{ grant0 with lu := 600 }] w with lve := { (leave [{ grant0 with lu := 600 }] w).lve with env := w.envelope } }, { grant0 with lu := 600 }, by decide +kernel⟩

theorem wit_HeatAndEnvelope_3 : ∃ (s : State) (t0 : Nat),
    s.waf.lve.excess = some t0 ∧
    s.waf.pool < s.waf.granted ∧
    us 100 ≤ s.waf.now - t0 ∧
    s.waf.lve.emergency = false :=
  ⟨on fun w => { w with lve := { w.lve with grants := [grant0], excess := some 990000 } }, 990000, by decide +kernel⟩

theorem wit_HeatAndEnvelope_4 : ∃ (s : State) (i : Fin 128),
    s.waf.active i.val = true ∧
    s.waf.refcount i.val % 1000 = 0 :=
  ⟨s0, 1, by decide +kernel⟩

theorem wit_HeatAndEnvelope_5 : ∃ (s : State) (i : Fin 128) (x : BitVec 16),
    s.waf.active i.val = true ∧
    s.waf.measStep i.val < thermBand x.toInt ∧
    s.waf.get (lveBlk i.val) F.LVE_SITE_CFG.FORCE_EN = 0 :=
  ⟨on (hot 1), 1, 0x5D0, by decide +kernel⟩

theorem wit_HeatAndEnvelope_6 : ∃ (s : State) (i : Fin 128) (x : BitVec 16),
    s.waf.active i.val = true ∧
    0 < s.waf.measStep i.val ∧
    x.toInt ≤ thermCool (s.waf.measStep i.val) ∧
    Tab.look (fun _ => 0) s.waf.lve.cool i.val = 0 :=
  ⟨on (hot 3), 1, 0x590, by decide +kernel⟩

theorem wit_HeatAndEnvelope_7 : ∃ (s : State) (i : Fin 128) (c : Nat),
    0 < s.waf.measStep i.val ∧
    Tab.look (fun _ => 0) s.waf.lve.cool i.val = c + 1 ∧
    ms 1 ≤ s.waf.now - c ∧
    s.waf.get (lveBlk i.val) F.LVE_SITE_CFG.FORCE_EN = 0 :=
  ⟨on fun w => { w with lve := { w.lve with meas := [(1, 3)], cool := [(1, 900001)] } }, 1, 900000, by decide +kernel⟩

theorem wit_HeatAndEnvelope_8 : ∃ (s : State) (src : Src) (i : Fin 128) (v : BitVec 64),
    s.waf.active i.val = true ∧
    configSrc src = true ∧
    getF v 1 3 ≤ 4 ∧
    getF v 0 1 = 1 :=
  ⟨on (hot 1), .unhal, 1, 9, by decide +kernel⟩

theorem wit_HeatAndEnvelope_9 : ∃ (_s : State) (_src : Src) (_i : Fin 128) (v : BitVec 64),
    4 < getF v 1 3 :=
  ⟨s0, .ribbon, 1, 0xB, by decide +kernel⟩

end H

namespace I

/-- A one-unit entry with metadata VALID 1 and WIDTH 1 unit. -/
def row0 : List Byte := List.replicate 24 7 ++ [1, 2, 3, 4, 1, 0, 0, 0]

/-- Entry row0 at row r of bank 5 of site 1. -/
def entry (r : Nat) (w : Wafer) : Wafer := w.putRows 1 5 r row0

def move0 : Move := { first := 10, last := 12, next := 12, width := 1, up := true }

def moving (x : Move) (w : Wafer) : Wafer := { w with asc := { w.asc with moves := [(64 + 5, x)] } }

/-- A commit of bank 5 waits, with staging row 2 for row 100. -/
def commit5 (w : Wafer) : Wafer :=
  ((w.set (bankBlk 1 5) F.ASC_PAIR_STAT.BUSY 1).setReg (bankBlk 1 5 + 0x1018) (BitVec.ofNat 64 (0x8064 * 2 ^ 32))).setReg (stageRowKey 1 5 2) 0x1122

def image0 : EnsImg := { vol := 2, image := 0x2010000000000000, page0 := 0x1000, stride := 0, banks := 4, replicas := 2, first := 1, sites := 2, bank := 2 }

theorem wit_AssocBanks_1 : ∃ (s : State) (src : Src) (i : Fin 128) (b : Fin 64) (_r : Fin 4096) (l : List Byte),
    s.waf.active i.val = true ∧
    s.waf.bankAllowed src i.val b.val = true ∧
    s.waf.moveAt i.val b.val = none ∧
    l.length = 32 :=
  ⟨on (fun w => w.poisonRow 1 5 4095), .unhal, 1, 5, 4095, row0, by decide +kernel⟩

theorem wit_AssocBanks_2 : ∃ (s : State) (src : Src) (i : Fin 128) (b : Fin 64) (r : Fin 4096) (l : List Byte) (x : Move),
    s.waf.active i.val = true ∧
    s.waf.bankAllowed src i.val b.val = true ∧
    s.waf.moveAt i.val b.val = some x ∧
    (Wafer.moveRows x).1 ≤ r.val ∧
    r.val < (Wafer.moveRows x).2 ∧
    l.length = 32 :=
  ⟨on (moving move0), .volume 0, 1, 5, 13, row0, move0, by decide +kernel⟩

theorem wit_AssocBanks_2b : ∃ (s : State) (src : Src) (i : Fin 128) (b : Fin 64) (r : Fin 4096) (l : List Byte) (x : Move),
    s.waf.active i.val = true ∧
    s.waf.bankAllowed src i.val b.val = true ∧
    s.waf.moveAt i.val b.val = some x ∧
    (Wafer.moveRows x).1 ≤ r.val ∧
    r.val < (Wafer.moveRows x).2 ∧
    l.length = 32 :=
  ⟨on (moving move0), .volume 0, 1, 5, 10, row0, move0, by decide +kernel⟩

theorem wit_AssocBanks_3 : ∃ (s : State) (src : Src) (i : Fin 128) (b : Fin 64),
    s.waf.active i.val = true ∧
    s.waf.bankAllowed src i.val b.val = true :=
  ⟨s0, .ribbon, 1, 63, by decide +kernel⟩

theorem wit_AssocBanks_4 : ∃ (s : State) (i : Fin 128) (b : Fin 64),
    s.waf.active i.val = true ∧
    s.waf.get (bankBlk i.val b.val) F.ASC_PAIR_STAT.BUSY = 1 ∧
    s.waf.pairTargets i.val b.val = [] :=
  ⟨on fun w => w.set (bankBlk 1 5) F.ASC_PAIR_STAT.BUSY 1, 1, 5, by decide +kernel⟩

theorem wit_AssocBanks_5 : ∃ (s : State) (i : Fin 128) (b : Fin 64) (j : Fin 8) (r : Fin 4096),
    s.waf.active i.val = true ∧
    s.waf.get (bankBlk i.val b.val) F.ASC_PAIR_STAT.BUSY = 1 ∧
    s.waf.pairTargets i.val b.val = [(j.val, r.val)] ∧
    s.waf.moveAt i.val b.val = none ∧
    s.waf.rotOf i.val b.val = none :=
  ⟨on commit5, 1, 5, 2, 100, by decide +kernel⟩

theorem wit_AssocBanks_6 : ∃ (s : State) (src : Src) (i : Fin 128) (b : Fin 64) (f : BitVec 12) (l : BitVec 12) (dir : Bool) (c : BitVec 2),
    s.waf.active i.val = true ∧
    s.waf.bankAllowed src i.val b.val = true ∧
    s.waf.moveAt i.val b.val = none ∧
    s.waf.rotOf i.val b.val = none ∧
    widthUnits c.toNat ≠ 0 ∧
    f.toNat % widthUnits c.toNat = 0 ∧
    l.toNat % widthUnits c.toNat = 0 ∧
    f.toNat ≤ l.toNat ∧
    (if dir then widthUnits c.toNat ≤ f.toNat else l.toNat + 2 * widthUnits c.toNat ≤ 4096) ∧
    (∀ r ∈ validRows (bankCells s.waf i.val b.val) i.val b.val, ¬ inBlock (if dir then f.toNat - widthUnits c.toNat else l.toNat + widthUnits c.toNat) (widthUnits c.toNat) r) ∧
    Wafer.uniformRows (bankCells s.waf i.val b.val) i.val b.val f.toNat (l.toNat + widthUnits c.toNat) (widthUnits c.toNat) = true :=
  ⟨on (entry 11), .unhal, 1, 5, 10, 12, false, 0, by decide +kernel⟩

theorem wit_AssocBanks_6b : ∃ (s : State) (src : Src) (i : Fin 128) (b : Fin 64) (f : BitVec 12) (l : BitVec 12) (dir : Bool) (c : BitVec 2),
    s.waf.active i.val = true ∧
    s.waf.bankAllowed src i.val b.val = true ∧
    s.waf.moveAt i.val b.val = none ∧
    s.waf.rotOf i.val b.val = none ∧
    widthUnits c.toNat ≠ 0 ∧
    f.toNat % widthUnits c.toNat = 0 ∧
    l.toNat % widthUnits c.toNat = 0 ∧
    f.toNat ≤ l.toNat ∧
    (if dir then widthUnits c.toNat ≤ f.toNat else l.toNat + 2 * widthUnits c.toNat ≤ 4096) ∧
    (∀ r ∈ validRows (bankCells s.waf i.val b.val) i.val b.val, ¬ inBlock (if dir then f.toNat - widthUnits c.toNat else l.toNat + widthUnits c.toNat) (widthUnits c.toNat) r) ∧
    Wafer.uniformRows (bankCells s.waf i.val b.val) i.val b.val f.toNat (l.toNat + widthUnits c.toNat) (widthUnits c.toNat) = true :=
  ⟨on (entry 1), .unhal, 1, 5, 1, 4095, true, 0, by decide +kernel⟩

theorem wit_AssocBanks_7 : ∃ (s : State) (src : Src) (i : Fin 128) (b : Fin 64) (_f : BitVec 12) (_l : BitVec 12) (_dir : Bool) (_c : BitVec 2),
    s.waf.active i.val = true ∧
    s.waf.bankAllowed src i.val b.val = true ∧
    (s.waf.moveAt i.val b.val).isSome = true :=
  ⟨on (moving move0), .unhal, 1, 5, 10, 12, false, 0, by decide +kernel⟩

theorem wit_AssocBanks_8 : ∃ (s : State) (i : Fin 128) (b : Fin 64) (x : Move),
    s.waf.active i.val = true ∧
    s.waf.moveAt i.val b.val = some x ∧
    (∀ p ∈ Wafer.movePositions x, ∀ r ∈ validRows (bankCells s.waf i.val b.val) i.val b.val, ¬ inBlock p x.width r) :=
  ⟨on fun w => moving move0 (entry 13 w), 1, 5, move0, by decide +kernel⟩

theorem wit_AssocBanks_9 : ∃ (s : State) (i : Fin 128) (b : Fin 64) (x : Move) (p : Nat) (r : Nat) (l : List Nat),
    s.waf.active i.val = true ∧
    s.waf.moveAt i.val b.val = some x ∧
    Wafer.movePositions x = p :: l ∧
    r ∈ validRows (bankCells s.waf i.val b.val) i.val b.val ∧
    inBlock p x.width r ∧
    ((x.up = true ∨ x.width ≤ p)) :=
  ⟨on fun w => moving move0 (entry 12 w), 1, 5, move0, 12, 12, [11, 10], by decide +kernel⟩

theorem wit_AssocBanks_9b : ∃ (s : State) (i : Fin 128) (b : Fin 64) (x : Move) (p : Nat) (r : Nat) (l : List Nat),
    s.waf.active i.val = true ∧
    s.waf.moveAt i.val b.val = some x ∧
    Wafer.movePositions x = p :: l ∧
    r ∈ validRows (bankCells s.waf i.val b.val) i.val b.val ∧
    inBlock p x.width r ∧
    ((x.up = true ∨ x.width ≤ p)) :=
  ⟨on fun w => moving { move0 with next := 10 } (entry 10 w), 1, 5, { move0 with next := 10 }, 10, 10, [], by decide +kernel⟩

theorem wit_AssocBanks_10 : ∃ (s : State) (i : Fin 128) (_b : Fin 64),
    s.waf.active i.val = true :=
  ⟨on fun w => { entry 63 w with asc := { w.asc with scrub := [(69, 4095)] } }, 1, 5, by decide +kernel⟩

theorem wit_AssocBanks_11 : ∃ (s : State) (i : Fin 128) (_b : Fin 64),
    s.waf.active i.val = true :=
  ⟨on (entry 63), 1, 5, by decide +kernel⟩

theorem wit_AssocBanks_12 : ∃ (s : State) (i : Fin 128) (b : Fin 64) (r : Nat) (k : Nat) (l : List Nat) (x : EnsImg),
    s.waf.active i.val = true ∧
    s.waf.bankBad i.val b.val = r :: l ∧
    s.waf.rotOf i.val b.val = none ∧
    s.waf.asc.ens = [(k, x)] ∧
    inBlock x.first x.sites i.val ∧
    inBlock x.bank (x.banks * x.replicas) b.val ∧
    s.waf.readStatus .unhal (x.image + x.page0 + (b.val - x.bank) % x.banks * 0x20000 + 32 * r) 32 = stOk :=
  ⟨on fun w => { (w.poisonRow 1 5 9).save 0x2010000000061120 row0 with asc := { (w.poisonRow 1 5 9).asc with ens := [(256, image0)] } }, 1, 5, 9, 256, [], image0, by decide +kernel⟩

end I

namespace J

/-- A run just begun on engine 0. -/
def run0 : Run :=
  { start := 1, eng := 0, space := 0, clusters := [], areas := [], units := [], next := [], ended := [], slots := [],
    entries := 0, flags := 0, passes := 0, inPass := false, half := false, page := 0, operand := [],
    delivered := none, asked := false, reloc := 0, ready := [], gathered := none }

/-- A SYNC command that runs. -/
def cmd0 : Cmd :=
  { site := 1, idx := 0, st := .running, replays := 0, vol := 0, cls := 1, defWritten := false, buddyRun := false, ring := 0,
    home := 1, descIndex := 0, complIndex := 0, acceptRef := 0, firstStart := 1, claim := none, atomics := 0, lastFault := 0,
    lastDetail := 0, desc := 3 :: List.replicate 63 0, header := [], stages := [], final := [], order := 0, mirrored := true,
    mir := [], listRead := true, seen := true, epoch := 0, jumped := false, srcLost := none, aborting := none, noReplay := false,
    rebuild := false, handed := none,
    run := some run0 }

def sram0 : Nat := 0x0001000000010000

/-- Word of an R-type instruction. -/
def rType (f7 rs2 rs1 f3 rd op : Nat) : Nat := f7 * 2 ^ 25 + rs2 * 2 ^ 20 + rs1 * 2 ^ 15 + f3 * 2 ^ 12 + rd * 2 ^ 7 + op

/-- Local memory of core 3 of site 1 at offset o. -/
def loc (o : Nat) : Nat := 0x0001005000030000 + o

/-- A core in M-mode with x5 and x6. -/
def core (a b : Nat) : Core :=
  { Core.init with pc := BitVec.ofNat 64 (loc 0x100), x := [(5, BitVec.ofNat 64 a), (6, BitVec.ofNat 64 b)],
                   csr := [(0x305, 0x5001), (0x802, BitVec.ofNat 64 (loc 0x1000)), (0x803, 2)] }

/-- It stands before an instruction. -/
def at_ (c : Core) (word : Nat) (w : Wafer) : Wafer := (w.store (loc 0x100) (toLE 4 word)).setCore 1 3 c

def put (l : List Byte) (w : Wafer) : Wafer := w.store (loc 0x1000) l

/-- Its store, as the bus performs it. -/
def stored (c : Core) (word : Nat) (l : List Byte) : State := ((on (at_ c word)).busWrite .unhal (loc 0x1000) l).2

/-- A BIN table of one edge. -/
def table (edge : Nat) : List Byte := [1, 0, 0x0C, 7, 0, 0, 0, 0] ++ toLE 4 edge

/-- Two nodes; the second asks whether feature 1 is at least 5. -/
def nodes : List Byte := List.replicate 16 0 ++ toLE 8 (5 + 1 * 2 ^ 32) ++ toLE 4 0x11 ++ toLE 4 0x22 ++ List.replicate 32 0 ++ [0, 0, 9, 0]

/-- A grant of 57 LU on engine 2 of site 1, for own record 0. -/
def grant0 : Grant := { site := 1, res := 2, handle := 9, cls := 2, vol := 3, lu := 57, decided := 5, expiry := 1000100, dur := 1000,
                        tail := false, arrived := true, asked := false, owner := some 0, forReq := none }

/-- The wafer with a pool of 200 W × 32 / 10 per site and some grants. -/
def leave (l : List Grant) (w : Wafer) : Wafer := { w with lve := { w.lve with env := 20000, grants := l } }


def pool (l : List Grant) (w : Wafer) : Wafer := { w with lve := { w.lve with env := 20000, grants := l } }

/-- A command whose stage 1 is a CORE stage. -/
def coreC (r : Run) : Cmd :=
  let coreS : List Byte := [0x01, 0xFF, 2, 1, 8, 0, 0, 0] ++ toLE 8 (sram0 + 0x5000) ++ List.replicate 48 0
  { cmd0 with cls := 1, desc := (toLE 4 0x03000101 ++ List.replicate 36 0 ++ toLE 4 1 ++ List.replicate 20 0),
              header := toLE 2 8 ++ toLE 2 1 ++ List.replicate 60 0,
              stages := [[0x00, 0xFF, 2, 0, 8, 0, 0, 0] ++ List.replicate 56 0, coreS, [0x05, 0xFF, 0, 0, 0, 0, 0, 0] ++ List.replicate 56 0],
              run := some r }

def ia0 : Area := { stage := 1, cluster := 0, off := 0, size := 8, out := false }
def oa0 : Area := { stage := 1, cluster := 0, off := 64, size := 8, out := true }

def runA : Run := { run0 with areas := [ia0, oa0], clusters := [(1, 0)], slots := [{ stage := 0, mb := 0, data := [1, 2, 3, 4, 5, 6, 7, 8], addr := 0 }] }

def block0 : List Byte := toLE 8 (sram0 + 0x6000) ++ toLE 4 64 ++ toLE 4 8 ++ toLE 4 64 ++ List.replicate 108 0

def idle : Core := { Core.init with code := some (sram0 + 0x6000, 64, 0) }

def starts (w : Wafer) : Wafer := (({ w with cmds := [coreC runA] }).store (sram0 + 0x5000) block0).setCore 1 3 idle

/-- A core in U-mode that runs the unit. -/
def unitC (a0 : Nat) : Core :=
  { core 0 0 with mmode := false, unit := some (0, 1, 0), block := patch block0 8 (toLE 4 0x200), outSlot := 0x0001004000000040, x := [(10, BitVec.ofNat 64 a0)] }

def runB : Run := { run0 with areas := [ia0, oa0], clusters := [(1, 0)], units := [{ stage := 1, mb := 0, res := 515, start := 1 }] }

def works (a0 : Nat) (w : Wafer) : Wafer := at_ (unitC a0) 0x73 { w with cmds := [coreC runB] }

theorem wit_CoreInstructions_1 : ∃ (s : State) (i : Fin 128) (k : Fin 96) (raw : Nat) (x : Nat) (len : Nat) (c : Core),
    coreRuns s i.val k.val .other raw x len c ∧
    iOp x = 0x33 ∧
    iF7 x = 0 ∧
    iF3 x = 0 :=
  ⟨on (at_ (core (0xFFFFFFFFFFFFFFFF) (2)) 6456243), 1, 3, 6456243, 6456243, 4, core (0xFFFFFFFFFFFFFFFF) (2), by decide +kernel⟩

theorem wit_CoreInstructions_1b : ∃ (s : State) (i : Fin 128) (k : Fin 96) (raw : Nat) (x : Nat) (len : Nat) (c : Core),
    coreRuns s i.val k.val .other raw x len c ∧
    iOp x = 0x33 ∧
    iF7 x = 0 ∧
    iF3 x = 0 :=
  ⟨on (at_ (core (0xFFFFFFFFFFFFFFFF) (2)) 6455347), 1, 3, 6455347, 6455347, 4, core (0xFFFFFFFFFFFFFFFF) (2), by decide +kernel⟩

theorem wit_CoreInstructions_2 : ∃ (s : State) (i : Fin 128) (k : Fin 96) (raw : Nat) (x : Nat) (len : Nat) (c : Core),
    coreRuns s i.val k.val .other raw x len c ∧
    iOp x = 0x13 ∧
    iF3 x = 0 :=
  ⟨on (at_ (core (1) (2)) 4293034899), 1, 3, 4293034899, 4293034899, 4, core (1) (2), by decide +kernel⟩

theorem wit_CoreInstructions_3 : ∃ (s : State) (i : Fin 128) (k : Fin 96) (raw : Nat) (x : Nat) (len : Nat) (c : Core),
    coreRuns s i.val k.val .other raw x len c ∧
    iOp x = 0x63 ∧
    iF3 x = 0 :=
  ⟨on (at_ (core (2) (2)) 6456419), 1, 3, 6456419, 6456419, 4, core (2) (2), by decide +kernel⟩

theorem wit_CoreInstructions_4 : ∃ (s : State) (i : Fin 128) (k : Fin 96) (raw : Nat) (x : Nat) (len : Nat) (c : Core),
    coreRuns s i.val k.val .other raw x len c ∧
    iOp x = 0x6F :=
  ⟨on (at_ (core (2) (2)) 2097391), 1, 3, 2097391, 2097391, 4, core (2) (2), by decide +kernel⟩

theorem wit_CoreInstructions_5 : ∃ (s : State) (i : Fin 128) (k : Fin 96) (raw : Nat) (x : Nat) (len : Nat) (a : Nat) (n : Nat) (c : Core) (d : List Byte),
    coreRuns s i.val k.val .other raw x len c ∧
    iOp x = 0x03 ∧
    iF3 x ≠ 7 ∧
    n = 2 ^ (iF3 x % 4) ∧
    a = (c.getX (iRs1 x) + BitVec.signExtend 64 (BitVec.ofNat 12 (x / 2 ^ 20))).toNat ∧
    a % n = 0 ∧
    c.mmode = true ∧
    s.waf.cachedLine i.val a = none ∧
    s.waf.busRead s.sup .unhal a n = (stOk, d, s.waf) :=
  ⟨on fun w => at_ (core (loc 0xFF8) 0) 8553347 (put [0x85, 1] w), 1, 3, 8553347, 8553347, 4, loc 0x1000, 1, core (loc 0xFF8) 0, [0x85], by decide +kernel⟩

theorem wit_CoreInstructions_5b : ∃ (s : State) (i : Fin 128) (k : Fin 96) (raw : Nat) (x : Nat) (len : Nat) (a : Nat) (n : Nat) (c : Core) (d : List Byte),
    coreRuns s i.val k.val .other raw x len c ∧
    iOp x = 0x03 ∧
    iF3 x ≠ 7 ∧
    n = 2 ^ (iF3 x % 4) ∧
    a = (c.getX (iRs1 x) + BitVec.signExtend 64 (BitVec.ofNat 12 (x / 2 ^ 20))).toNat ∧
    a % n = 0 ∧
    c.mmode = true ∧
    s.waf.cachedLine i.val a = none ∧
    s.waf.busRead s.sup .unhal a n = (stOk, d, s.waf) :=
  ⟨on fun w => at_ (core (loc 0x1000) 0) 189315 (put [0x85, 1, 2, 0xFF, 9] w), 1, 3, 189315, 189315, 4, loc 0x1000, 4, core (loc 0x1000) 0, [0x85, 1, 2, 0xFF], by decide +kernel⟩

theorem wit_CoreInstructions_6 : ∃ (s : State) (u : State) (i : Fin 128) (k : Fin 96) (raw : Nat) (x : Nat) (len : Nat) (a : Nat) (n : Nat) (c : Core),
    coreRuns s i.val k.val .other raw x len c ∧
    iOp x = 0x23 ∧
    iF3 x ≤ 3 ∧
    n = 2 ^ iF3 x ∧
    a = (c.getX (iRs1 x) + immS x).toNat ∧
    a % n = 0 ∧
    c.mmode = true ∧
    s.waf.cachedLine i.val a = none ∧
    s.busWrite .unhal a (toLE n (c.getX (iRs2 x)).toNat) = (stOk, u) :=
  ⟨on (at_ (core (loc 0x1000) 0x1122) 6467619), stored (core (loc 0x1000) 0x1122) 6467619 (toLE 8 0x1122), 1, 3, 6467619, 6467619, 4, loc 0x1000, 8, core (loc 0x1000) 0x1122, by decide +kernel⟩

theorem wit_CoreInstructions_7 : ∃ (s : State) (i : Fin 128) (k : Fin 96) (raw : Nat) (x : Nat) (len : Nat) (c : Core),
    coreRuns s i.val k.val .folEntry raw x len c :=
  ⟨on (at_ (core (0x1FF) (0)) 172939), 1, 3, 172939, 172939, 4, core (0x1FF) (0), by decide +kernel⟩

theorem wit_CoreInstructions_8 : ∃ (s : State) (i : Fin 128) (k : Fin 96) (raw : Nat) (x : Nat) (len : Nat) (c : Core),
    coreRuns s i.val k.val .folHeld raw x len c :=
  ⟨on (at_ (core (3) (0)) 33727371), 1, 3, 33727371, 33727371, 4, core (3) (0), by decide +kernel⟩

theorem wit_CoreInstructions_9 : ∃ (s : State) (i : Fin 128) (k : Fin 96) (raw : Nat) (x : Nat) (len : Nat) (c : Core),
    coreRuns s i.val k.val .folRef raw x len c :=
  ⟨on (at_ (core (3) (0)) 67117963), 1, 3, 67117963, 67117963, 4, core (3) (0), by decide +kernel⟩

theorem wit_CoreInstructions_10 : ∃ (s : State) (i : Fin 128) (k : Fin 96) (raw : Nat) (x : Nat) (len : Nat) (a : Nat) (n : Nat) (old : Nat) (c : Core) (w : Wafer),
    coreRuns s i.val k.val .amo raw x len c ∧
    n = 2 ^ iF3 x ∧
    a = (c.getX (iRs1 x)).toNat ∧
    a % n = 0 ∧
    c.mmode = true ∧
    s.waf.busAtomic .unhal a n (amoOp (ib x 31 27)) (c.getX (iRs2 x)) 0 = (stOk, old, w) :=
  ⟨on fun w => at_ (core (loc 0x1000) 3) 6464431 (put (toLE 4 0xFFFFFFFE) w), 1, 3, 6464431, 6464431, 4, loc 0x1000, 4, 0xFFFFFFFE, core (loc 0x1000) 3, ((on fun w => at_ (core (loc 0x1000) 3) 6464431 (put (toLE 4 0xFFFFFFFE) w)).waf.busAtomic .unhal (loc 0x1000) 4 2 3 0).2.2, by decide +kernel⟩

theorem wit_CoreInstructions_11 : ∃ (s : State) (i : Fin 128) (k : Fin 96) (raw : Nat) (x : Nat) (len : Nat) (a : Nat) (n : Nat) (c : Core) (d : List Byte),
    coreRuns s i.val k.val .lr raw x len c ∧
    n = 2 ^ iF3 x ∧
    a = (c.getX (iRs1 x)).toNat ∧
    a % n = 0 ∧
    c.mmode = true ∧
    resvPlace s.waf i.val k.val a n = true ∧
    s.waf.cachedLine i.val a = none ∧
    s.waf.busRead s.sup .unhal a n = (stOk, d, s.waf) :=
  ⟨on fun w => at_ (core (loc 0x1000) 3) 268612527 (put [1, 2] w), 1, 3, 268612527, 268612527, 4, loc 0x1000, 8, core (loc 0x1000) 3, [1, 2, 0, 0, 0, 0, 0, 0], by decide +kernel⟩

theorem wit_CoreInstructions_12 : ∃ (s : State) (u : State) (i : Fin 128) (k : Fin 96) (raw : Nat) (x : Nat) (len : Nat) (a : Nat) (n : Nat) (c : Core),
    coreRuns s i.val k.val .sc raw x len c ∧
    n = 2 ^ iF3 x ∧
    a = (c.getX (iRs1 x)).toNat ∧
    a % n = 0 ∧
    c.mmode = true ∧
    resvPlace s.waf i.val k.val a n = true ∧
    s.waf.cachedLine i.val a = none ∧
    c.resv = some (a / 8 * 8 % 2 ^ 56) ∧
    s.busWrite .unhal a (toLE n (c.getX (iRs2 x)).toNat) = (stOk, u) :=
  ⟨on (at_ { core (loc 0x1000) 3 with resv := some (loc 0x1000) } 409121711), stored { core (loc 0x1000) 3 with resv := some (loc 0x1000) } 409121711 (toLE 8 3), 1, 3, 409121711, 409121711, 4, loc 0x1000, 8, { core (loc 0x1000) 3 with resv := some (loc 0x1000) }, by decide +kernel⟩

theorem wit_CoreInstructions_13 : ∃ (s : State) (i : Fin 128) (k : Fin 96) (raw : Nat) (x : Nat) (len : Nat) (a : Nat) (n : Nat) (c : Core),
    coreRuns s i.val k.val .sc raw x len c ∧
    n = 2 ^ iF3 x ∧
    a = (c.getX (iRs1 x)).toNat ∧
    a % n = 0 ∧
    c.mmode = true ∧
    resvPlace s.waf i.val k.val a n = true ∧
    c.resv ≠ some (a / 8 * 8 % 2 ^ 56) :=
  ⟨on (at_ (core (loc 0x1000) 3) 409121711), 1, 3, 409121711, 409121711, 4, loc 0x1000, 8, core (loc 0x1000) 3, by decide +kernel⟩

theorem wit_CoreInstructions_14 : ∃ (s : State) (i : Fin 128) (k : Fin 96) (raw : Nat) (x : Nat) (len : Nat) (c : Core),
    coreRuns s i.val k.val .other raw x len c ∧
    iOp x = 0 ∧
    c.unit = none :=
  ⟨on (at_ (core 1 2) 4), 1, 3, 4, 0, 2, core 1 2, by decide +kernel⟩

theorem wit_CoreVnx_1 : ∃ (s : State) (i : Fin 128) (k : Fin 96) (raw : Nat) (x : Nat) (len : Nat) (a : Nat) (fmt : Nat) (c : Core) (d : List Byte),
    coreRuns s i.val k.val .bin raw x len c ∧
    a = (c.getX (iRs2 x)).toNat ∧
    a % 8 = 0 ∧
    c.mmode = true ∧
    s.waf.cachedLine i.val a = none ∧
    s.waf.busRead s.sup .unhal a 8 = (stOk, d, s.waf) ∧
    1 ≤ leAt d 0 2 ∧
    leAt d 0 2 ≤ 4096 ∧
    fmt = leAt d 2 1 ∧
    (2 ≤ fmt ∧ fmt ≤ 12) ∧
    leAt d 5 3 = 0 ∧
    (toKey fmt false ((c.getX (iRs1 x)).toNat % 2 ^ fmtWidth fmt)).1 = 0 :=
  ⟨on fun w => at_ (core (loc 0x1000) 0x7FC00000) 5440395 (put (table 1) w), 1, 3, 5440395, 5440395, 4, loc 0x1000, 12, core (loc 0x1000) 0x7FC00000, [1, 0, 0x0C, 7, 0, 0, 0, 0], by decide +kernel⟩

theorem wit_CoreVnx_2 : ∃ (s : State) (i : Fin 128) (k : Fin 96) (raw : Nat) (x : Nat) (len : Nat) (a : Nat) (fmt : Nat) (wb : Nat) (key : Nat) (c : Core) (d : List Byte) (e : List Byte),
    coreRuns s i.val k.val .bin raw x len c ∧
    a = (c.getX (iRs2 x)).toNat ∧
    a % 8 = 0 ∧
    c.mmode = true ∧
    s.waf.cachedLine i.val a = none ∧
    s.waf.busRead s.sup .unhal a 8 = (stOk, d, s.waf) ∧
    leAt d 0 2 = 1 ∧
    fmt = leAt d 2 1 ∧
    (2 ≤ fmt ∧ fmt ≤ 12) ∧
    leAt d 5 3 = 0 ∧
    wb = (if fmtWidth fmt = 32 then 4 else 2) ∧
    key = (toKey fmt false ((c.getX (iRs1 x)).toNat % 2 ^ fmtWidth fmt)).1 ∧
    key ≠ 0 ∧
    s.waf.cachedLine i.val (a + 8) = none ∧
    s.waf.busRead s.sup .unhal (a + 8) wb = (stOk, e, s.waf) :=
  ⟨on fun w => at_ (core (loc 0x1000) 0x3F800000) 5440395 (put (table 0xBF000000) w), 1, 3, 5440395, 5440395, 4, loc 0x1000, 12, 4, 0xBF800000, core (loc 0x1000) 0x3F800000, [1, 0, 0x0C, 7, 0, 0, 0, 0], toLE 4 0xBF000000, by decide +kernel⟩

theorem wit_CoreVnx_3 : ∃ (s : State) (i : Fin 128) (k : Fin 96) (raw : Nat) (x : Nat) (len : Nat) (a : Nat) (ka : Nat) (c : Core) (d : List Byte) (e : List Byte),
    coreRuns s i.val k.val .nstep raw x len c ∧
    (c.getX (iRs1 x)).toNat < (c.getCsr 0x803).toNat ∧
    a = ((c.getCsr 0x802).toNat + 16 * (c.getX (iRs1 x)).toNat) % 2 ^ 64 ∧
    c.mmode = true ∧
    s.waf.cachedLine i.val a = none ∧
    s.waf.busRead s.sup .unhal a 16 = (stOk, d, s.waf) ∧
    leAt d 0 8 < 2 ^ 45 ∧
    nThr (leAt d 0 8) ≠ 0 ∧
    nThr (leAt d 0 8) < 65536 ∧
    ka = ((c.getX (iRs2 x)).toNat + 2 * nFeature (leAt d 0 8)) % 2 ^ 64 ∧
    s.waf.cachedLine i.val ka = none ∧
    s.waf.busRead s.sup .unhal ka 2 = (stOk, e, s.waf) :=
  ⟨on fun w => at_ (core 1 (loc 0x1040)) 6460299 (put nodes w), 1, 3, 6460299, 6460299, 4, loc 0x1010, loc 0x1042, core 1 (loc 0x1040), toLE 8 (5 + 1 * 2 ^ 32) ++ toLE 4 0x11 ++ toLE 4 0x22, [9, 0], by decide +kernel⟩

theorem wit_CoreVnx_4 : ∃ (s : State) (i : Fin 128) (k : Fin 96) (raw : Nat) (x : Nat) (len : Nat) (id : Nat) (c : Core),
    coreRuns s i.val k.val .qpush raw x len c ∧
    iF7 x = 3 ∧
    vnxRef (c.getX (iRs1 x)) = some (id, s.waf.col.wafer) :=
  ⟨on (at_ (core (2055) (0x99)) 107119531), 1, 3, 107119531, 107119531, 4, 2055, core (2055) (0x99), by decide +kernel⟩

theorem wit_CoreVnx_5 : ∃ (s : State) (i : Fin 128) (k : Fin 96) (raw : Nat) (x : Nat) (len : Nat) (id : Nat) (c : Core),
    coreRuns s i.val k.val .qpop raw x len c ∧
    iF7 x = 3 ∧
    vnxRef (c.getX (iRs1 x)) = some (id, s.waf.col.wafer) :=
  ⟨on (at_ (core (2055) (0x99)) 100832171), 1, 3, 100832171, 100832171, 4, 2055, core (2055) (0x99), by decide +kernel⟩

theorem wit_CoreVnx_6 : ∃ (s : State) (i : Fin 128) (k : Fin 96) (raw : Nat) (x : Nat) (len : Nat) (id : Nat) (c : Core),
    coreRuns s i.val k.val .syncadd raw x len c ∧
    vnxRef (c.getX (iRs1 x)) = some (id, s.waf.col.wafer) :=
  ⟨on (at_ (core (2055) (0x99)) 6464427), 1, 3, 6464427, 6464427, 4, 2055, core (2055) (0x99), by decide +kernel⟩

theorem wit_CoreVnx_7 : ∃ (s : State) (i : Fin 128) (k : Fin 96) (raw : Nat) (x : Nat) (len : Nat) (id : Nat) (c : Core),
    coreRuns s i.val k.val .syncwait raw x len c ∧
    vnxRef (c.getX (iRs1 x)) = some (id, s.waf.col.wafer) :=
  ⟨on (at_ (core (2055) (0x99)) 6468523), 1, 3, 6468523, 6468523, 4, 2055, core (2055) (0x99), by decide +kernel⟩

theorem wit_CoreVnx_8 : ∃ (s : State) (i : Fin 128) (k : Fin 96) (raw : Nat) (x : Nat) (len : Nat) (c : Core),
    coreRuns s i.val k.val .syncadd raw x len c ∧
    2 ^ 22 ≤ (c.getX (iRs1 x)).toNat ∧
    c.unit = none :=
  ⟨on (at_ (core (2 ^ 22) (0x99)) 6464427), 1, 3, 6464427, 6464427, 4, core (2 ^ 22) (0x99), by decide +kernel⟩

theorem wit_CoreLeave_1 : ∃ (s : State) (i : Fin 128) (k : Fin 96) (raw : Nat) (x : Nat) (len : Nat) (c : Core),
    coreRuns s i.val k.val .lveQuery raw x len c :=
  ⟨on fun w => at_ (core (0) (0)) 17323 (pool [grant0] w), 1, 3, 17323, 17323, 4, core (0) (0), by decide +kernel⟩

theorem wit_CoreLeave_2 : ∃ (s : State) (i : Fin 128) (k : Fin 96) (raw : Nat) (x : Nat) (len : Nat) (c : Core) (v : Word) (r : LWait),
    coreRuns s i.val k.val .lveRequest raw x len c ∧
    c.mmode = true ∧
    leaveAnswer s.waf i.val (256 + k.val) = none ∧
    s.waf.lve.waits = [] ∧
    v = c.getX (iRs1 x) ∧
    getF v 10 3 < 5 ∧
    r = { id := s.waf.lve.next, site := i.val, res := 256 + k.val, cls := getF v 19 2, vol := getF v 13 6, lu := getF v 0 10, dur := (c.getX (iRs2 x)).toNat, owner := none, denied := false, held := false, hold := 0 } ∧
    (s.waf.leaveFails r (fun _ => false)).1 = 0 ∧
    (if s.waf.lve.win = s.waf.now / 1000 then s.waf.lve.spent else 0) + r.lu ≤ s.waf.rampLu :=
  ⟨on fun w => at_ (core (57 + 1 * 2 ^ 19) (500)) 40027051 (pool [] w), 1, 3, 40027051, 40027051, 4, core (57 + 1 * 2 ^ 19) (500), BitVec.ofNat 64 (57 + 1 * 2 ^ 19), { id := 0, site := 1, res := 259, cls := 1, vol := 0, lu := 57, dur := 500, owner := none, denied := false, held := false, hold := 0 }, by decide +kernel⟩

theorem wit_CoreLeave_3 : ∃ (s : State) (i : Fin 128) (k : Fin 96) (raw : Nat) (x : Nat) (len : Nat) (c : Core) (d : Cmd) (g : Nat) (b : Nat),
    coreRuns s i.val k.val .lveRequest raw x len c ∧
    c.mmode = false ∧
    c.unit = some (d.idx, g, b) ∧
    s.waf.cmd? i.val d.idx = some d :=
  ⟨on fun w => at_ (unitC 5) 40027051 { w with cmds := [coreC runB] }, 1, 3, 40027051, 40027051, 4, unitC 5, coreC runB, 1, 0, by decide +kernel⟩

theorem wit_CoreLeave_4 : ∃ (s : State) (i : Fin 128) (k : Fin 96) (raw : Nat) (x : Nat) (len : Nat) (d : Nat) (c : Core) (g : Grant),
    coreRuns s i.val k.val .lveRenew raw x len c ∧
    c.mmode = true ∧
    s.waf.lve.grants = [g] ∧
    g.site = i.val ∧
    g.handle = getF (c.getX (iRs1 x)) 0 16 ∧
    g.tail = false ∧
    s.waf.now < g.expiry ∧
    s.waf.lve.waits = [] ∧
    s.waf.net = [] ∧
    d = (c.getX (iRs2 x)).toNat ∧
    (s.waf.leaveFails { id := s.waf.lve.next, site := g.site, res := g.res, cls := g.cls, vol := g.vol, lu := g.lu, dur := d, owner := g.owner, denied := false, held := false, hold := 0 } (fun x => x == g)).1 = 0 :=
  ⟨on fun w => at_ (core (9) (500)) 73581483 (pool [{ grant0 with vol := 0 }] w), 1, 3, 73581483, 73581483, 4, 500, core (9) (500), { grant0 with vol := 0 }, by decide +kernel⟩

theorem wit_CoreLeave_5 : ∃ (s : State) (i : Fin 128) (k : Fin 96) (raw : Nat) (x : Nat) (len : Nat) (c : Core) (g : Grant),
    coreRuns s i.val k.val .lveReturn raw x len c ∧
    c.mmode = true ∧
    s.waf.grantOf i.val (getF (c.getX (iRs1 x)) 0 16) = some g :=
  ⟨on fun w => at_ (core (9) (0)) 100844459 (pool [grant0] w), 1, 3, 100844459, 100844459, 4, core (9) (0), grant0, by decide +kernel⟩

theorem wit_CoreLeave_6 : ∃ (s : State) (i : Fin 128) (k : Fin 96) (raw : Nat) (x : Nat) (len : Nat) (c : Core),
    coreRuns s i.val k.val .lveReturn raw x len c ∧
    c.mmode = true ∧
    s.waf.grantOf i.val (getF (c.getX (iRs1 x)) 0 16) = none :=
  ⟨on fun w => at_ (core (8) (0)) 100844459 (pool [grant0] w), 1, 3, 100844459, 100844459, 4, core (8) (0), by decide +kernel⟩

theorem wit_CoreUnits_1 : ∃ (s : State) (i : Fin 128) (k : Fin 96) (r : Fin 1024) (g : Fin 8) (c : Cmd) (y : Run) (b : Nat) (ia : Area) (oa : Area) (p : List Byte) (input : List Byte),
    s.waf.cmd? i.val r.val = some c ∧
    s.waf.active i.val = true ∧
    c.run = some y ∧
    c.readyUnit y g.val = some b ∧
    c.kindOf g.val = kCore ∧
    k.val ≠ 95 ∧
    k.val / 8 = Tab.look (fun _ => 0) y.clusters g.val ∧
    (s.coreAt i.val k.val).unit = none ∧
    (s.coreAt i.val k.val).draining = false ∧
    (s.coreAt i.val k.val).wait = none ∧
    s.waf.unitTurn c y g.val = true ∧
    y.running g.val < sgCores (c.stage g.val) ∧
    s.waf.stageCores c g.val = [] ∧
    y.areas = [ia, oa] ∧
    ia.stage = g.val ∧
    oa.stage = g.val ∧
    ia.out = false ∧
    oa.out = true ∧
    y.slots.all (fun z => z.stage != g.val) = true ∧
    s.waf.ownSram c.vol c.site (sgParam (c.stage g.val)) 128 = true ∧
    s.waf.fetch (s.waf.ctxOf c g.val) (sgParam (c.stage g.val)) 128 = .ok p ∧
    s.waf.unitInput c y g.val b = .ok input ∧
    blockOk s.waf (s.waf.ctxOf c g.val) p = true ∧
    (s.coreAt i.val k.val).code = some (bCode p, bCodeBytes p, c.vol) :=
  ⟨on starts, 1, 3, 0, 1, coreC runA, runA, 0, ia0, oa0, block0, [1, 2, 3, 4, 5, 6, 7, 8], by decide +kernel⟩

theorem wit_CoreUnits_2 : ∃ (s : State) (i : Fin 128) (k : Fin 96) (raw : Nat) (x : Nat) (len : Nat) (c : Core) (d : Cmd) (y : Run) (u : Unit_),
    coreRuns s i.val k.val .ecall raw x len c ∧
    c.mmode = false ∧
    c.unit = some (d.idx, u.stage, u.mb) ∧
    c.getX 10 = 0 ∧
    s.waf.cmds = [d] ∧
    d.site = i.val ∧
    d.st = .running ∧
    d.fused = true ∧
    d.rotSlot = none ∧
    d.kindOf u.stage = kCore ∧
    d.kindOf (u.stage + 1) ≠ kGather ∧
    d.run = some y ∧
    y.units = [u] ∧
    s.waf.lve.grants = [] ∧
    s.waf.readStatus .unhal c.outSlot (d.mbLenAt u.stage u.mb * sgOut (d.stage u.stage)) = stOk :=
  ⟨on (works 0), 1, 3, 0x73, 0x73, 4, unitC 0, coreC runB, runB, { stage := 1, mb := 0, res := 515, start := 1 }, by decide +kernel⟩

theorem wit_CoreUnits_3 : ∃ (s : State) (i : Fin 128) (k : Fin 96) (raw : Nat) (x : Nat) (len : Nat) (c : Core) (d : Cmd) (g : Nat) (b : Nat),
    coreRuns s i.val k.val .ecall raw x len c ∧
    c.mmode = false ∧
    c.unit = some (d.idx, g, b) ∧
    s.waf.cmd? i.val d.idx = some d ∧
    c.getX 10 ≠ 0 :=
  ⟨on (works 5), 1, 3, 0x73, 0x73, 4, unitC 5, coreC runB, 1, 0, by decide +kernel⟩

theorem wit_CoreUnits_4 : ∃ (s : State) (i : Fin 128) (k : Fin 96) (cause : BitVec 8) (_tval : BitVec 64) (d : Cmd) (g : Nat) (b : Nat),
    s.waf.active i.val = true ∧
    (s.coreAt i.val k.val).unit = some (d.idx, g, b) ∧
    (s.coreAt i.val k.val).mmode = false ∧
    s.waf.cmd? i.val d.idx = some d ∧
    (cause.toNat ≤ 7 ∨ (24 ≤ cause.toNat ∧ cause.toNat ≤ 26)) :=
  ⟨on (works 5), 1, 3, 26, 0x99, coreC runB, 1, 0, by decide +kernel⟩

end J

namespace K

/-- Volume 2 is live with VF 4, which port 0 of edge die 1 offers; its link is in L0; its HBM window is 1 MiB. -/
def vf4 (w : Wafer) : Wafer :=
  { (((w.set (pcieBlk 1 0) F.PRT_PCIE_STAT.LINK_UP 1).setReg (volwinKey 2 2) 0x8800001000).setReg (volwinKey 2 3) 0x100000) with
    live := 4, vol := [(2, { Vol.init with vf := some 4, prof := [0, 0x300, 0, 0] })] }

/-- Ring 7 of site 1, enabled, with 16 entries of 2^e bytes at `base`: kind, further CTRL bits, PI, CI. -/
def ring (kind e base bits pi ci : Nat) (w : Wafer) : Wafer :=
  let b := ringBlk 1 7
  ((w.setReg b (BitVec.ofNat 64 base)).setReg (b + 8) (BitVec.ofNat 64 (kind + 16 + e * 2 ^ 7 + 2 ^ 18 + bits))).setReg (b + 16)
    (BitVec.ofNat 64 (pi + ci * 2 ^ 32))

/-- Port 1 of edge die 2 in root-port role, its link up, with an inbound window of volume 0. -/
def root (w : Wafer) : Wafer :=
  let b := pcieBlk 2 1
  { ((((w.set b F.PRT_PCIE_STAT.UP 1).setReg (b + 0x40) 0x1000).setReg (b + 0x48) 0x2000).setReg (b + 0x50) 0x2010008800000000) with
    prt := { w.prt with cfg := [(b, 1)] } }

def out0 : Out :=
  { who := ⟨1, 96⟩, tag := 5, vol := 0, kind := some .read, die := 2, addr := 0x4002000000001000, since := 0, acquire := false, isReg := false,
    isWait := false, cmd := none, need := none }

/-- Sub-port 0 of edge die 1 has link. -/
def eth (w : Wafer) : Wafer := w.set (ethBlk 1) F.PRT_ETH_STAT.UP 1

/-- An IPv4-free frame of EtherType 0x88B5 with 46 bytes of payload and an FCS. -/
def frame0 : List Byte := List.replicate 12 1 ++ [0x88, 0xB5] ++ List.replicate 50 9
def shown0 : Wafer.Frame := { vlan := none, etype := 0x88B5, proto := none, port := 0, payload := List.replicate 46 9 }

/-- Rule 3 sends them, of any sub-port, to ring 7 of site 1 for volume 0. -/
def rule (policy : Nat) (w : Wafer) : Wafer :=
  (w.setReg (ethRuleKey 1 3 0) (BitVec.ofNat 64 (1 + 2 * policy + 0x88B5 * 2 ^ 16 + 7 * 2 ^ 57))).setReg (ethRuleKey 1 3 1) 2055

def held0 : Held := { rule := 3, payload := [1, 2, 3], seen := 5, bytes := 64, flags := 0 }

theorem wit_PciePorts_1 : ∃ (s : State) (src : Src) (e : Fin 16) (p : Fin 2) (v : BitVec 64),
    s.waf.active (128 + e.val) = true ∧
    configSrc src = true ∧
    s.waf.pcieCfgOk e.val p.val (v ||| 0x80) = true :=
  ⟨s0, .unhal, 1, 0, 0x840A, by decide +kernel⟩

theorem wit_PciePorts_3 : ∃ (s : State) (e : Fin 16) (p : Fin 2) (r : Fin 6) (n : BitVec 5) (f : Bool),
    s.waf.active (128 + e.val) = true ∧
    s.waf.pcieCfg e.val p.val F.PRT_PCIE_CFG.ROLE = 0 ∧
    ((n = 1 ∨ n = 2 ∨ n = 4 ∨ n = 8 ∨ n = 16)) ∧
    r.val ≤ s.waf.pcieCfg e.val p.val F.PRT_PCIE_CFG.MAX_RATE ∧
    ((r = 5 → f = true)) :=
  ⟨s0, 1, 0, 5, 16, true, by decide +kernel⟩

theorem wit_PciePorts_4 : ∃ (s : State) (e : Fin 16) (p : Fin 2),
    s.waf.active (128 + e.val) = true ∧
    s.waf.pcieCfg e.val p.val F.PRT_PCIE_CFG.ROLE = 0 ∧
    s.waf.get (pcieBlk e.val p.val) F.PRT_PCIE_STAT.LINK_UP = 1 :=
  ⟨on vf4, 1, 0, by decide +kernel⟩

theorem wit_PciePorts_5 : ∃ (s : State) (e : Fin 16) (p : Fin 2) (vf : Fin 64) (v : Fin 64) (i : Fin 128) (r : Fin 2048) (x : BitVec 32) (d : List Byte),
    s.waf.vfVol vf.val = some v.val ∧
    s.waf.vfHere e.val p.val vf.val = true ∧
    d = toLE 4 (i.val * 2048 + r.val) ++ toLE 4 x.toNat ∧
    dbReaches s (.vf v) i.val r.val ∧
    s.waf.ringOn (ringBlk i.val r.val) = true ∧
    s.waf.rKind (ringBlk i.val r.val) = 0 ∧
    (x.toNat + 2 ^ 32 - s.waf.rPI (ringBlk i.val r.val)) % 2 ^ 32 ≠ 0 ∧
    (x.toNat + 2 ^ 32 - s.waf.rPI (ringBlk i.val r.val)) % 2 ^ 32 ≤ s.waf.rSize (ringBlk i.val r.val) - s.waf.rHeld (ringBlk i.val r.val) :=
  ⟨on fun w => ring 0 6 0x2010000000000000 0x2000 0 0 (vf4 w), 1, 0, 4, 2, 1, 7, 3, toLE 4 2055 ++ toLE 4 3, by decide +kernel⟩

theorem wit_PciePorts_6 : ∃ (s : State) (e : Fin 16) (p : Fin 2) (vf : Fin 64) (v : Nat) (d : List Byte),
    s.waf.vfVol vf.val = some v ∧
    s.waf.vfHere e.val p.val vf.val = true ∧
    d.length ≠ 8 :=
  ⟨on vf4, 1, 0, 4, 2, [1, 2, 3, 4], by decide +kernel⟩

theorem wit_PciePorts_7 : ∃ (s : State) (e : Fin 16) (p : Fin 2) (vf : Fin 64) (v : Nat) (o : Nat) (d : List Byte),
    s.waf.vfVol vf.val = some v ∧
    s.waf.vfHere e.val p.val vf.val = true ∧
    0 < d.length ∧
    d.length ≤ 512 ∧
    o + d.length ≤ (s.waf.hbmWin v).2 ∧
    (s.waf.hbmWin v).1 + o + d.length ≤ 0x9000000000 ∧
    s.waf.writeStatus (volSrc v) (s.waf.ownAddr (hbmAddr ((s.waf.hbmWin v).1 + o))) d.length = stOk :=
  ⟨on vf4, 1, 0, 4, 2, 0xFFFFC, [1, 2, 3, 4], by decide +kernel⟩

theorem wit_PciePorts_8 : ∃ (s : State) (e : Fin 16) (p : Fin 2) (vf : Fin 64) (v : Nat) (o : Nat) (n : Nat),
    s.waf.vfVol vf.val = some v ∧
    s.waf.vfHere e.val p.val vf.val = true ∧
    (s.waf.hbmWin v).2 < o + n :=
  ⟨on vf4, 1, 0, 4, 2, 0xFFFFC, 5, by decide +kernel⟩

theorem wit_PciePorts_9 : ∃ (s : State) (e : Fin 16) (p : Fin 2) (a : Nat) (v : Nat) (x : Nat) (d : List Byte),
    s.waf.active (128 + e.val) = true ∧
    s.waf.pcieCfg e.val p.val F.PRT_PCIE_CFG.ROLE = 1 ∧
    s.waf.get (pcieBlk e.val p.val) F.PRT_PCIE_STAT.UP ≠ 0 ∧
    d.length ≤ 512 ∧
    s.waf.inWindow e.val p.val a d.length = some (v, x) ∧
    s.waf.writeStatus (volSrc v) x d.length = stOk :=
  ⟨on root, 2, 1, 0x2FFE, 0, 0x2010008800001FFE, [7, 8], by decide +kernel⟩

theorem wit_PciePorts_10 : ∃ (s : State) (e : Fin 16) (p : Fin 2) (a : Nat) (d : List Byte),
    s.waf.active (128 + e.val) = true ∧
    s.waf.pcieCfg e.val p.val F.PRT_PCIE_CFG.ROLE = 1 ∧
    s.waf.get (pcieBlk e.val p.val) F.PRT_PCIE_STAT.UP ≠ 0 ∧
    s.waf.inWindow e.val p.val a d.length = none :=
  ⟨on root, 2, 1, 0x2FFF, [7, 8], by decide +kernel⟩

theorem wit_PciePorts_11 : ∃ (s : State) (e : Fin 16) (p : Fin 2) (q : Requester) (tag : BitVec 12) (_err : Bool) (_d : List Byte) (o : Out),
    s.waf.net = [] ∧
    s.waf.out = [o] ∧
    o.who = q ∧
    o.tag = tag.toNat ∧
    o.kind = some .read ∧
    adRegion o.addr.toNat = 4 ∧
    adDie o.addr.toNat = 2 * e.val + p.val :=
  ⟨on fun w => { w with out := [out0] }, 1, 0, ⟨1, 96⟩, 5, true, [1], out0, by decide +kernel⟩

theorem wit_PciePorts_11b : ∃ (s : State) (e : Fin 16) (p : Fin 2) (q : Requester) (tag : BitVec 12) (_err : Bool) (_d : List Byte) (o : Out),
    s.waf.net = [] ∧
    s.waf.out = [o] ∧
    o.who = q ∧
    o.tag = tag.toNat ∧
    o.kind = some .read ∧
    adRegion o.addr.toNat = 4 ∧
    adDie o.addr.toNat = 2 * e.val + p.val :=
  ⟨on fun w => { w with out := [out0] }, 1, 0, ⟨1, 96⟩, 5, false, [1], out0, by decide +kernel⟩

theorem wit_PciePorts_12 : ∃ (s : State) (e : Fin 16) (_p : Fin 2) (_q : Requester) (_tag : BitVec 12) (_err : Bool) (_d : List Byte),
    s.waf.active (128 + e.val) = true ∧
    s.waf.out = [] :=
  ⟨s0, 1, 0, ⟨1, 96⟩, 5, false, [1], by decide +kernel⟩

theorem wit_PciePorts_13 : ∃ (s : State) (vf : Fin 64) (_n : Fin 2048) (v : Nat) (q : Nat × Nat),
    s.waf.vfVol vf.val = some v ∧
    s.waf.vfPort vf.val = some q ∧
    s.waf.vfHere q.1 q.2 vf.val = true :=
  ⟨on fun w => (vf4 w).setMsix 4 9 { Msix.init with pend := true }, 4, 9, 2, (1, 0), by decide +kernel⟩

theorem wit_PciePorts_14 : ∃ (s : State) (vf : Fin 64) (v : Nat) (q : Nat × Nat),
    s.waf.vfPort vf.val = some q ∧
    s.waf.vfHere q.1 q.2 vf.val = true ∧
    s.waf.vfVol vf.val = some v :=
  ⟨on vf4, 4, 2, (1, 0), by decide +kernel⟩

theorem wit_PciePorts_15 : ∃ (s : State) (vf : Fin 64) (q : Nat × Nat),
    s.waf.vfPort vf.val = some q ∧
    s.waf.vfHere q.1 q.2 vf.val = true ∧
    s.waf.vfVol vf.val = none :=
  ⟨on fun w => { vf4 w with live := 0 }, 4, (1, 0), by decide +kernel⟩

theorem wit_EthAndHbm_1 : ∃ (s : State) (e : Fin 16) (q : Fin 4) (_f : List Byte),
    s.waf.subUp e.val q.val = true :=
  ⟨on eth, 1, 0, [], by decide +kernel⟩

theorem wit_EthAndHbm_2 : ∃ (s : State) (e : Fin 16) (q : Fin 4) (l : List Byte) (f : Wafer.Frame) (k : Nat) (i : Nat) (r : Nat),
    s.waf.subUp e.val q.val = true ∧
    Wafer.parseFrame l = some f ∧
    s.waf.ruleFor e.val q.val f = some k ∧
    getF (s.waf.ruleWord e.val k 0) 2 1 = 0 ∧
    s.waf.ethHeld e.val q.val = [] ∧
    ruleRing s e.val k i r f.payload.length :=
  ⟨on fun w => rule 0 (ring 2 6 0x2010008800000000 0 15 0 (eth w)), 1, 0, frame0, shown0, 3, 1, 7, by decide +kernel⟩

theorem wit_EthAndHbm_3 : ∃ (s : State) (e : Fin 16) (q : Fin 4) (l : List Byte) (f : Wafer.Frame),
    s.waf.subUp e.val q.val = true ∧
    Wafer.parseFrame l = some f ∧
    s.waf.ruleFor e.val q.val f = none ∧
    s.waf.ethHeld e.val q.val = [] :=
  ⟨on eth, 1, 0, frame0, shown0, by decide +kernel⟩

theorem wit_EthAndHbm_4 : ∃ (s : State) (e : Fin 16) (q : Fin 4) (l : List Byte) (f : Wafer.Frame) (k : Nat) (i : Nat) (r : Nat),
    s.waf.subUp e.val q.val = true ∧
    Wafer.parseFrame l = some f ∧
    s.waf.ruleFor e.val q.val f = some k ∧
    getF (s.waf.ruleWord e.val k 0) 1 1 = 1 ∧
    getF (s.waf.ruleWord e.val k 0) 2 1 = 0 ∧
    s.waf.prt.held = [] ∧
    i = getF (s.waf.ruleWord e.val k 1) 0 18 / 2048 ∧
    r = getF (s.waf.ruleWord e.val k 1) 0 18 % 2048 ∧
    s.waf.active i = true ∧
    s.waf.ringOn (ringBlk i r) = true ∧
    s.waf.rKind (ringBlk i r) = 2 ∧
    s.waf.rVol (ringBlk i r) = getF (s.waf.ruleWord e.val k 1) 18 6 ∧
    f.payload.length + 16 ≤ s.waf.rEsize (ringBlk i r) ∧
    s.waf.rSize (ringBlk i r) ≤ s.waf.rHeld (ringBlk i r) :=
  ⟨on fun w => rule 1 (ring 2 6 0x2010008800000000 0 16 0 (eth w)), 1, 0, frame0, shown0, 3, 1, 7, by decide +kernel⟩

theorem wit_EthAndHbm_5 : ∃ (s : State) (e : Fin 16) (q : Fin 4) (n : BitVec 16),
    s.waf.subUp e.val q.val = true ∧
    n ≠ 0 :=
  ⟨on eth, 1, 0, 0xFFFF, by decide +kernel⟩

theorem wit_EthAndHbm_6 : ∃ (s : State) (e : Fin 16) (q : Fin 4) (h : Held) (i : Nat) (r : Nat),
    s.waf.active (128 + e.val) = true ∧
    s.waf.ethHeld e.val q.val = [h] ∧
    h.rule < 64 ∧
    ruleRing s e.val h.rule i r h.payload.length :=
  ⟨on fun w => rule 1 { ring 2 6 0x2010008800000000 0 15 0 (eth w) with prt := { w.prt with held := [(4, [held0])] } }, 1, 0, held0, 1, 7, by decide +kernel⟩

theorem wit_EthAndHbm_7 : ∃ (s : State) (e : Fin 16) (q : Fin 4) (t0 : Nat),
    s.waf.active (128 + e.val) = true ∧
    Tab.look (fun _ => 0) s.waf.prt.pausedAt (4 * e.val + q.val) = t0 + 1 ∧
    s.waf.ethHeld e.val q.val ≠ [] ∧
    s.waf.get (ethBlk e.val) F.PRT_ETH_CFG.PAUSE_QUANTA * 64 * Wafer.subPorts (s.waf.ethMode e.val) ≤ (s.waf.now - t0) * 2000 :=
  ⟨on fun w => { w with prt := { w.prt with held := [(4, [held0])], pausedAt := [(4, 11)] } }, 1, 0, 10, by decide +kernel⟩

theorem wit_EthAndHbm_8 : ∃ (s : State) (src : Src) (e : Fin 16) (v : BitVec 64),
    s.waf.active (128 + e.val) = true ∧
    configSrc src = true ∧
    getF v 0 2 ≠ 3 :=
  ⟨on fun w => { eth w with prt := { w.prt with held := [(4, [held0])] } }, .ribbon, 1, 2, by decide +kernel⟩

theorem wit_EthAndHbm_9 : ∃ (s : State) (e : Fin 16) (q : Fin 4),
    s.waf.active (128 + e.val) = true ∧
    q.val < Wafer.subPorts (s.waf.ethMode e.val) :=
  ⟨s0, 1, 0, by decide +kernel⟩

theorem wit_EthAndHbm_10 : ∃ (s : State) (e : Fin 16) (q : Fin 4),
    s.waf.active (128 + e.val) = true ∧
    Nat.testBit (s.waf.get (ethBlk e.val) F.PRT_ETH_STAT.UP) q.val = true :=
  ⟨on eth, 1, 0, by decide +kernel⟩

theorem wit_EthAndHbm_12 : ∃ (s : State) (e : Fin 16) (_c : BitVec 8),
    s.waf.active (128 + e.val) = true :=
  ⟨s0, 1, 96, by decide +kernel⟩

theorem wit_EthAndHbm_13 : ∃ (s : State) (e : Fin 16) (n : Nat),
    n < 0x120000000 ∧
    s.waf.stackUp e.val = true :=
  ⟨s0, 1, 0x11FFFFFFF, by decide +kernel⟩

theorem wit_EthAndHbm_14 : ∃ (s : State) (e : Fin 16) (n : Nat) (o : Nat),
    hbmKey e.val (8 * n) = some o ∧
    s.waf.stackUp e.val = true ∧
    s.waf.poisoned (hbmAddr o) 8 = false :=
  ⟨s0, 1, 0x11FFFFFFF, 0x8FFFFF1FF8, by decide +kernel⟩

end K

namespace L

/-- Volume 2 is live: three sites, 1 MiB of SRAM, banks 2–9, 16 MiB of HBM; a few rings, sync objects and alarms. -/
def vol2 (w : Wafer) : Wafer :=
  { ((((w.setReg (volwinKey 2 0) 0x100000).setReg (volwinKey 2 1) (0x100000 + 2 * 2 ^ 32 + 8 * 2 ^ 40)).setReg (volwinKey 2 2) 0x8800000000).setReg
      (volwinKey 2 3) 0x1000000) with
    live := 4, vol := [(2, { Vol.init with prof := [BitVec.ofNat 64 (4 + 4 * 2 ^ 11 + 4 * 2 ^ 37), 0x300, 0, 0] })] }

/-- Channel 3 of edge die 1 (secure, so volume 0's) and channel 20 (volume 2's), in long form. -/
def c0 (w : Wafer) : Wafer := w.setReg (chanBlk 1 3) 3
def c2 (w : Wafer) : Wafer := (vol2 w).setReg (chanBlk 1 20) 19

/-- Sync object 7 of site 1 for a volume, at 5. -/
def sync7 (v : Nat) (w : Wafer) : Wafer := (w.setReg (syncCtlBlk 1 7) (BitVec.ofNat 64 (64 + v))).setReg (syncKey 1 7) 5

/-- Ring 7 of site 1 for a volume: kind, PI. -/
def ring7 (kind v i : Nat) (w : Wafer) : Wafer :=
  let b := ringBlk 1 7
  ((w.setReg b 0x000100000F000000).setReg (b + 8) (BitVec.ofNat 64 (kind + 16 + 6 * 2 ^ 7 + v * 2 ^ 12 + 2 ^ 18))).setReg (b + 16) (BitVec.ofNat 64 i)

def noCall : Nat → State → Nat × List Nat × State := fun _ s => (0, [], s)

def moved0 : Nat × Nat × Wafer :=
  moveBytes p0 (volSrc 0) (volSrc 0) 10 (sync7 0 (c0 w0)) 0x000100000F001000 0x000100000F000000 8

/-- A one-unit entry at row 10 of bank 5 of site 1. -/
def unit0 : List Byte := List.replicate 24 7 ++ [1, 2, 3, 4, 1, 0, 0, 0]
def entry10 (w : Wafer) : Wafer := w.putRows 1 5 10 unit0

def group2 (w : Wafer) : Wafer := (w.setReg (rotBlk 0 3) 5).setReg (rotBlk 1 3) 5

/-- The header of an image of one NODES tree, its digest left out. -/
def head0 : List (Nat × Byte) :=
  [(0, 0x56), (1, 0x45), (2, 0x4E), (3, 0x53), (4, 1), (6, 1), (7, 0x0C), (8, 1), (12, 1), (14, 0x0C), (20, 1), (24, 1), (28, 1), (45, 0x10), (49, 0x10),
   (57, 0x20), (65, 0x30), (73, 0x30)]
def imaged (w : Wafer) : Wafer := head0.foldl (fun w x => w.store (hbmKey1 + x.1) [x.2]) w
where hbmKey1 : Nat := (hbmKey 1 0x880000000).getD 0 + hbmAddr 0
def flow0 : Flow := { id := 4, vol := 0, edge := 1, sub := 0, mac := 5, ip := [1, 2, 3, 4], src := 7, dst := 8 }

theorem wit_CallIntake_1 : ∃ (s : State) (via : Via) (_num : Nat) (_args : List Nat) (_cfg : Bool) (_f : Nat → State → Nat × List Nat × State),
    ((s.waf.active (128 + via.edge.val) = false ∨ s.waf.col.boot.running = false)) :=
  ⟨s0, ⟨3, 0⟩, 0x0101, [1], true, noCall, by decide +kernel⟩

theorem wit_CallIntake_2 : ∃ (s : State) (via : Via) (num : Nat) (_args : List Nat) (_cfg : Bool) (_f : Nat → State → Nat × List Nat × State),
    s.waf.active (128 + via.edge.val) = true ∧
    s.waf.col.boot.running = true ∧
    s.waf.chanUsed via.edge.val via.ch.val = true ∧
    s.waf.mbxState via.edge.val via.ch.val false ≠ 0 ∧
    ((s.waf.mbxState via.edge.val via.ch.val false = 1 → s.waf.postedCall via.edge.val via.ch.val ≠ num)) :=
  ⟨on fun w => (c0 w).setReg (dirBlk 1 3 false) 1, ⟨1, 3⟩, 0x0101, [1], true, noCall, by decide +kernel⟩

theorem wit_CallIntake_3 : ∃ (s : State) (via : Via) (num : Nat) (x : Nat) (_cfg : Bool) (_f : Nat → State → Nat × List Nat × State),
    num < 65536 ∧
    65536 ≤ x ∧
    s.waf.active (128 + via.edge.val) = true ∧
    s.waf.col.boot.running = true ∧
    s.waf.chanUsed via.edge.val via.ch.val = true ∧
    s.waf.mbxForm via.edge.val via.ch.val false = true ∧
    s.waf.mbxState via.edge.val via.ch.val false = 0 ∧
    s.waf.mbxState via.edge.val via.ch.val true = 0 :=
  ⟨on fun w => w.setReg (chanBlk 1 3) 1, ⟨1, 3⟩, 0x0802, 65536, true, noCall, by decide +kernel⟩

theorem wit_CallIntake_4 : ∃ (s : State) (via : Via) (num : Nat) (v : Nat) (args : List Nat) (_f : Nat → State → Nat × List Nat × State),
    num < 65536 ∧
    args ≠ [] ∧
    args.length ≤ 16 ∧
    callOpen s via v ∧
    s.waf.volAuth v = false :=
  ⟨on c2, ⟨1, 20⟩, 0x0802, 2, [1], noCall, by decide +kernel⟩

theorem wit_CallIntake_5 : ∃ (s : State) (via : Via) (num : Nat) (args : List Nat) (_f : Nat → State → Nat × List Nat × State),
    num < 65536 ∧
    args ≠ [] ∧
    args.length ≤ 16 ∧
    callChan s via ∧
    s.waf.col.phase ≠ 3 ∧
    s.waf.col.phase ≠ 4 :=
  ⟨on fun w => { c0 w with col := { w.col with phase := 5 } }, ⟨1, 3⟩, 0x0802, [1], noCall, by decide +kernel⟩

theorem wit_CallsOfClockBootMemory_1 : ∃ (s : State) (via : Via) (v : Nat) (c : BitVec 64) (src : BitVec 64) (inp : BitVec 64) (win : Option (BitVec 64)) (st : Option (BitVec 64)) (_nom : Option (BitVec 64)),
    callOpen s via v ∧
    s.waf.volAuth v = true ∧
    c.toNat < 256 ∧
    src.toNat ≤ 5 ∧
    inp.toNat ≤ 1 ∧
    6 ≤ (win.getD 16).toNat ∧
    (win.getD 16).toNat ≤ 26 ∧
    (st.getD 0).toNat < 2 ^ 32 ∧
    s.waf.edgeUp (c.toNat / 16) = true :=
  ⟨on c0, ⟨1, 3⟩, 0, 37, 5, 1, some 26, none, some 7, by decide +kernel⟩

theorem wit_CallsOfClockBootMemory_2 : ∃ (s : State) (via : Via) (v : Nat) (i : Nat) (a : Nat) (base : Nat) (j : Nat) (c : BitVec 64) (pos : BitVec 64) (act : BitVec 64) (tgt : BitVec 64) (val : BitVec 64) (dir : Option (BitVec 64)) (per : Option (BitVec 64)) (stp : Option (BitVec 64)) (pick : Nat),
    callOpen s via v ∧
    v < 64 ∧
    c.toNat < 256 ∧
    pos.toNat < 2 ^ 48 ∧
    act.toNat ≤ 2 ∧
    tgt.toNat < 2 ^ 18 ∧
    val.toNat < 2 ^ 32 ∧
    (dir.getD 0).toNat ≤ 2 ∧
    (per.getD 0).toNat < 2 ^ 47 ∧
    (stp.getD 0).toNat < 256 ∧
    i = tgt.toNat / 2048 ∧
    s.waf.siteCode v i = 0 ∧
    base = (if v = 0 then 240 else 0) ∧
    ((v ≠ 0 → ((List.range 240).filter (fun a => !s.waf.almFree i a && s.waf.get (almBlk i a) F.FOL_ALM_CFG.VOLUME == v)).length < s.waf.volField v 0 37 8)) ∧
    Wafer.pickFree (if v = 0 then 16 else 240) (pick - base) (fun x => s.waf.almFree i (base + x)) = some j ∧
    a = base + j :=
  ⟨on c2, ⟨1, 20⟩, 2, 1, 200, 0, 200, 37, 9, 2, 2055, 8, some 1, some 4, none, 200, by decide +kernel⟩

theorem wit_CallsOfClockBootMemory_2b : ∃ (s : State) (via : Via) (v : Nat) (i : Nat) (a : Nat) (base : Nat) (j : Nat) (c : BitVec 64) (pos : BitVec 64) (act : BitVec 64) (tgt : BitVec 64) (val : BitVec 64) (dir : Option (BitVec 64)) (per : Option (BitVec 64)) (stp : Option (BitVec 64)) (pick : Nat),
    callOpen s via v ∧
    v < 64 ∧
    c.toNat < 256 ∧
    pos.toNat < 2 ^ 48 ∧
    act.toNat ≤ 2 ∧
    tgt.toNat < 2 ^ 18 ∧
    val.toNat < 2 ^ 32 ∧
    (dir.getD 0).toNat ≤ 2 ∧
    (per.getD 0).toNat < 2 ^ 47 ∧
    (stp.getD 0).toNat < 256 ∧
    i = tgt.toNat / 2048 ∧
    s.waf.siteCode v i = 0 ∧
    base = (if v = 0 then 240 else 0) ∧
    ((v ≠ 0 → ((List.range 240).filter (fun a => !s.waf.almFree i a && s.waf.get (almBlk i a) F.FOL_ALM_CFG.VOLUME == v)).length < s.waf.volField v 0 37 8)) ∧
    Wafer.pickFree (if v = 0 then 16 else 240) (pick - base) (fun x => s.waf.almFree i (base + x)) = some j ∧
    a = base + j :=
  ⟨on c0, ⟨1, 3⟩, 0, 1, 240, 240, 0, 255, 0xFFFFFFFFFFFF, 0, 4095, 0xFFFFFFFF, none, none, some 255, 0, by decide +kernel⟩

theorem wit_CallsOfClockBootMemory_3 : ∃ (s : State) (via : Via) (v : Nat) (i : Fin 128) (a : Fin 256),
    callOpen s via v ∧
    s.waf.anySite i.val = 0 ∧
    s.waf.get (almBlk i.val a.val) F.FOL_ALM_CFG.VOLUME = v :=
  ⟨on c0, ⟨1, 3⟩, 0, 1, 255, by decide +kernel⟩

theorem wit_CallsOfClockBootMemory_4 : ∃ (s : State) (via : Via) (v : Nat) (a : BitVec 64) (n : BitVec 64),
    callOpen s via v ∧
    64 ≤ n.toNat ∧
    s.waf.writeStatus (volSrc v) a.toNat 64 = stOk :=
  ⟨on c0, ⟨1, 3⟩, 0, 0x000100000F000000, 64, by decide +kernel⟩

theorem wit_CallsOfClockBootMemory_5 : ∃ (s : State) (via : Via) (v : Nat) (k : BitVec 64) (a : BitVec 64) (n : BitVec 64) (img : List Byte),
    callOpen s via v ∧
    s.waf.volAuth v = true ∧
    k.toNat < 2 ∧
    512 ≤ n.toNat ∧
    n.toNat ≤ 0x3000000 ∧
    s.waf.readStatus (volSrc v) a.toNat n.toNat = stOk ∧
    img = s.waf.load a.toNat n.toNat :=
  ⟨on c0, ⟨1, 3⟩, 0, 1, 0x000100000F000000, 512, (on c0).waf.load 0x000100000F000000 512, by decide +kernel⟩

theorem wit_CallsOfClockBootMemory_6 : ∃ (s : State) (via : Via) (v : Nat) (n : BitVec 64),
    callOpen s via v ∧
    s.waf.volAuth v = true ∧
    n.toNat ≤ 63 :=
  ⟨on c0, ⟨1, 3⟩, 0, 63, by decide +kernel⟩

theorem wit_CallsOfClockBootMemory_7 : ∃ (s : State) (via : Via) (v : Nat) (a : Nat) (kind : BitVec 64) (n : BitVec 64) (i : BitVec 64) (place : BitVec 64),
    callOpen s via v ∧
    kind.toNat ≤ 2 ∧
    n ≠ 0 ∧
    ((kind = 0 → s.waf.siteCode v i.toNat = 0)) ∧
    s.waf.placeFor v kind.toNat i.toNat n.toNat place.toNat = some a :=
  ⟨on c0, ⟨1, 3⟩, 0, 0x000100000F000000, 0, 64, 1, 0, by decide +kernel⟩

theorem wit_CallsOfClockBootMemory_8 : ∃ (s : State) (via : Via) (v : Nat) (a : BitVec 64) (x : Alloc),
    callOpen s via v ∧
    s.waf.que.allocs.find? (fun y => y.addr.toNat == a.toNat && y.kind != 2) = some x ∧
    x.vol = v :=
  ⟨on fun w => { c0 w with que := { w.que with allocs := [{ vol := 0, kind := 0, addr := 0x000100000F000000, bytes := 64 }] } }, ⟨1, 3⟩, 0, 0x000100000F000000, { vol := 0, kind := 0, addr := 0x000100000F000000, bytes := 64 }, by decide +kernel⟩

theorem wit_CallsOfClockBootMemory_9 : ∃ (s : State) (via : Via) (v : Nat) (i : BitVec 64),
    callOpen s via v ∧
    s.waf.anySite i.toNat = 0 ∧
    i.toNat < 128 ∧
    s.waf.get (memBlk i.toNat) F.MEM_STAT.FLUSH_BUSY = 0 :=
  ⟨on c0, ⟨1, 3⟩, 0, 2, by decide +kernel⟩

theorem wit_CallsOfClockBootMemory_10 : ∃ (s : State) (via : Via) (i : Fin 128),
    callChan s via ∧
    s.waf.active i.val = true ∧
    s.waf.get (memBlk i.val) F.MEM_STAT.FLUSH_BUSY = 1 ∧
    (∀ e ∈ s.waf.coh.wback, e.1 / 2 ^ 28 ≠ i.val) ∧
    s.waf.que.flushes = [(i.val, via.edge.val, via.ch.val)] :=
  ⟨on fun w => { (c0 w).set (memBlk 1) F.MEM_STAT.FLUSH_BUSY 1 with que := { w.que with flushes := [(1, 1, 3)] } }, ⟨1, 3⟩, 1, by decide +kernel⟩

theorem wit_CallsOfClockBootMemory_11 : ∃ (s : State) (via : Via) (v : Nat) (i : Nat) (j : Nat) (m : Nat) (d : BitVec 64) (a : BitVec 64) (n : BitVec 64) (ref : BitVec 64) (x : BitVec 64) (w : Wafer),
    callOpen s via v ∧
    signalOpen s v ref.toNat i j x ∧
    (∀ k < n.toNat, s.waf.isRam (a.toNat + k) = true ∧ s.waf.isRam (d.toNat + k) = true) ∧
    Wafer.moveBytes s.sup (volSrc v) (volSrc v) (n.toNat + 2) s.waf a.toNat d.toNat n.toNat = (stOk, m, w) :=
  ⟨on fun w => sync7 0 (c0 w), ⟨1, 3⟩, 0, 1, 7, moved0.2.1, 0x000100000F000000, 0x000100000F001000, 8, 2055, 3, moved0.2.2, by decide +kernel⟩

theorem wit_CallsOfRingsAndVolumes_1 : ∃ (s : State) (via : Via) (v : Nat) (i : Nat) (r : Nat) (kind : BitVec 64) (site : BitVec 64) (sz : BitVec 64) (es : BitVec 64) (mem : BitVec 64) (cr : BitVec 64) (pick : Nat),
    callOpen s via v ∧
    v < 64 ∧
    i = site.toNat ∧
    i < 128 ∧
    s.waf.siteCode v i = 0 ∧
    kind.toNat ≤ 3 ∧
    sz.toNat ≤ 20 ∧
    es.toNat ≤ 16 ∧
    ((kind = 0 → cr.toNat / 2048 = i ∧ s.waf.rKind (ringBlk i (cr.toNat % 2048)) = 1 ∧ s.waf.ringUnused i (cr.toNat % 2048) = false ∧ s.waf.rVol (ringBlk i (cr.toNat % 2048)) = v)) ∧
    s.waf.writeStatus (volSrc v) mem.toNat (2 ^ (sz.toNat + es.toNat)) = stOk ∧
    Wafer.pickFree 2048 pick (s.waf.ringUnused i) = some r ∧
    ((s.waf.setReg (ringBlk i r) mem).setReg (ringBlk i r + 8) (BitVec.ofNat 64 (Wafer.ringWord v kind.toNat sz.toNat es.toNat (if kind = 0 then cr.toNat % 2048 else 0)))).ringFits (ringBlk i r) = true ∧
    s.waf.ringCount v i < (if v = 0 then 64 else s.waf.volField v 0 0 11) :=
  ⟨on c0, ⟨1, 3⟩, 0, 1, 9, 3, 1, 4, 3, 0x000100000F000000, 0, 9, by decide +kernel⟩

theorem wit_CallsOfRingsAndVolumes_2 : ∃ (s : State) (via : Via) (v : Nat) (i : Nat) (r : Nat) (id : BitVec 64),
    callOpen s via v ∧
    i < 128 ∧
    r < 2048 ∧
    id.toNat = i * 2048 + r ∧
    s.waf.anySite i = 0 ∧
    s.waf.ringUnused i r = false ∧
    s.waf.rVol (ringBlk i r) = v ∧
    s.waf.ringInUse i r = false :=
  ⟨on fun w => ring7 2 0 0 (c0 w), ⟨1, 3⟩, 0, 1, 7, 2055, by decide +kernel⟩

theorem wit_CallsOfRingsAndVolumes_3 : ∃ (s : State) (via : Via) (v : Nat) (i : Nat) (r : Nat) (id : BitVec 64),
    callOpen s via v ∧
    i < 128 ∧
    r < 2048 ∧
    id.toNat = i * 2048 + r ∧
    s.waf.anySite i = 0 ∧
    s.waf.ringUnused i r = false ∧
    s.waf.rVol (ringBlk i r) = v ∧
    s.waf.rHeld (ringBlk i r) ≠ 0 :=
  ⟨on fun w => ring7 2 0 5 (c0 w), ⟨1, 3⟩, 0, 1, 7, 2055, by decide +kernel⟩

theorem wit_CallsOfRingsAndVolumes_4 : ∃ (s : State) (via : Via) (v : Nat) (i : Nat) (j : Nat) (site : BitVec 64) (x : BitVec 64) (pick : Nat),
    callOpen s via v ∧
    v < 64 ∧
    i = site.toNat ∧
    i < 128 ∧
    s.waf.siteCode v i = 0 ∧
    x ≠ poisonVal ∧
    ((s.waf.syncsOf v).filter (fun y => y.1 == i && s.waf.syncLive y.1 y.2)).length < (if v = 0 then 256 else s.waf.volField v 0 11 11) ∧
    Wafer.pickFree 2048 pick (fun j => !s.waf.syncLive i j) = some j :=
  ⟨on c2, ⟨1, 20⟩, 2, 1, 2047, 1, 0xFFFFFFFFFFFFFFFE, 2047, by decide +kernel⟩

theorem wit_CallsOfRingsAndVolumes_5 : ∃ (s : State) (via : Via) (v : Nat) (i : Nat) (j : Nat) (id : BitVec 64),
    callOpen s via v ∧
    i < 128 ∧
    j < 2048 ∧
    id.toNat = i * 2048 + j ∧
    s.waf.anySite i = 0 ∧
    s.waf.syncLive i j = true ∧
    s.waf.syncVol i j = v :=
  ⟨on fun w => sync7 2 (c2 w), ⟨1, 20⟩, 2, 1, 7, 2055, by decide +kernel⟩

theorem wit_CallsOfRingsAndVolumes_6 : ∃ (s : State) (via : Via) (c : Nat) (v : BitVec 64) (pr : BitVec 64) (vf : BitVec 64),
    callOpen s via c ∧
    s.waf.volAuth c = true ∧
    v ≠ 0 ∧
    v.toNat < 64 ∧
    (s.waf.createVolume v.toNat pr.toNat (if vf.toNat < 64 then some vf.toNat else none)).1 = 0 :=
  ⟨on fun w => (c0 w).setReg (profBlk 31 + 8) 0x300, ⟨1, 3⟩, 0, 63, 31, 63, by decide +kernel⟩

theorem wit_CallsOfRingsAndVolumes_7 : ∃ (s : State) (via : Via) (c : Nat) (v : BitVec 64) (_pr : BitVec 64) (_vf : BitVec 64),
    callOpen s via c ∧
    s.waf.volAuth c = true ∧
    v ≠ 0 ∧
    v.toNat < 64 ∧
    s.waf.live.getLsbD v.toNat = true :=
  ⟨on fun w => vol2 (c0 w), ⟨1, 3⟩, 0, 2, 31, 63, by decide +kernel⟩

theorem wit_CallsOfRingsAndVolumes_8 : ∃ (s : State) (via : Via) (c : Nat) (v : BitVec 64),
    callOpen s via c ∧
    s.waf.volAuth c = true ∧
    v ≠ 0 ∧
    v.toNat < 64 ∧
    c ≠ v.toNat ∧
    s.waf.live.getLsbD v.toNat = true :=
  ⟨on fun w => vol2 (c0 w), ⟨1, 3⟩, 0, 2, by decide +kernel⟩

theorem wit_CallsOfRingsAndVolumes_9 : ∃ (s : State) (via : Via) (c : Nat) (v : BitVec 64),
    callOpen s via c ∧
    s.waf.volAuth c = true ∧
    v ≠ 0 ∧
    v.toNat < 64 ∧
    c ≠ v.toNat ∧
    s.waf.live.getLsbD v.toNat = true :=
  ⟨on fun w => vol2 (c0 w), ⟨1, 3⟩, 0, 2, by decide +kernel⟩

theorem wit_CallsOfRingsAndVolumes_10 : ∃ (s : State) (via : Via) (c : Nat) (v : BitVec 64) (n : BitVec 64) (p : BitVec 64) (a : BitVec 64) (l : BitVec 64) (wr : BitVec 64),
    callOpen s via c ∧
    s.waf.volAuth c = true ∧
    v ≠ 0 ∧
    v.toNat < 64 ∧
    s.waf.liveVol v.toNat = true ∧
    n.toNat < 4 ∧
    p.toNat < 32 ∧
    a.toNat % 4096 = 0 ∧
    a.toNat < 2 ^ 48 ∧
    l.toNat % 4096 = 0 ∧
    l.toNat < 2 ^ 48 ∧
    wr.toNat ≤ 1 :=
  ⟨on fun w => vol2 (c0 w), ⟨1, 3⟩, 0, 2, 3, 31, 0x7000, 0x1000, 1, by decide +kernel⟩

theorem wit_CallsOfRingsAndVolumes_11 : ∃ (s : State) (via : Via) (c : Nat) (v : BitVec 64) (a : BitVec 64) (n : BitVec 64),
    callOpen s via c ∧
    v.toNat < 64 ∧
    ((v = 0 ∨ s.waf.liveVol v.toNat = true)) ∧
    ((c = 0 ∨ c = v.toNat)) ∧
    80 ≤ n.toNat ∧
    s.waf.writeStatus (volSrc c) a.toNat 80 = stOk :=
  ⟨on c2, ⟨1, 20⟩, 2, 2, 0x0001000000100000, 80, by decide +kernel⟩

theorem wit_CallsOfRingsAndVolumes_12 : ∃ (s : State) (via : Via) (c : Nat) (v : BitVec 64) (_a : BitVec 64) (_n : BitVec 64),
    callOpen s via c ∧
    v.toNat < 64 ∧
    ((v = 0 ∨ s.waf.liveVol v.toNat = true)) ∧
    c ≠ 0 ∧
    c ≠ v.toNat :=
  ⟨on c2, ⟨1, 20⟩, 2, 0, 0x0001000000100000, 80, by decide +kernel⟩

theorem wit_CallsOfUnitsAndPorts_1 : ∃ (s : State) (via : Via) (v : Nat) (i : BitVec 64) (e : BitVec 64) (a : BitVec 64) (n : BitVec 64),
    callOpen s via v ∧
    s.waf.volAuth v = true ∧
    i.toNat < 128 ∧
    s.waf.anySite i.toNat = 0 ∧
    e.toNat < 8 ∧
    16384 ≤ n.toNat ∧
    s.waf.writeStatus (volSrc v) a.toNat 16384 = stOk :=
  ⟨on c0, ⟨1, 3⟩, 0, 1, 7, 0x000100000F000000, 16384, by decide +kernel⟩

theorem wit_CallsOfUnitsAndPorts_2 : ∃ (s : State) (via : Via) (v : Nat) (i : BitVec 64) (a : BitVec 64) (n : BitVec 64),
    callOpen s via v ∧
    i.toNat < 128 ∧
    s.waf.anySite i.toNat = 0 ∧
    312 ≤ n.toNat ∧
    s.waf.writeStatus (volSrc v) a.toNat 312 = stOk :=
  ⟨on c0, ⟨1, 3⟩, 0, 1, 0x000100000F000000, 312, by decide +kernel⟩

theorem wit_CallsOfUnitsAndPorts_3 : ∃ (s : State) (via : Via) (v : Nat) (i : BitVec 64) (a : BitVec 64) (n : BitVec 64),
    callOpen s via v ∧
    i.toNat < 128 ∧
    s.waf.anySite i.toNat = 0 ∧
    136 ≤ n.toNat ∧
    s.waf.writeStatus (volSrc v) a.toNat 136 = stOk :=
  ⟨on c0, ⟨1, 3⟩, 0, 1, 0x000100000F000000, 136, by decide +kernel⟩

theorem wit_CallsOfUnitsAndPorts_4 : ∃ (s : State) (via : Via) (v : Nat) (k : Nat) (i : BitVec 64) (n : BitVec 64) (o : BitVec 64) (l : BitVec 64),
    callOpen s via v ∧
    i.toNat < 128 ∧
    s.waf.siteCode v i.toNat = 0 ∧
    n.toNat < 64 ∧
    k = fltBlk i.toNat + 0x20 + 0x10 * n.toNat ∧
    ((getF (s.waf.reg k) 63 1 = 0 ∨ Wafer.within (s.waf.sramWin v) (getF (s.waf.reg k) 0 32) (getF (s.waf.reg k) 32 31) = true)) ∧
    l ≠ 0 ∧
    Wafer.within (s.waf.sramWin v) o.toNat l.toNat = true ∧
    (s.waf.twinSet i.toNat n.toNat (BitVec.ofNat 64 (o.toNat + l.toNat * 2 ^ 32 + 2 ^ 63))).isSome = true :=
  ⟨on c2, ⟨1, 20⟩, 2, fltBlk 1 + 0x410, 1, 63, 0x100000, 0x1000, by decide +kernel⟩

theorem wit_CallsOfUnitsAndPorts_5 : ∃ (s : State) (via : Via) (v : Nat) (k : Nat) (i : BitVec 64) (n : BitVec 64) (_o : BitVec 64),
    callOpen s via v ∧
    i.toNat < 128 ∧
    s.waf.siteCode v i.toNat = 0 ∧
    n.toNat < 64 ∧
    k = fltBlk i.toNat + 0x20 + 0x10 * n.toNat ∧
    getF (s.waf.reg k) 63 1 = 0 :=
  ⟨on c2, ⟨1, 20⟩, 2, fltBlk 1 + 0x410, 1, 63, 0x100000, by decide +kernel⟩

theorem wit_CallsOfUnitsAndPorts_6 : ∃ (s : State) (via : Via) (v : Nat) (e : Nat) (p : Nat) (n : BitVec 64) (r : BitVec 64) (q : BitVec 64),
    callOpen s via v ∧
    s.waf.volAuth v = true ∧
    e < 16 ∧
    p < 2 ∧
    n.toNat = 2 * e + p ∧
    r.toNat < 2 ∧
    q.toNat < 4 ∧
    s.waf.active (128 + e) = true ∧
    s.waf.pcieCfgOk e p (putF (putF (s.waf.reg (pcieBlk e p)) 0 1 r.toNat) 4 2 q.toNat) = true :=
  ⟨on c0, ⟨1, 3⟩, 0, 1, 1, 3, 1, 3, by decide +kernel⟩

theorem wit_CallsOfUnitsAndPorts_7 : ∃ (s : State) (via : Via) (v : Nat) (i : Nat) (j : Nat) (n : BitVec 64) (_ns : BitVec 64) (_lba : BitVec 64) (b : BitVec 64) (d : BitVec 64) (ref : BitVec 64) (x : BitVec 64) (l : List Byte),
    callOpen s via v ∧
    n.toNat < 32 ∧
    b ≠ 0 ∧
    s.waf.active (128 + n.toNat / 2) = true ∧
    s.waf.pcieCfg (n.toNat / 2) (n.toNat % 2) F.PRT_PCIE_CFG.ROLE ≠ 0 ∧
    signalOpen s v ref.toNat i j x ∧
    s.waf.get (pcieBlk (n.toNat / 2) (n.toNat % 2)) F.PRT_PCIE_STAT.UP ≠ 0 ∧
    ((l.length = 512 * b.toNat ∨ l.length = 4096 * b.toNat)) ∧
    s.waf.writeStatus (volSrc v) d.toNat l.length = stOk :=
  ⟨on fun w => { (sync7 0 (c0 w)).set (pcieBlk 2 1) F.PRT_PCIE_STAT.UP 1 with prt := { w.prt with cfg := [(pcieBlk 2 1, 1)] } }, ⟨1, 3⟩, 0, 1, 7, 5, 1, 0, 1, 0x000100000F000000, 2055, 3, List.replicate 512 9, by decide +kernel⟩

theorem wit_CallsOfUnitsAndPorts_8 : ∃ (s : State) (via : Via) (v : Nat) (i : Nat) (r : Nat) (n : BitVec 64) (k : BitVec 64) (m : BitVec 64) (ring : BitVec 64) (off : BitVec 64) (pol : BitVec 64),
    callOpen s via v ∧
    v < 64 ∧
    n.toNat < 16 ∧
    k.toNat < 64 ∧
    m.toNat < 2 ^ 60 ∧
    i < 128 ∧
    r < 2048 ∧
    ring.toNat = i * 2048 + r ∧
    off.toNat < 4096 ∧
    pol.toNat < 2 ∧
    s.waf.active (128 + n.toNat) = true ∧
    s.waf.anySite i = 0 ∧
    ((getF (s.waf.reg (ethRuleKey n.toNat k.toNat 0)) 0 1 = 1 → getF (s.waf.reg (ethRuleKey n.toNat k.toNat 1)) 18 6 = v)) ∧
    s.waf.rKind (ringBlk i r) = 2 ∧
    s.waf.ringUnused i r = false ∧
    s.waf.rVol (ringBlk i r) = v ∧
    ((∀ e < 16, e ≠ n.toNat → ∀ y < 64, getF (s.waf.reg (ethRuleKey e y 0)) 0 1 = 1 → getF (s.waf.reg (ethRuleKey e y 1)) 0 18 ≠ ring.toNat)) :=
  ⟨on fun w => ring7 2 0 0 (c0 w), ⟨1, 3⟩, 0, 1, 7, 1, 63, 0x0E00000088B50001, 2055, 4095, 1, by decide +kernel⟩

theorem wit_CallsOfUnitsAndPorts_9 : ∃ (s : State) (via : Via) (v : Nat) (n : BitVec 64) (q : BitVec 64) (mac : BitVec 64) (ip : List Byte) (sp : BitVec 64) (dp : BitVec 64) (x : Nat),
    callOpen s via v ∧
    (∀ f ∈ s.waf.prt.flows, f.id ≠ x) ∧
    (∀ y < x, ∃ f ∈ s.waf.prt.flows, f.id = y) ∧
    n.toNat < 16 ∧
    q.toNat < Wafer.subPorts (s.waf.ethMode n.toNat) ∧
    mac.toNat < 2 ^ 48 ∧
    ((ip.length = 4 ∨ ip.length = 16)) ∧
    sp.toNat < 65536 ∧
    dp.toNat < 65536 ∧
    s.waf.active (128 + n.toNat) = true :=
  ⟨on fun w => { c0 w with prt := { w.prt with flows := [{ flow0 with id := 0 }] } }, ⟨1, 3⟩, 0, 1, 0, 0xFFFFFFFFFFFF, [1, 2, 3, 4], 7, 8, 1, by decide +kernel⟩

theorem wit_CallsOfUnitsAndPorts_10 : ∃ (s : State) (via : Via) (v : Nat) (i : Nat) (j : Nat) (n : BitVec 64) (a : BitVec 64) (l : BitVec 64) (ref : BitVec 64) (x : BitVec 64) (f : Flow),
    callOpen s via v ∧
    s.waf.prt.flows.find? (·.id == n.toNat) = some f ∧
    f.vol = v ∧
    l.toNat + (if f.ip.length = 4 then 46 else 66) ≤ 9216 ∧
    signalOpen s v ref.toNat i j x ∧
    s.waf.readStatus (volSrc v) a.toNat l.toNat = stOk ∧
    s.waf.subUp f.edge f.sub = true :=
  ⟨on fun w => { (sync7 0 (c0 w)).set (ethBlk 1) F.PRT_ETH_STAT.UP 1 with prt := { w.prt with flows := [flow0] } }, ⟨1, 3⟩, 0, 1, 7, 4, 0x000100000F000000, 9170, 2055, 3, flow0, by decide +kernel⟩

theorem wit_CallsOfBanksAndImages_1 : ∃ (s : State) (via : Via) (v : Nat) (b : Nat) (u : Nat) (i : Fin 128) (rel : BitVec 64) (a : BitVec 64) (n : BitVec 64) (c : BitVec 64) (sp : BitVec 64),
    callOpen s via v ∧
    s.waf.callBank v i.val rel.toNat = .ok b ∧
    b < 64 ∧
    ((u = 1 ∨ u = 2 ∨ u = 4)) ∧
    c ≠ 0 ∧
    32 * u * c.toNat ≤ n.toNat ∧
    u * (c.toNat + (if sp = 0 then 0 else c.toNat / sp.toNat)) ≤ 4096 ∧
    s.waf.readStatus (volSrc v) a.toNat (32 * u * c.toNat) = stOk :=
  ⟨on c2, ⟨1, 20⟩, 2, 5, 2, 1, 3, 0x0001000000100000, 128, 2, 1, by decide +kernel⟩

theorem wit_CallsOfBanksAndImages_2 : ∃ (s : State) (via : Via) (v : Nat) (a : BitVec 64) (n : BitVec 64) (f : BitVec 64) (c : BitVec 64) (rk : List (BitVec 4)),
    callOpen s via v ∧
    c ≠ 0 ∧
    c.toNat ≤ 64 ∧
    f.toNat + c.toNat ≤ (s.waf.bankWin v).2 ∧
    a.toNat % 64 = 0 ∧
    rk.length = c.toNat ∧
    64 ≤ n.toNat ∧
    s.waf.writeStatus (volSrc v) a.toNat 64 = stOk :=
  ⟨on c2, ⟨1, 20⟩, 2, 0x0001000000100000, 64, 5, 3, [1, 2, 3], by decide +kernel⟩

theorem wit_CallsOfBanksAndImages_3 : ∃ (s : State) (via : Via) (v : Nat) (b : Nat) (u : Nat) (i : Fin 128) (rel : BitVec 64) (p : BitVec 64) (l : List Byte) (x : Wafer.Ins),
    callOpen s via v ∧
    s.waf.callBank v i.val rel.toNat = .ok b ∧
    b < 64 ∧
    ((u = 1 ∨ u = 2 ∨ u = 4)) ∧
    l.length = 32 * u ∧
    p.toNat % u = 0 ∧
    p.toNat ≤ 4096 ∧
    Wafer.insertAt (bankCells s.waf i.val b) i.val b u p.toNat = some x :=
  ⟨on fun w => entry10 (c2 w), ⟨1, 20⟩, 2, 5, 1, 1, 3, 10, unit0, { row := 9, move := none }, by decide +kernel⟩

theorem wit_CallsOfBanksAndImages_4 : ∃ (s : State) (via : Via) (v : Nat) (b : Nat) (u : Nat) (i : Fin 128) (rel : BitVec 64) (r : BitVec 64),
    callOpen s via v ∧
    s.waf.callBank v i.val rel.toNat = .ok b ∧
    b < 64 ∧
    r.toNat < 4096 ∧
    entryAt (bankCells s.waf i.val b) i.val b r.toNat = some u :=
  ⟨on fun w => entry10 (c2 w), ⟨1, 20⟩, 2, 5, 1, 1, 3, 10, by decide +kernel⟩

theorem wit_CallsOfBanksAndImages_5 : ∃ (s : State) (via : Via) (v : Nat) (b : Nat) (u : Nat) (i : Fin 128) (rel : BitVec 64) (r : BitVec 64) (l : List Byte),
    callOpen s via v ∧
    s.waf.callBank v i.val rel.toNat = .ok b ∧
    b < 64 ∧
    r.toNat < 4096 ∧
    entryAt (bankCells s.waf i.val b) i.val b r.toNat = some u ∧
    l.length = 32 * u :=
  ⟨on fun w => entry10 (c2 w), ⟨1, 20⟩, 2, 5, 1, 1, 3, 10, unit0, by decide +kernel⟩

theorem wit_CallsOfBanksAndImages_6 : ∃ (s : State) (via : Via) (v : Nat) (g : BitVec 64) (f : BitVec 64) (m : BitVec 64) (a : BitVec 64) (sr : BitVec 64) (st : BitVec 64) (c : BitVec 64),
    callOpen s via v ∧
    v < 64 ∧
    g.toNat < 16 ∧
    2 ≤ m.toNat ∧
    m.toNat ≤ 128 ∧
    f.toNat + m.toNat ≤ 128 ∧
    c ≠ 0 ∧
    c.toNat ≤ 32 ∧
    st.toNat % 4096 = 0 ∧
    st.toNat < 2 ^ 32 ∧
    c.toNat * 0x20000 + sr.toNat ≤ st.toNat ∧
    s.waf.sitesCode v f.toNat m.toNat = 0 ∧
    s.waf.slotTaken v g.toNat = false ∧
    s.waf.readStatus (volSrc v) a.toNat (m.toNat * st.toNat) = stOk ∧
    (s.waf.sramWin v).1 + (s.waf.sramWin v).2 ≤ 2 ^ 28 ∧
    (∀ x ∈ s.waf.spanUp v, x < 128 ∧ (s.waf.rotReserve v x g.toNat c.toNat sr.toNat st.toNat a.toNat).isSome = true) :=
  ⟨on c2, ⟨1, 20⟩, 2, 3, 1, 2, 0x2001000880000000, 0, 0x20000, 1, by decide +kernel⟩

theorem wit_CallsOfBanksAndImages_7 : ∃ (s : State) (via : Via) (v : Nat) (g : BitVec 64),
    callOpen s via v ∧
    g.toNat < 16 ∧
    s.waf.groupSites v g.toNat ≠ [] ∧
    s.waf.groupBound v g.toNat = false ∧
    (∀ i ∈ s.waf.groupSites v g.toNat, s.waf.flag (ensBlk i g.toNat) F.ENS_SLOT_CFG.VALID = false) ∧
    s.waf.spanFirst v + s.waf.spanCount v ≤ 128 :=
  ⟨on fun w => group2 (c2 w), ⟨1, 20⟩, 2, 3, by decide +kernel⟩

theorem wit_CallsOfBanksAndImages_9 : ∃ (s : State) (via : Via) (v : Nat) (g : BitVec 64),
    callOpen s via v ∧
    g.toNat < 16 ∧
    s.waf.ensSites v g.toNat ≠ [] ∧
    s.waf.groupBound v g.toNat = false ∧
    ((∀ c ∈ s.waf.cmds, c.isOpen = true → c.vol = v → c.site ∈ s.waf.ensSites v g.toNat → s.waf.holdsRef g.toNat c = false)) ∧
    s.waf.spanFirst v + s.waf.spanCount v ≤ 128 :=
  ⟨on fun w => (c2 w).setReg (ensBlk 1 3) 5, ⟨1, 20⟩, 2, 3, by decide +kernel⟩

/-- The image is what memory holds. -/
theorem wit_CallsOfBanksAndImages_8 : ∃ (s : State) (via : Via) (v : Nat) (g a f n r : BitVec 64) (h img : List Byte),
    callOpen s via v ∧ v < 64 ∧ g.toNat < 16 ∧ s.waf.slotTaken v g.toNat = false ∧ s.waf.readStatus (volSrc v) a.toNat 4096 = stOk ∧
    h = s.waf.load a.toNat 4096 ∧ imageHeaderOk h = true ∧ s.waf.readStatus (volSrc v) a.toNat (iBytes h) = stOk ∧
    img = s.waf.load a.toNat (iBytes h) ∧ n ≠ 0 ∧ f.toNat + n.toNat ≤ 128 ∧ s.waf.sitesCode v f.toNat n.toNat = 0 ∧ r ≠ 0 ∧ r.toNat ≤ 4 ∧
    iPages h = 1 ∧ s.waf.repsFit v f.toNat n.toNat (r.toNat * iBanks h) = true ∧ (s.waf.sramWin v).1 + (s.waf.sramWin v).2 ≤ 2 ^ 28 ∧
    (∀ j < n.toNat, (s.waf.ensSite v g.toNat a.toNat h r.toNat (f.toNat + j)).isSome = true) :=
  ⟨on fun w => imaged (c2 w), ⟨1, 20⟩, 2, 3, 0x2001000880000000, 1, 2, 4, _, _, by decide +kernel, by decide, by decide, by decide +kernel,
    by decide +kernel, rfl, by decide +kernel, by decide +kernel, rfl, by decide, by decide, by decide +kernel, by decide, by decide,
    by decide +kernel, by decide +kernel, by decide +kernel, by decide +kernel⟩

end L

/-! ### Witnesses of the statements about every step, and of the rules stated whole -/

theorem wit_QueueUntouched : ∃ (c : Instr) (s t : State), exec c s = .next t := ⟨.hbmRefresh 0, s0, s0, rfl⟩

theorem wit_PowerInvKept : ∃ s t : State, PowerInv s ∧ step s = .next t :=
  ⟨State.reset, _, by unfold PowerInv; decide +kernel, rfl⟩

theorem wit_MinMaxOfKeys : ∃ (c a b : Nat) (ftz isMax : Bool), fmtKey c = true ∧ minMax c ftz isMax a b = (a, fNone) :=
  ⟨0x0F, 9, 0, false, false, by decide +kernel⟩

theorem wit_WindowAdvanceStaysInDie : ∃ (w : Wafer) (n : Nat), n < 2 ∧ getF (w.win n).cur 0 48 = 2 ^ 48 - 8 :=
  ⟨w0.setWin 1 { w0.win 1 with cur := 0x0005FFFFFFFFFFF8 }, 1, by decide +kernel⟩

theorem wit_SaveSlotsInVolumeZero : ∃ e c e' c' : Nat, e < 8 ∧ 1 ≤ c ∧ c ≤ 3 ∧ e' < 8 ∧ 1 ≤ c' ∧ c' ≤ 3 ∧ (e, c) ≠ (e', c') :=
  ⟨0, 1, 7, 3, by decide⟩

theorem wit_IdleTickCountsClocks : ∃ s : State, s.pending = [] := ⟨s0, rfl⟩

/-! ### Well-formedness: for each check a term it refuses -/

def far : LinkEnd := ⟨130, 2⟩
def who9 : Requester := ⟨0, 121⟩
def req9 : MemReq := { who := who9, tag := 0, src := .unhal, addr := 0, size := 8, acquire := false, release := false }
def sew9 (n d x : Nat) : SewIn := { code := 0, stageOk := true, wires := [⟨n, d, x⟩], endsUs := 0 }
def coll0 : CollIn :=
  { root0 := true, root8 := true, crosslink := true, fusesEqual := true, selftest := [], stages := [], straps := [], wires := [], latency := [],
    silent := [], hbmFail := [] }
def rep0 : DieReport := { isEdge := false, position := 5, codes := 0, stepping := 0, links := List.replicate 4 (0, 0, 0) }

theorem test_wf_stamp : (Instr.folioStamp 0 (.eth 0) [1, 2]).wf = false := by decide +kernel
theorem test_wf_abort_edges : (Instr.ribFrameAbort .a 56).wf = false := by decide +kernel
theorem test_wf_rejoin_wire : (Instr.ribResetSite .a 0 0 1 (some (sew9 5 3 2192))).wf = false := by decide +kernel
theorem test_wf_wire_node : (sew9 160 0 0).wf = false := by decide +kernel
theorem test_wf_wire_dir : (sew9 0 5 0).wf = false := by decide +kernel
theorem test_wf_wire_ok : (sew9 159 4 2191).wf = true := by decide +kernel
theorem test_wf_coll_selftest : (Instr.collation { coll0 with selftest := [(160, 1)] }).wf = false := by decide +kernel
theorem test_wf_coll_stage : (Instr.collation { coll0 with stages := [144] }).wf = false := by decide +kernel
theorem test_wf_coll_strap : (Instr.collation { coll0 with straps := [(160, 0)] }).wf = false := by decide +kernel
theorem test_wf_coll_wire : (Instr.collation { coll0 with wires := [⟨160, 0, 0⟩] }).wf = false := by decide +kernel
theorem test_wf_coll_latency : (Instr.collation { coll0 with latency := [(0, 5, 0)] }).wf = false := by decide +kernel
theorem test_wf_coll_silent : (Instr.collation { coll0 with silent := [160] }).wf = false := by decide +kernel
theorem test_wf_coll_hbm : (Instr.collation { coll0 with hbmFail := [3, 3] }).wf = false := by decide +kernel
theorem test_wf_coll_ok : (Instr.collation coll0).wf = true := by decide +kernel
theorem test_wf_discover : (Instr.discover 5 4 0).wf = false := by decide +kernel
theorem test_wf_ident_links : (Instr.ident 5 { rep0 with links := [] }).wf = false := by decide +kernel
theorem test_wf_ident_position : (Instr.ident 5 { rep0 with position := 144 }).wf = false := by decide +kernel
theorem test_wf_ident_kind : (Instr.ident 150 rep0).wf = false := by decide +kernel
theorem test_wf_flitReceive : (Instr.flitReceive far 0).wf = false := by decide +kernel
theorem test_wf_linkFlitReceive : (Instr.linkFlitReceive far 0).wf = false := by decide +kernel
theorem test_wf_linkFlitSend : (Instr.linkFlitSend far).wf = false := by decide +kernel
theorem test_wf_routerForward : (Instr.routerForward far .mem false).wf = false := by decide +kernel
theorem test_wf_escapeMove : (Instr.escapeMove far .coh 1).wf = false := by decide +kernel
theorem test_wf_ackTimeout : (Instr.ackTimeout (.die far)).wf = false := by decide +kernel
theorem test_wf_noProgress : (Instr.noProgress (.die far)).wf = false := by decide +kernel
theorem test_wf_fifoSlip : (Instr.fifoSlip far 1).wf = false := by decide +kernel
theorem test_wf_retrain : (Instr.retrain (.die far) 0).wf = false := by decide +kernel
theorem test_wf_retrainFail : (Instr.retrainFail (.die far)).wf = false := by decide +kernel
theorem test_wf_frayWindow : (Instr.frayWindow (.die far)).wf = false := by decide +kernel
theorem test_wf_linkRetire : (Instr.linkRetire far).wf = false := by decide +kernel
theorem test_wf_lnkClear : (Instr.lnkClear .unhal far).wf = false := by decide +kernel
theorem test_wf_lnkRetrain : (Instr.lnkRetrain .unhal far).wf = false := by decide +kernel
theorem test_wf_memRead_unit : (Instr.memRead req9).wf = false := by decide +kernel
theorem test_wf_memRead_size : (Instr.memRead { req9 with who := ⟨0, 120⟩, size := 0 }).wf = false := by decide +kernel
theorem test_wf_memWrite : (Instr.memWrite { req9 with who := ⟨0, 120⟩ } [1]).wf = false := by decide +kernel
theorem test_wf_memAtomic : (Instr.memAtomic { req9 with who := ⟨0, 120⟩, size := 4 } 0 0 0).wf = false := by decide +kernel
theorem test_wf_readRsp : (Instr.readRsp who9 0).wf = false := by decide +kernel
theorem test_wf_writeRsp : (Instr.writeRsp who9 0).wf = false := by decide +kernel
theorem test_wf_atomicRsp : (Instr.atomicRsp who9 0).wf = false := by decide +kernel
theorem test_wf_syncAdd : (Instr.syncAdd who9 0 .unhal 0 0 0).wf = false := by decide +kernel
theorem test_wf_syncWait : (Instr.syncWait who9 0 .unhal 0 0 0 0).wf = false := by decide +kernel
theorem test_wf_syncWaitTimeout : (Instr.syncWaitTimeout who9 0).wf = false := by decide +kernel
theorem test_wf_qpush : (Instr.qpushOperation ⟨0, 0⟩ 0 .unhal 0 0 [1, 2, 3]).wf = false := by decide +kernel
theorem test_wf_qpop : (Instr.qpopOperation ⟨0, 0⟩ 0 .unhal 0 0 17).wf = false := by decide +kernel
theorem test_wf_queueRsp : (Instr.queueRsp who9 0).wf = false := by decide +kernel
theorem test_wf_syncWake : (Instr.syncWake who9 0).wf = false := by decide +kernel
theorem test_wf_abortSlow : (Instr.abortSlow 0 0 (some (sew9 160 0 0))).wf = false := by decide +kernel
theorem test_wf_gather_node : (Instr.gatherOperand 1 0 false 256 0).wf = false := by decide +kernel
theorem test_wf_gather_level : (Instr.gatherOperand 1 0 false 0 8).wf = false := by decide +kernel
theorem test_wf_row_write : (Instr.ascRowWrite .unhal 0 0 131071 [1, 2]).wf = false := by decide +kernel
theorem test_wf_row_empty : (Instr.ascRowWrite .unhal 0 0 0 []).wf = false := by decide +kernel
theorem test_wf_leaveRequest :
    (Instr.leaveRequest { site := 0, res := 1024, cls := 0, vol := 0, lu := 0, durationUs := 0 }).wf = false := by decide +kernel
theorem test_wf_leaveGrant : (Instr.leaveGrant 0 1024).wf = false := by decide +kernel
theorem test_wf_leaveDenial : (Instr.leaveDenial 0 1024).wf = false := by decide +kernel
theorem test_wf_thermal : (Instr.thermalSample 0 [1] (List.replicate 8 1)).wf = false := by decide +kernel
theorem test_wf_transferTimeout : (Instr.transferTimeout who9 0).wf = false := by decide +kernel
theorem test_wf_beats : (Instr.heartbeatCheck [1, 1] none).wf = false := by decide +kernel
theorem test_wf_beats_rejoin : (Instr.heartbeatCheck [] (some (sew9 160 0 0))).wf = false := by decide +kernel
theorem test_wf_vfDoorbell : (Instr.vfDoorbell 0 0 0 []).wf = false := by decide +kernel
theorem test_wf_hostCompletion : (Instr.hostCompletion 0 0 who9 0 false []).wf = false := by decide +kernel
theorem test_wf_ethFrame : (Instr.ethFrame 0 0 [] true).wf = false := by decide +kernel
theorem test_wf_ascInsert : (Instr.unhalAscInsert ⟨0, 0⟩ 0 0 0 [1]).wf = false := by decide +kernel
theorem test_wf_ascReplace : (Instr.unhalAscReplace ⟨0, 0⟩ 0 0 0 (List.replicate 96 0)).wf = false := by decide +kernel
theorem test_wf_ethFlow : (Instr.unhalEthFlow ⟨0, 0⟩ 0 0 0 [1, 2, 3] 0 0).wf = false := by decide +kernel

/-! ### Effects -/

/-- The wafer a command leaves, or w0. -/
def after (c : Instr) (s : State) : Wafer := match exec c s with | .next t => t.waf | _ => w0

/-- No row of the table has bits. -/
theorem test_decode_none : decodeTableWord 8 5 = none := by decide +kernel

/-- R14: 2^48 − 1 and one tick make position 0. -/
theorem test_tick_wraps :
    (after (.tickEdge 1 true 200 false 0) (on fun w => ((w.setReg (cntBlk 16) 0x100101).setReg (cntBlk 16 + 8) 0xFFFFFFFFFFFF))).cntPos 16 = 0 := by
  decide +kernel

/-- R265: 5 + (2^64 − 6) reaches 2^64 − 1, so the object holds 2^64 − 2. -/
theorem test_sync_add_overflows :
    (after (.syncAdd ⟨0, 96⟩ 3 .unhal 1 7 0xFFFFFFFFFFFFFFFA) (on (L.sync7 0))).syncVal 1 7 = 0xFFFFFFFFFFFFFFFE := by decide +kernel

/-- R265: 5 + 3 = 8. -/
theorem test_sync_add : (after (.syncAdd ⟨0, 96⟩ 3 .unhal 1 7 3) (on (L.sync7 0))).syncVal 1 7 = 8 := by decide +kernel

/-- R126: 0x0005FFFFFFFFFFF8 advances to 0x0005000000000000. -/
theorem test_window_wraps : ((w0.setWin 0 { w0.win 0 with cur := 0x0005FFFFFFFFFFF8 }).winAdvance 0).rib32 0x21 = 0x00050000 := by
  decide +kernel

/-- R384: MISSING (0) loses to 9. -/
theorem test_missing_loses : minMax 0x0F false true 0 9 = (9, fNone) := by decide +kernel

/-- R207, R226: a byte written to SRAM of site 1 lies at its offset. -/
theorem test_mem_write :
    (after (.memWrite { who := ⟨0, 96⟩, tag := 0, src := .unhal, addr := 0x0001000000000010, size := 1, acquire := false, release := false } [0xAB])
      s0).byte (dieAddr 1 0x10) = 0xAB := by decide +kernel

/-- R279: a call on a channel whose volume lacks authority answers NOT_AUTHORIZED (1) in DATA word 0. -/
theorem test_call_not_authorized :
    (after (.unhalVolReset ⟨1, 20⟩ 2) (on L.c2)).reg (dirBlk 1 20 true + 0x80) = 1 := by decide +kernel


end Sys2Proof.Tests
end

section
/-! The windows of the ribbon ports (R123-R127): what a write of a window or of a ribbon register leaves to read, and the
advance of a window's address. -/

namespace Sys2Proof.Machine.Wafer

@[simp] theorem win_setRib32 (w : Wafer) (k n : Nat) (v : BitVec 32) : (w.setRib32 k v).win n = w.win n := rfl

@[simp] theorem win_setWin_same (w : Wafer) (n : Nat) (x : Win) : (w.setWin n x).win n = x := by
  by_cases h : n = 0 <;> simp [win, setWin, h]

/-- The window after an advance (R126): the address has its field [47:0] replaced; the buffer, the access in flight and
the fault mark stay. -/
theorem win_winAdvance_same (w : Wafer) (n : Nat) :
    (w.winAdvance n).win n =
      { w.win n with cur := putF (w.win n).cur 0 48 (getF (w.win n).cur 0 48 + 8) } := by
  rw [winAdvance, win_setRib32, win_setRib32, win_setWin_same]

end Sys2Proof.Machine.Wafer

open Sys2Proof Sys2Proof.Machine

/-- Settles O55: the advance writes the field [47:0] alone, so that field reads back its sum with 8 cut to 48 bits, and
the fields above it read as before. -/
theorem windowAdvanceStaysInDie : Obligations.WindowAdvanceStaysInDie := by
  intro w n _
  rw [Wafer.win_winAdvance_same]
  exact ⟨getF_putF _ 0 48 _ (by decide), getF_putF_above _ 0 48 _ 48 16 (by decide) (by decide)⟩

end

section
/-! The save slots of the matrix engines (R363): the 24 slots of a site follow each other in the order of 3e + c, one image
length apart, inside the SRAM that volume 0 holds (R282). -/

namespace Sys2Proof.Machine

namespace Wafer

@[simp] theorem sramWin_zero (w : Wafer) : w.sramWin 0 = (0x0F000000, 0x01000000) := rfl

@[simp] theorem within_iff (win : Nat × Nat) (a n : Nat) :
    within win a n = true ↔ win.1 ≤ a ∧ a + n ≤ win.1 + win.2 := by
  simp [within]

/-- Volume 0's window has room for save slot number i of a site, for each of the 8 engines' 3 slots. -/
theorem within_sramWin_zero_saveSlot (w : Wafer) {i : Nat} (hi : i < 24) :
    within (w.sramWin 0) (0x0FF00000 + i * 0x4900) 0x4900 = true := by
  rw [within_iff, sramWin_zero]
  constructor <;> dsimp only <;> omega

end Wafer

/-- A slot of a lower number ends at or before the start of one of a higher number. -/
theorem saveSlot_end_le (site : Nat) {e c e' c' : Nat} (hc : 1 ≤ c) (h : 3 * e + c < 3 * e' + c') :
    saveSlot site e c + 0x4900 ≤ saveSlot site e' c' := by
  unfold saveSlot dieAddr
  omega

/-- Engine and class are the quotient and remainder of the slot's number, so two slots of one number are the same. -/
theorem saveSlot_number_inj {e c e' c' : Nat} (hc : 1 ≤ c) (hc3 : c ≤ 3) (hc' : 1 ≤ c') (hc3' : c' ≤ 3)
    (h : 3 * e + c = 3 * e' + c') : (e, c) = (e', c') := by
  rw [Prod.mk.injEq]
  omega

end Sys2Proof.Machine

open Sys2Proof Sys2Proof.Machine

/-- Settles O56: slot numbers stay below 24, which volume 0's window holds, and of two different slots the one of the
lower number ends before the other begins. -/
theorem saveSlotsInVolumeZero : Obligations.SaveSlotsInVolumeZero := by
  intro w site e c he hc hc3
  refine ⟨rfl, w.within_sramWin_zero_saveSlot (by omega), fun e' c' _ hc' hc3' hne => ?_⟩
  have hnum : 3 * e + c ≠ 3 * e' + c' := fun h => hne (saveSlot_number_inj hc hc3 hc' hc3' h)
  rcases Nat.lt_or_gt_of_ne hnum with h | h
  · exact Or.inl (saveSlot_end_le site hc h)
  · exact Or.inr (saveSlot_end_le site hc' h)

end

section
/-! MIN and MAX over ordinal keys (R384): one lemma for a MISSING operand on each side, one for each of MIN and MAX of two
ordinary keys. -/

namespace Sys2Proof.Machine

variable {c a b : Nat} {ftz isMax : Bool}

@[simp] theorem minMax_key_missing_left (hc : fmtKey c = true) : minMax c ftz isMax 0 b = (b, fNone) := by
  by_cases hb : b = 0 <;> simp [minMax, hc, hb]

@[simp] theorem minMax_key_missing_right (hc : fmtKey c = true) : minMax c ftz isMax a 0 = (a, fNone) := by
  simp [minMax, hc]

/-- The left key stays unless it is below the right one, which is the greater key in both cases. -/
theorem minMax_key_max (hc : fmtKey c = true) (ha : a ≠ 0) (hb : b ≠ 0) :
    minMax c ftz true a b = (max a b, fNone) := by
  rcases Nat.lt_or_ge a b with hlt | hge
  · simp [minMax, hc, ha, hb, hlt, Nat.max_eq_right hlt.le]
  · simp [minMax, hc, ha, hb, Nat.not_lt.mpr hge, Nat.max_eq_left hge]

/-- The left key stays unless the right one is below it, which leaves the lesser key in both cases. -/
theorem minMax_key_min (hc : fmtKey c = true) (ha : a ≠ 0) (hb : b ≠ 0) :
    minMax c ftz false a b = (min a b, fNone) := by
  rcases Nat.lt_or_ge b a with hlt | hge
  · simp [minMax, hc, ha, hb, hlt, Nat.min_eq_right hlt.le]
  · simp [minMax, hc, ha, hb, Nat.not_lt.mpr hge, Nat.min_eq_left hge]

end Sys2Proof.Machine

open Sys2Proof Sys2Proof.Machine

/-- Settles O54: a MISSING operand on either side yields the other operand, and two ordinary keys compare as unsigned
integers under MAX and under MIN. -/
theorem minMaxOfKeys : Obligations.MinMaxOfKeys := by
  intro c a b ftz isMax hc
  by_cases ha : a = 0
  · subst ha
    rw [minMax_key_missing_left hc, if_pos rfl]
  by_cases hb : b = 0
  · subst hb
    rw [minMax_key_missing_right hc, if_neg ha, if_pos rfl]
  rw [if_neg ha, if_neg hb]
  cases isMax with
  | true => exact minMax_key_max hc ha hb
  | false => exact minMax_key_min hc ha hb

end
